-- ==== Sys2Proof/Word.lean ====
section
/-! DEFINITION. The word types: registers and packet words are 32 bits (R17, R287), memory is bytes, fields are little-endian (R8). -/

namespace Sys2Proof

/-- A BAR0 register or a packet word, 32 bits (R17, R287). -/
abbrev Word := BitVec 32

/-- One byte of memory. -/
abbrev Byte := BitVec 8

/-- A 64-bit quantity: two consecutive registers, or an 8-byte field (R17). -/
abbrev DWord := BitVec 64

end Sys2Proof
end

