-- ==== Sys2Proof/Syntax.lean ====
section
/-! DEFINITION. The commands of the block, one constructor per row of the table of operations and events, with the operands that the
outside supplies: a host access's function and value, a packet's name, a message's link, a measurement, a test's outcome. -/

namespace Sys2Proof

/-- The fields of a function's configuration header (R492, R493, R494): identities, the command register with Memory Space Enable at bit 1, the MSI-X control word
with Enable at bit 15 and Function Mask at bit 14, the three BARs as 64-bit values, the largest payload, the Device Serial Number, and what the IDE Extended Capability
reports: counts of Link and Selective streams, of address association blocks and traffic classes for each, Flit Mode IDE, PCRC, aggregation and partial header
encryption (R497; log entry 86). -/
inductive CfgReg where
  | vendor | device | revision | classCode | headerType | subsystemVendor | subsystem | command | msixControl
  | maxPayload | serialNumber
  | ideLink | ideSelective | ideAddressBlocks | ideTrafficClasses | ideFlitMode | idePcrc | ideAggregation | idePartialHeader
  | bar (n : Fin 3)
  deriving DecidableEq, Repr

/-- Where a register access of the host goes: BAR0, BAR4, or a field of the configuration header (R494). -/
inductive RegSpace where
  | bar0 | bar4
  | cfg (r : CfgReg)
  deriving DecidableEq, Repr

/-- A host access: the physical function that makes it, whether it reaches the hub during a sluice window (R47), and for REGISTER_READ and REGISTER_WRITE the space that
its offset is in; every other row names a register of BAR0. -/
structure Port where
  fn : Fin 8
  win : Bool
  space : RegSpace
  deriving DecidableEq, Repr

/-- A command in flight: its queue and the sequence number it got at acceptance (R285). -/
structure CmdId where
  q : Fin 16384
  seq : Word
  deriving DecidableEq, Repr

/-- Who runs a frame program: a RUN_PROGRAM command, or the open step of a polder with the program's place in its list (R320, R336). -/
inductive Runner where
  | cmd (c : CmdId)
  | step (p : Fin 4) (prog : Fin 256)
  deriving DecidableEq, Repr

/-- Engine work: a packet's command, or work that a running frame program issues in this frame, its parameter block laid out as the
opcode's packet lays it out (R293, R294; the code itself has no encoding in the spec, log entry 10). -/
inductive Work where
  | packet (c : CmdId)
  | program (r : Runner) (params : List Word)
  deriving DecidableEq, Repr

/-- The engines that keep a frame-done flag (R42). -/
inductive Engine where
  | tsq (d : Fin 4) (t : Fin 48)
  | fsq (d : Fin 4) (n : Fin 4)
  | ce (d : Fin 4) (n : Fin 4)
  | me (d : Fin 4) (n : Fin 2)
  | nmr (d : Fin 4) (n : Fin 14)
  | ue
  | link (l : Fin 32)
  deriving DecidableEq, Repr

/-- The first failure that a self-test found: its mode, slice, bank and line (R414). -/
structure TestFail where
  mode : BitVec 3
  slice : Byte
  bank : BitVec 6
  line : BitVec 10
  deriving DecidableEq, Repr

/-- What a link's peer sends in its training flits (R347): part, stepping, slot, node, its link number, frame length and contract level. -/
structure PeerId where
  part : BitVec 16
  stepping : Byte
  slot : BitVec 4
  node : BitVec 4
  link : Byte
  log2 : BitVec 5
  level : Byte
  deriving DecidableEq, Repr

/-- What a module start meets (R389): the steps whose work fails, the stacks, packages and tiles that do not pass, the slot straps,
the time it takes in ms, and the step during which PERST# is asserted again, if it is (R483). -/
structure StartResult where
  fails : List (Fin 9)
  hbmBad : BitVec 8
  packages : List (Fin 48)
  tiles : List (Fin 4 × Fin 52)
  straps : BitVec 4
  ms : Word
  cut : Option (Fin 9)
  deriving DecidableEq, Repr

/-- The commands, in the order of the table. -/
inductive Instr where
  /-- SLUICE (R45): When the frame's array cycles are counted, the module takes the sluice and applies the ordered steps that commit the frame's staged state. -/
  | sluice (late : List Engine)
  /-- FRAME_SYNC_RISE (R59): A recognised rising edge on FRAME_SYNC_IN lets an aligned module run steps 2 to 8 of the sluice. -/
  | frameSyncRise
  /-- SYNC_LOST (R61): If FRAME_SYNC_IN does not rise within the timeout the module takes the sluice alone and reports lost alignment. -/
  | syncLost
  /-- SLUICE_WATCHDOG (R377): When no sluice is taken for SLUICE_TO × 256 µs the watchdog fires and names the dies and hub that had not completed. -/
  | sluiceWatchdog (late : BitVec 5)
  /-- FRAME_LEN_CHANGE (R39): The pending frame length takes effect at the sluice before the target frame. -/
  | frameLenChange
  /-- WEIR_TIMEOUT (R57): A wait not released within its frame limit ends and its command completes with WEIR_TIMEOUT. -/
  | weirTimeout (c : CmdId)
  /-- REGISTER_WRITE (R53): A BAR0 write to a register with no behaviour of its own takes effect at the sluice of its frame, or is held as a TX write. -/
  | registerWrite (h : Port) (off : BitVec 26) (len : Nat) (v : DWord)
  /-- FC_CT_OPEN (R50): FC_CT_CMD open makes a free configuration slot open. -/
  | fcCtOpen (h : Port) (slot : Fin 16)
  /-- FC_CT_CLOSE (R51): FC_CT_CMD close closes an open slot for commit at the sluice of its frame. -/
  | fcCtClose (h : Port) (slot : Fin 16)
  /-- FC_CT_ABANDON (R54): FC_CT_CMD abandon discards an open or closed slot at the sluice of its frame. -/
  | fcCtAbandon (h : Port) (slot : Fin 16)
  /-- WEIR_SIGNAL (R55): A write of WEIR_SIGNAL stages an addition to the weir's count for the sluice of its frame. -/
  | weirSignal (h : Port) (n : Fin 16384) (add : Word)
  /-- WEIR_CTRL_CLEAR (R58): A write of WEIR_CTRL.CLEAR zeroes the count at the next sluice and ends pending waits with WEIR_RESET. -/
  | weirCtrlClear (h : Port) (n : Fin 16384) (v : Word)
  /-- DOORBELL (R283): A write of CQ_TAIL makes the packets up to the new tail available to the queue's command processor. -/
  | doorbell (h : Port) (q : Fin 16384) (v : Word)
  /-- CQ_CPL_HEAD (R297): A write of CQ_CPL_HEAD returns completion entries to the module, or is ignored if it passes the tail. -/
  | cqCplHead (h : Port) (q : Fin 16384) (v : Word)
  /-- ENABLE (R281): CQ_CMD ENABLE checks the ring fields and moves a DISABLED queue to RUNNING at the sluice. -/
  | enable (h : Port) (q : Fin 16384)
  /-- PAUSE (R281): CQ_CMD PAUSE stops acceptance on a RUNNING queue at the sluice. -/
  | pause (h : Port) (q : Fin 16384)
  /-- RESUME (R281): CQ_CMD RESUME returns a PAUSED or ERROR queue to RUNNING and acceptance continues from CQ_HEAD. -/
  | resume (h : Port) (q : Fin 16384)
  /-- RESET (R281): CQ_CMD RESET stops acceptance, cancels waiting commands and disables the queue once nothing is in flight. -/
  | reset (h : Port) (q : Fin 16384)
  /-- MQ_TAIL (R305): A write of MQ_TAIL makes management packets available, accepted at the sluice of the frame. -/
  | mqTail (h : Port) (v : Word)
  /-- NOP (R279): NOP does no work and completes with OK at the sluice of its executing frame. -/
  | nop (c : CmdId)
  /-- DELAY (R318): DELAY executes for N frames and then completes. -/
  | delay (c : CmdId)
  /-- SIGNAL (R318): SIGNAL stages a list of weir signals in its executing frame. -/
  | signal (w : Work)
  /-- WEIR_CLEAR (R318): WEIR_CLEAR clears each listed weir at the sluice of its executing frame before that frame's signals. -/
  | weirClear (c : CmdId)
  /-- FRAME_MARK (R318): FRAME_MARK returns its executing frame number in the reply. -/
  | frameMark (c : CmdId)
  /-- RUN_PROGRAM (R320): RUN_PROGRAM checks a frame program header, latches its handles and runs the program on the named dies. -/
  | runProgram (c : CmdId)
  /-- FWD_PRODUCT (R96): FWD_PRODUCT computes Y = X · W on a tile's forward array and drains it through the forward drain. -/
  | fwdProduct (w : Work)
  /-- PCS_LOAD (R321): PCS_LOAD loads per-channel scale entries into a tile bank, all committing together at the sluice. -/
  | pcsLoad (w : Work)
  /-- COLLECT_OPEN (R321): COLLECT_OPEN takes the lowest free collector in the given mode and clears it. -/
  | collectOpen (c : CmdId)
  /-- COLLECT_CLOSE (R122): COLLECT_CLOSE writes a collector's contents to device memory and frees it. -/
  | collectClose (c : CmdId)
  /-- REV_PRODUCT (R125): REV_PRODUCT computes Z = A · B on the reverse array and drains it to a tensor or accumulation region. -/
  | revProduct (w : Work)
  /-- REGION_FLUSH (R148): After DONE reaches USES, the region's entries are converted and written to tile SRAM in the next frame and the region resets. -/
  | regionFlush (d : Fin 4) (t : Fin 48) (rgn : Fin 16)
  /-- LN_FWD (R153): ROW_OP LN_FWD computes layer norm of each row. -/
  | lnFwd (w : Work)
  /-- LN_BWD (R153): ROW_OP LN_BWD recomputes layer-norm statistics and computes dx with dγ and dβ contributions. -/
  | lnBwd (w : Work)
  /-- RMS_FWD (R153): ROW_OP RMS_FWD computes RMS norm of each row. -/
  | rmsFwd (w : Work)
  /-- RMS_BWD (R153): ROW_OP RMS_BWD recomputes RMS statistics and computes dx with dγ contributions. -/
  | rmsBwd (w : Work)
  /-- SM_FWD (R153): ROW_OP SM_FWD computes the soft-maximum of each row. -/
  | smFwd (w : Work)
  /-- SM_BWD (R153): ROW_OP SM_BWD recomputes the soft-maximum and computes dx. -/
  | smBwd (w : Work)
  /-- EXPAND_W (R324): EXPAND_W expands I4 or I8 weight codes into a W16 tensor under the per-channel entries. -/
  | expandW (w : Work)
  /-- QUANTIZE (R328): QUANTIZE encodes a source region into a block-scaled destination, with optional brine, committing codes, scales and brine together. -/
  | quantize (w : Work)
  /-- AMAX (R328): AMAX returns the amax of a source region in the reply. -/
  | amax (w : Work)
  /-- HIST_READ (R329): HIST_READ writes a slot's step histogram and counts to device memory. -/
  | histRead (c : CmdId)
  /-- SLOT_CLEAR (R328): SLOT_CLEAR zeroes a slot's offset and flag arrays and its narrowing state. -/
  | slotClear (c : CmdId)
  /-- DESC_CREATE (R196): DESC_CREATE validates a descriptor, stores a copy and returns the lowest free handle. -/
  | descCreate (c : CmdId)
  /-- DESC_DESTROY (R198): DESC_DESTROY frees a descriptor handle at the sluice of its frame. -/
  | descDestroy (c : CmdId)
  /-- DESC_READ (R330): DESC_READ writes a stored descriptor to device memory. -/
  | descRead (c : CmdId)
  /-- COPY (R206): Transform COPY copies codes and scales position for position on a copy engine. -/
  | copy (w : Work)
  /-- TRANSPOSE (R206): Transform TRANSPOSE swaps two dimensions and rewrites scales in the destination's numbering. -/
  | transpose (w : Work)
  /-- CONVERT (R206): Transform CONVERT converts each code into the destination format, carrying or decoding block scales. -/
  | convert (w : Work)
  /-- GATHER (R206): Transform GATHER copies table rows named by an index tensor, coalescing duplicates. -/
  | gather (w : Work)
  /-- SCATTER_WRITE (R206): Transform SCATTER_WRITE writes source rows to table rows named by an index tensor. -/
  | scatterWrite (w : Work)
  /-- SCATTER_ADD (R206): Transform SCATTER_ADD sends rows as reducer contributions to table rows named by an index tensor. -/
  | scatterAdd (w : Work)
  /-- OBJ_ALLOC (R216): OBJ_ALLOC places a new object in a tier under its hint and quota and returns its base and number. -/
  | objAlloc (c : CmdId)
  /-- OBJ_RELEASE (R220): OBJ_RELEASE frees an object, makes its descriptors stale and queues its frames for zeroing. -/
  | objRelease (c : CmdId)
  /-- MIGRATE (R223): MIGRATE moves an object's pages to another tier sub-block by sub-block in the migration reserve. -/
  | migrate (w : Work)
  /-- WINDOW_FILL (R233): WINDOW_FILL copies a range of an LPDDR object into a slot of a WINDOW object. -/
  | windowFill (w : Work)
  /-- HOST_IN (R331): HOST_IN moves bytes from host memory into device memory on the host transfer engine. -/
  | hostIn (c : CmdId) (data : List Byte) (bad : List Nat)
  /-- HOST_OUT (R331): HOST_OUT moves bytes from device memory to host memory on the host transfer engine. -/
  | hostOut (c : CmdId)
  /-- IMPORT (R430): IMPORT decrypts and authenticates an AES-256-GCM container chunk by chunk into device memory. -/
  | import (c : CmdId)
  /-- REDUCE (R333): REDUCE reduces one bucket outside any step through stage 1 and stage 2. -/
  | reduce (c : CmdId)
  /-- GROUP_INIT (R333): GROUP_INIT writes a parameter group's initial state block and resets its step state. -/
  | groupInit (c : CmdId)
  /-- STEP_LOAD (R336): STEP_LOAD checks and installs a step program with its buckets, groups, slots and staging objects. -/
  | stepLoad (c : CmdId)
  /-- STEP_RUN (R337): STEP_RUN waits on a batch weir, runs one step and replies at its closing sluice. -/
  | stepRun (c : CmdId)
  /-- LOOP_START (R337): LOOP_START runs steps from a ring of batch weirs until a limit, a stop or a fatal vote reason. -/
  | loopStart (c : CmdId)
  /-- LOOP_STOP (R337): LOOP_STOP ends the running step loop at the current step's closing sluice. -/
  | loopStop (c : CmdId)
  /-- CKPT_TAKE (R338): CKPT_TAKE snapshots listed ranges at the next commit sluice into an LPDDR checkpoint by copy-on-write. -/
  | ckptTake (c : CmdId)
  /-- CKPT_DRAIN (R395): CKPT_DRAIN sends a checkpoint to the host, resuming from DRAINED. -/
  | ckptDrain (c : CmdId)
  /-- REPLAY_DIAG (R398): REPLAY_DIAG re-executes a recorded step in an abandoned transaction and writes bucket digests. -/
  | replayDiag (c : CmdId)
  /-- RECORD_READ (R338): RECORD_READ copies a held step record to device memory. -/
  | recordRead (c : CmdId)
  /-- SEAL (R432): SEAL writes a signed digest of a committed tensor region and seals the region against writes meanwhile. -/
  | seal (c : CmdId)
  /-- EMB_LOOKUP (R341): EMB_LOOKUP gathers table rows and, with staging, assigns staging entries and writes the map. -/
  | embLookup (w : Work)
  /-- EMB_SCATTER_ADD (R339): EMB_SCATTER_ADD adds rows into a table through the reducers, staged behind an open step. -/
  | embScatterAdd (w : Work)
  /-- EMB_STAGE_BIND (R340): EMB_STAGE_BIND binds a staging object to a row group and writes its head. -/
  | embStageBind (c : CmdId)
  /-- ABORT (R385): ABORT ends every executing command in a queue, polder or module scope with ABORTED. -/
  | abort (f : Fin 8) (k : Fin 16)
  /-- RESET_DOMAIN (R384): RESET_DOMAIN snapshots, ends commands and resets a tile, die, hub, link, polder or the module. -/
  | resetDomain (f : Fin 8) (k : Fin 16)
  /-- QUOTA_SET (R219): QUOTA_SET sets a polder's HBM and LPDDR page quotas. -/
  | quotaSet (f : Fin 8) (k : Fin 16)
  /-- QUEUE_ASSIGN (R342): QUEUE_ASSIGN replaces a function's range of owned queues. -/
  | queueAssign (f : Fin 8) (k : Fin 16)
  /-- POWER_CAP (R461): POWER_CAP sets the host power cap used by the power manager. -/
  | powerCap (f : Fin 8) (k : Fin 16)
  /-- TELEMETRY (R467): TELEMETRY returns a 64-bit sensor reading. -/
  | telemetry (f : Fin 8) (k : Fin 16)
  /-- OFFLINE (R342): SELFTEST OFFLINE runs the destructive start test on one idle tile. -/
  | offline (f : Fin 8) (k : Fin 16) (fail : Option TestFail)
  /-- SPARES (R409): SELFTEST SPARES tests every spare of a die now. -/
  | spares (f : Fin 8) (k : Fin 16) (failed : List (Fin 52))
  /-- RESTART (R408): SELFTEST RESTART restarts every periodic pass of a die at slice 0. -/
  | restart (f : Fin 8) (k : Fin 16)
  /-- POLDER_SET (R416): POLDER_SET records the polder count to take effect at the next module reset. -/
  | polderSet (f : Fin 8) (k : Fin 16)
  /-- CONF_SET (R420): CONF_SET puts a polder into confidential mode, or marks it to leave at its next reset. -/
  | confSet (f : Fin 8) (k : Fin 16)
  /-- DBG_READ (R343): DBG_READ copies committed tile SRAM, accumulator, page-entry or per-channel data to device memory. -/
  | dbgRead (c : CmdId)
  /-- CONFIGURE (R446): TRACE_CTRL CONFIGURE stops capture and sets the trace buffer, mode, mask and trigger. -/
  | configure (c : CmdId)
  /-- START (R446): TRACE_CTRL START begins trace capture from the current record number. -/
  | start (c : CmdId)
  /-- STOP (R446): TRACE_CTRL STOP stops trace capture. -/
  | stop (c : CmdId)
  /-- TRIGGER (R445): TRACE_CTRL TRIGGER fires a software trace trigger. -/
  | trigger (c : CmdId)
  /-- BREAK_SET (R452): BREAK_SET installs, replaces or removes a PC or WEIR breakpoint on a control core. -/
  | breakSet (c : CmdId)
  /-- BREAK_RESUME (R451): BREAK_RESUME resumes halted cores, optionally for one program frame. -/
  | breakResume (c : CmdId)
  /-- BREAKPOINT_HIT (R448): A core reaching a breakpoint condition halts, or counts a miss inside step work. -/
  | breakpointHit (p : Fin 4) (id : Fin 8)
  /-- STEP_OPEN (R49): When a step's batch weir releases, the polder opens its step transaction and seeds its converters. -/
  | stepOpen (p : Fin 4)
  /-- BUCKET_CLOSE (R248): When a bucket's fill weir releases, the bucket closes and stage 1 starts in the next frame. -/
  | bucketClose (p : Fin 4) (b : BitVec 12)
  /-- STAGE_1_COMPLETE (R250): When the polder's die sum completes, shards are sent to their owners, or the bucket is final when N is 1. -/
  | stage1Complete (p : Fin 4) (b : BitVec 12)
  /-- SHARD (R252): A SHARD message delivers a member's stage-2 contribution to the shard's owner. -/
  | shard (l : Fin 32)
  /-- RESULT (R252): A RESULT message writes a reduced shard into the member's result buffer. -/
  | result (l : Fin 32)
  /-- BUCKET_LATE (R253): A bucket not FINAL by sluice O + DUE fails with cause LATE. -/
  | bucketLate (p : Fin 4) (b : BitVec 12)
  /-- PASS_ONE (R261): The update engine accumulates the norms of a FINAL bucket in the frames after it becomes FINAL. -/
  | passOne (p : Fin 4) (b : BitVec 12)
  /-- BALLOT_SLUICE (R255): When all buckets, work and counts of the step are done, the polder forms and sends its ballot. -/
  | ballotSluice (p : Fin 4)
  /-- BALLOT (R255): A BALLOT message delivers a member's ballot to the group. -/
  | ballot (l : Fin 32)
  /-- VOTE_SLUICE (R257): When all ballots are held or VOTE_AT is reached, each member decides COMMIT, SKIP or REPLAY. -/
  | voteSluice (p : Fin 4)
  /-- HOST_VERDICT (R259): A host verdict applies at its sluice and combines with the provisional outcome. -/
  | hostVerdict (p : Fin 4)
  /-- HOST_TIMEOUT (R259): With no verdict by V + HOST_TIMEOUT the outcome is SKIP with HOST. -/
  | hostTimeout (p : Fin 4)
  /-- MAINTENANCE_PASS (R171): The gradient-slot maintenance pass applies format selection and per-block offset rules. -/
  | maintenancePass (p : Fin 4)
  /-- REPLAY_OPEN (R174): After replay maintenance completes, the step opens again under a new transaction. -/
  | replayOpen (p : Fin 4)
  /-- PASS_TWO (R264): The update engine updates weights and state group by group and sends a close word when done. -/
  | passTwo (p : Fin 4)
  /-- CLOSE (R269): A CLOSE message delivers a member's close word. -/
  | close (l : Fin 32)
  /-- CLOSING_SLUICE (R269): When every counted member's close word is held, the step's state, LRX, powers and record commit. -/
  | closingSluice (p : Fin 4)
  /-- CLOSE_TIMEOUT (R269): With close words missing at V + CLOSE_TIMEOUT, present members close and report MEMBER_LOST. -/
  | closeTimeout (p : Fin 4)
  /-- LINK_TRAINING (R347): An enabled link trains lanes, exchanges identities, checks topology and becomes UP. -/
  | linkTraining (l : Fin 32) (lanes : BitVec 8) (peer : Option PeerId)
  /-- TRAIN_TIMEOUT (R348): A link that does not finish training within 120 ms becomes DOWN. -/
  | trainTimeout (l : Fin 32)
  /-- RETRAIN_INTERVAL (R348): A DOWN link with ENABLE set starts training again every 250 ms. -/
  | retrainInterval (l : Fin 32)
  /-- LANE_LOCK_LOSS (R349): A lane losing lock puts the link into RETRAIN, or DOWN with LOSS when all lanes lose signal. -/
  | laneLockLoss (l : Fin 32) (allLost : Bool)
  /-- ACK_TIMEOUT (R349): No acknowledgement for 2 µs with flits outstanding puts the link into RETRAIN. -/
  | ackTimeout (l : Fin 32)
  /-- ZL_CTRL_RETRAIN (R349): A write of ZL_CTRL.RETRAIN forces the link into RETRAIN. -/
  | zlCtrlRetrain (h : Port) (l : Fin 32) (v : Word)
  /-- ZL_CTRL_CLR (R372): A write of ZL_CTRL.CLR clears the link's counters. -/
  | zlCtrlClr (h : Port) (l : Fin 32) (v : Word)
  /-- FLIT_RECEIVE (R352): A received flit is corrected, CRC-checked and sequenced, and its credits, acknowledgement and payload are taken. -/
  | flitReceive (l : Fin 32) (flit : List Byte) (corrected : Nat)
  /-- IDLE (R354): An IDLE message updates the peer's frame number and serves a rejoin. -/
  | idle (l : Fin 32)
  /-- MGMT (R354): A MGMT message is delivered to the management controller. -/
  | mgmt (l : Fin 32)
  /-- ROWADD (R355): A ROWADD message becomes a reducer contribution to a table row in the next frame. -/
  | rowadd (l : Fin 32)
  /-- XFER (R354): An XFER message writes its bytes at the destination device address. -/
  | xfer (l : Fin 32)
  /-- SUBSTITUTION (R370): At the sluice before AT, routes to the failed node turn to slot 8 and the standby takes its node number. -/
  | substitution
  /-- REJOIN_NO_PEER (R368): A rejoin with no usable IDLE within 64 frames fails. -/
  | rejoinNoPeer
  /-- HANG_DETECT (R378): A unit owing work whose count has not moved for 2^W sluices is declared hung and handled by ACTION. -/
  | hangDetect
  /-- DOMAIN_RELEASE (R384): A reset domain finishes its start checks and is released at a sluice. -/
  | domainRelease (kind : Fin 6) (index : BitVec 8) (failed : List (Fin 52))
  /-- TILE_FAULT (R190): An uncorrectable tile memory error ends the tile's commands, abandons the step and resets the tile. -/
  | tileFault (d : Fin 4) (t : Fin 48)
  /-- MEM_UNCORR (R236): An uncorrectable device-memory read retires the frame, poisons the granule and fails its consumer. -/
  | memUncorr (p : Fin 4) (addr : BitVec 48)
  /-- PATROL_SCRUB (R237): Patrol scrub reads memory, corrects single errors and reports uncorrectable ones with the memory alert. -/
  | patrolScrub (d : Fin 4) (ctl : Fin 14) (addr : BitVec 48) (uncorr : Bool)
  /-- PAGE_ZEROED (R220): A controller finishes zeroing a frame, which returns to the free pool. -/
  | pageZeroed (d : Fin 4) (ctl : Fin 14)
  /-- CHECKPOINT_COMPLETE (R394): The checkpoint becomes COMPLETE when every pending sub-block has been copied. -/
  | checkpointComplete (p : Fin 4)
  /-- ME_CKPT_RESTORE_GO (R396): A committed ME_CKPT_RESTORE.GO starts copying a checkpoint back to its ranges. -/
  | meCkptRestoreGo (h : Port) (p : Fin 4) (v : Word)
  /-- RESTORE_COMPLETE (R396): At completion the restore loads group and slot images and sets UE_STEP. -/
  | restoreComplete (p : Fin 4)
  /-- MC_TILE_REMAP_GO (R392): A committed MC_TILE_REMAP.GO maps a free spare to a logical tile. -/
  | mcTileRemapGo (h : Port) (v : Word)
  /-- IN_SERVICE_SLICE (R408): In a donated frame the self-test controller runs the tile's next transparent slice. -/
  | inServiceSlice (d : Fin 4) (t : Fin 48) (fail : Option TestFail)
  /-- PASS_STARVED (R408): A periodic pass not complete by its deadline sets STARVED. -/
  | passStarved (d : Fin 4) (t : Fin 52)
  /-- SPARE_TEST_ROUND (R409): Every 2^22 frames the controller tests each passing spare in turn. -/
  | spareTestRound (d : Fin 4)
  /-- ST_STATUS_CLR_COUNTS (R182): A write of ST_STATUS.CLR_COUNTS clears the tile's block and shadow counters. -/
  | stStatusClrCounts (h : Port) (d : Fin 4) (t : Fin 48) (v : Word)
  /-- TD_IDX_CTRL_CLR (R210): A write of TD_IDX_CTRL.CLR clears the polder's index-error count. -/
  | tdIdxCtrlClr (h : Port) (p : Fin 4) (v : Word)
  /-- MT_ECC_CTRL_CLR (R242): A write of MT_ECC_CTRL.CLR clears the three ECC counters. -/
  | mtEccCtrlClr (h : Port) (v : Word)
  /-- BC_CTRL_CLR (R414): A write of BC_CTRL.CLR clears the die's self-test counters. -/
  | bcCtrlClr (h : Port) (d : Fin 4) (v : Word)
  /-- OB_BANK_CTRL_CLR (R439): A write of OB_BANK_CTRL.CLR arms a clear of the bank taken at the sluice after a sample. -/
  | obBankCtrlClr (h : Port) (b : Fin 8) (v : Word)
  /-- OB_BANK_CTRL_SAMPLE (R438): A write of OB_BANK_CTRL.SAMPLE requests a sample of the bank at the sluice. -/
  | obBankCtrlSample (h : Port) (b : Fin 8) (v : Word)
  /-- MC_LEDGER_CTRL_CLEAR (R400): A write of MC_LEDGER_CTRL.CLEAR empties the start ledger. -/
  | mcLedgerCtrlClear (h : Port) (v : Word)
  /-- CLR_HANG (R400): A write of MC_LEDGER_CTRL.CLR_HANG clears MC_HANG_COUNT. -/
  | clrHang (h : Port) (v : Word)
  /-- MC_DIE_CTRL (R463): A committed write of MC_DIE_CTRL.STOP stops or restarts a compute die's clocks. -/
  | mcDieCtrl (h : Port) (v : Word)
  /-- HOST_BAR2_WRITE (R240): A host write through BAR2 is staged into device memory, or dropped if unmapped, read-only or sealed. -/
  | hostBar2Write (h : Port) (off : BitVec 36) (data : List Byte)
  /-- HOST_BAR2_READ (R240): A host read through BAR2 returns committed data, poison or Unsupported Request. -/
  | hostBar2Read (h : Port) (off : BitVec 36) (len : Nat)
  /-- VECTOR_UNMASK (R302): Unmasking an MSI-X vector sends its pending message. -/
  | vectorUnmask (f : Fin 8) (v : Fin 2048)
  /-- FUNCTION_LEVEL_RESET (R496): A Function Level Reset resets and aborts the function's queues and abandons its configuration slots. -/
  | functionLevelReset (f : Fin 8)
  /-- AUX_POWER_UP (R479): When P3V3_AUX comes up the management controller starts and reads the slot straps. -/
  | auxPowerUp (straps : BitVec 4)
  /-- PWR_EN_ASSERT (R479): PWR_EN assertion with P48V in range ramps the rails and raises PWR_GOOD. -/
  | pwrEnAssert
  /-- PWR_EN_DEASSERT (R482): PWR_EN deassertion drops PWR_GOOD and removes the rails in reverse order. -/
  | pwrEnDeassert
  /-- PERST_ASSERT (R481): PERST# assertion puts the port in fundamental reset and resets the module at the next sluice. -/
  | perstAssert
  /-- MODULE_START (R389): After PERST# deassertion the module runs its start steps from SP to READY. -/
  | moduleStart (r : StartResult)
  /-- RAIL_FAULT (R480): A rail leaving regulation drops PWR_GOOD and removes every rail. -/
  | railFault (rail : Fin 9)
  /-- INPUT_VOLTAGE_FAULT (R483): P48V outside 40 V to 62 V for 1 ms starts a shutdown. -/
  | inputVoltageFault (high : Bool)
  /-- AUX_UNDERVOLTAGE (R483): P3V3_AUX below 3.0 V for 10 µs drops PWR_GOOD and removes the rails. -/
  | auxUndervoltage
  /-- POWER_WINDOW (R461): At the end of each 250 µs window the power manager raises or lowers its power step. -/
  | powerWindow (meanMw : Nat) (r : List (BitVec 16 × DWord))
  /-- FAST_POWER_LIMIT (R462): Input power above 4.0 kW for 20 µs sets the power step to at least 4. -/
  | fastPowerLimit
  /-- THERMAL_READING (R465): Every 250 µs the sensors are read and the die, hub and stack throttle steps are updated. -/
  | thermalReading (r : List (BitVec 16 × Int))
  /-- READ_SENSOR (R500): I3C READ_SENSOR returns a sensor reading. -/
  | readSensor (args : List Byte)
  /-- READ_STATUS (R500): I3C READ_STATUS returns start, thermal, power, reset status and the rail word. -/
  | readStatus (args : List Byte)
  /-- SET_CAP (R503): I3C SET_CAP sets the bus power cap. -/
  | setCap (args : List Byte)
  /-- READ_CAP (R500): I3C READ_CAP returns the bus and effective caps. -/
  | readCap (args : List Byte)
  /-- READ_LEDGER (R500): I3C READ_LEDGER returns one start-ledger entry. -/
  | readLedger (args : List Byte)
  /-- READ_ID (R500): I3C READ_ID returns HC_ID, HC_CONTRACT and the serial. -/
  | readId (args : List Byte)
  /-- ALERT_READ (R500): I3C ALERT_READ returns the alert byte. -/
  | alertRead (args : List Byte)
  /-- ALERT_CLEAR (R502): I3C ALERT_CLEAR clears alert-byte bits and may release MOD_ALERT#. -/
  | alertClear (args : List Byte)
  /-- ALERT_MASK (R502): I3C ALERT_MASK masks alert causes from MOD_ALERT# and interrupts. -/
  | alertMask (args : List Byte)
  /-- ENTDAA (R499): I3C ENTDAA assigns the target a dynamic address. -/
  | entdaa (addr : BitVec 7)
  /-- SETDASA (R499): I3C SETDASA assigns a dynamic address from the static address 0x30 + slot. -/
  | setdasa (old : BitVec 7) (addr : BitVec 7)
  /-- RSTDAA (R498): I3C RSTDAA resets the dynamic address. -/
  | rstdaa
  /-- SETNEWDA (R498): I3C SETNEWDA changes the dynamic address. -/
  | setnewda (old : BitVec 7) (addr : BitVec 7)
  /-- GETPID (R498): I3C GETPID returns the provisional ID. -/
  | getpid (addr : BitVec 7)
  /-- GETBCR (R498): I3C GETBCR returns the bus characteristics register. -/
  | getbcr (addr : BitVec 7)
  /-- GETDCR (R498): I3C GETDCR returns the device characteristics register. -/
  | getdcr (addr : BitVec 7)
  /-- GETSTATUS (R498): I3C GETSTATUS returns the target status. -/
  | getstatus (addr : BitVec 7)
  /-- ENEC (R498): I3C ENEC enables in-band interrupts. -/
  | enec (addr : Option (BitVec 7)) (bits : Byte)
  /-- DISEC (R498): I3C DISEC disables in-band interrupts. -/
  | disec (addr : Option (BitVec 7)) (bits : Byte)
  /-- GETMRL (R498): I3C GETMRL returns the maximum read length. -/
  | getmrl (addr : BitVec 7)
  /-- SETMRL (R498): I3C SETMRL sets the maximum read length. -/
  | setmrl (addr : Option (BitVec 7)) (len : BitVec 16)
  /-- GETMWL (R498): I3C GETMWL returns the maximum write length. -/
  | getmwl (addr : BitVec 7)
  /-- SETMWL (R498): I3C SETMWL sets the maximum write length. -/
  | setmwl (addr : Option (BitVec 7)) (len : BitVec 16)
  /-- GETMXDS (R498): I3C GETMXDS returns the maximum data speed. -/
  | getmxds (addr : BitVec 7)
  /-- RSTACT (R498): I3C RSTACT resets only the I3C target logic and refuses whole-target reset. -/
  | rstact (addr : Option (BitVec 7)) (kind : Byte)
  /-- EXTEST (R505): TAP EXTEST drives the sideband pins from the boundary register while PERST# is asserted. -/
  | extest
  /-- SAMPLE_PRELOAD (R504): TAP SAMPLE/PRELOAD samples or preloads the boundary register. -/
  | samplePreload (load : BitVec 39)
  /-- IDCODE (R504): TAP IDCODE selects the identification register. -/
  | idcode
  /-- CLAMP (R505): TAP CLAMP holds the pins from the boundary register with bypass selected. -/
  | clamp
  /-- HIGHZ (R505): TAP HIGHZ places outputs at high impedance with bypass selected. -/
  | highz
  /-- IJTAG (R413): TAP IJTAG selects the IEEE 1687 network. -/
  | ijtag
  /-- BYPASS (R504): TAP BYPASS selects the one-bit bypass register. -/
  | bypass
  /-- TAP_RESET (R504): TRST# low or five TCK cycles with TMS high reset the TAP to Test-Logic-Reset. -/
  | tapReset
  /-- SCAN_EN (R412): A scan enable request withdraws keys, zeroes secrets, sets SCAN_USED and then enables scan. -/
  | scanEn
  /-- BC_RESULT (R413): The BC_RESULT instrument returns a copy of the self-test registers. -/
  | bcResult (d : Fin 4)
  /-- PPR_STATUS (R413): The PPR_STATUS instrument returns post-package repair status. -/
  | pprStatus (d : Fin 4)
  /-- MISR_READ (R413): The MISR_READ instrument returns signature register contents. -/
  | misrRead (d : Fin 4)
  /-- GET_VERSION (R424): SPDM GET_VERSION returns the supported SPDM version. -/
  | getVersion (f : Fin 8) (msg : List Byte)
  /-- GET_CAPABILITIES (R424): SPDM GET_CAPABILITIES returns the responder's capabilities. -/
  | getCapabilities (f : Fin 8) (msg : List Byte)
  /-- NEGOTIATE_ALGORITHMS (R424): SPDM NEGOTIATE_ALGORITHMS selects the algorithms. -/
  | negotiateAlgorithms (f : Fin 8) (msg : List Byte)
  /-- GET_DIGESTS (R424): SPDM GET_DIGESTS returns certificate chain digests. -/
  | getDigests (f : Fin 8) (msg : List Byte)
  /-- GET_CERTIFICATE (R424): SPDM GET_CERTIFICATE returns a certificate chain. -/
  | getCertificate (f : Fin 8) (msg : List Byte)
  /-- CHALLENGE (R424): SPDM CHALLENGE proves possession of the attestation key. -/
  | challenge (f : Fin 8) (msg : List Byte)
  /-- GET_MEASUREMENTS (R425): SPDM GET_MEASUREMENTS returns firmware measurements and the signed report body. -/
  | getMeasurements (f : Fin 8) (session : Option (Fin 4)) (index : Byte) (nonce : List Byte)
  /-- KEY_EXCHANGE (R424): SPDM KEY_EXCHANGE starts a secure session. -/
  | keyExchange (f : Fin 8) (msg : List Byte)
  /-- FINISH (R424): SPDM FINISH completes session establishment. -/
  | finish (f : Fin 8) (session : Fin 4) (msg : List Byte)
  /-- END_SESSION (R424): SPDM END_SESSION ends a session. -/
  | endSession (f : Fin 8) (session : Fin 4) (msg : List Byte)
  /-- HEARTBEAT (R424): SPDM HEARTBEAT keeps a session alive. -/
  | heartbeat (f : Fin 8) (session : Fin 4) (msg : List Byte)
  /-- KEY_UPDATE (R424): SPDM KEY_UPDATE refreshes session keys. -/
  | keyUpdate (f : Fin 8) (session : Fin 4) (msg : List Byte)
  /-- RELEASE (R426): Vendor-defined RELEASE places a weight key into a polder's key slot after attestation checks. -/
  | release (f : Fin 8) (session : Fin 4) (body : List Byte)
  /-- REVOKE (R427): Vendor-defined REVOKE empties a key slot. -/
  | revoke (f : Fin 8) (session : Fin 4) (body : List Byte)
  /-- QUERY (R426): Vendor-defined QUERY returns the held key-slot mask. -/
  | query (f : Fin 8) (session : Fin 4) (body : List Byte)
  /-- K_SET_GO (R431): IDE_KM K_SET_GO activates an IDE key set. -/
  | kSetGo (f : Fin 8) (session : Fin 4) (stream : Fin 9)
  /-- K_SET_STOP (R431): IDE_KM K_SET_STOP deactivates an IDE key set. -/
  | kSetStop (f : Fin 8) (session : Fin 4) (stream : Fin 9)
  /-- REGISTER_READ (R17): A host BAR0 read latches the high word of a 64-bit pair, returns shadow or coarsened values, and is held when it targets a stopped domain. -/
  | registerRead (h : Port) (off : BitVec 26) (len : Nat)
  /-- P48V_REACHING_40_V (R479): When P48V reaches 40 V with PWR_EN already asserted, the module ramps its rails and raises PWR_GOOD within 30 ms. -/
  | p48vReaching40V
  /-- P48V_BELOW_36_V (R483): P48V falling below 36 V drops PWR_GOOD and removes the rails with RAIL_FAULT set. -/
  | p48vBelow36V
  /-- MANAGEMENT_FRAME (R306): While the hub clock is stopped or the hub or module is in reset, the management controller counts a frame per nominal frame duration and accepts, executes and completes management packets on that count. -/
  | managementFrame
  /-- SHARD_OWNER_SUM (R252): When the owner has added every member's contribution to its shard in rank order, it sends the reduced shard to every member. -/
  | shardOwnerSum (p : Fin 4) (b : BitVec 12)
  /-- SPARE_TEST_END (R409): A spare's self-test ends; a failing spare is marked failed, and a passing spare that R392 needs takes the logical number at the next sluice. -/
  | spareTestEnd (d : Fin 4) (t : Fin 52) (pass : Bool)
  /-- COARSE_POWER_REFRESH (R423): While any polder is confidential, the coarsened power reading is refreshed once per second of the management clock. -/
  | coarsePowerRefresh
  deriving DecidableEq, Repr

end Sys2Proof
end

