-- ==== Sys2Proof/Machine/Num.lean ====
section
/-! DEFINITION. Number formats (03_number_formats.md): exact values, codes, decoding, the narrowing conversion of R90, the random draw of R87, and F32 arithmetic (R75). -/

namespace Sys2Proof.Machine

/-- The formats of R67, by name. -/
inductive Fmt where
  | n4 | n6 | n8 | w8 | w12 | w16 | f32 | i4 | i8 | s8 | i32 | i64
  deriving DecidableEq, Repr

/-- The 4-bit format code of R67; codes 0x0 and 0xD to 0xF are invalid. -/
def Fmt.ofCode : Nat → Option Fmt
  | 1 => some .n4 | 2 => some .n6 | 3 => some .n8 | 4 => some .w8 | 5 => some .w12 | 6 => some .w16
  | 7 => some .f32 | 8 => some .i4 | 9 => some .i8 | 10 => some .s8 | 11 => some .i32 | 12 => some .i64
  | _ => none

/-- Width of one element in bits (R67). -/
def Fmt.width : Fmt → Nat
  | .n4 => 4 | .n6 => 6 | .n8 => 8 | .w8 => 8 | .w12 => 12 | .w16 => 16
  | .f32 => 32 | .i4 => 4 | .i8 => 8 | .s8 => 8 | .i32 => 32 | .i64 => 64

/-- Bytes of one packing unit (R80). -/
def Fmt.unitBytes : Fmt → Nat
  | .n4 => 1 | .n6 => 3 | .n8 => 1 | .w8 => 1 | .w12 => 3 | .w16 => 2
  | .f32 => 4 | .i4 => 1 | .i8 => 1 | .s8 => 1 | .i32 => 4 | .i64 => 8

/-- Elements of one packing unit (R80). -/
def Fmt.unitElems : Fmt → Nat
  | .n4 => 2 | .n6 => 4 | .w12 => 2 | .i4 => 2 | _ => 1

/-- The formats whose codes are sign and magnitude numbers: N4 to W16 and F32 (R67). -/
def Fmt.isFloat : Fmt → Bool
  | .n4 | .n6 | .n8 | .w8 | .w12 | .w16 | .f32 => true
  | _ => false

/-- Formats that require a block scale (R67). -/
def Fmt.needsBlock : Fmt → Bool
  | .n4 | .n6 | .n8 => true
  | _ => false

/-- Formats that allow a block scale (R67). -/
def Fmt.allowsBlock : Fmt → Bool
  | .n4 | .n6 | .n8 | .w8 | .w12 => true
  | _ => false

/-- Exponent bits, mantissa bits and bias of a floating layout (R70, R72); zeros for the integer formats. -/
def Fmt.layout : Fmt → Nat × Nat × Nat
  | .n4 => (3, 0, 7) | .n6 => (4, 1, 7) | .n8 => (3, 4, 3) | .w8 => (5, 2, 16) | .w12 => (6, 5, 31)
  | .w16 => (7, 8, 63) | .f32 => (8, 23, 127) | _ => (0, 0, 0)

/-- An exact value: (-1)^neg * m * 2^e, an infinity, or NaN (R71, R81). -/
inductive Val where
  | nan
  | inf (neg : Bool)
  | fin (neg : Bool) (m : Nat) (e : Int)
  deriving DecidableEq, Repr

/-- Positive zero. -/
def Val.zero : Val := .fin false 0 0

/-- The value 1. -/
def Val.one : Val := .fin false 1 0

/-- The exponent of the smallest normal magnitude of a floating format (R70): 1 - B, and 2^-6 for N4 (R72). -/
def Fmt.minExp (f : Fmt) : Int :=
  match f.layout with
  | (_, _, b) => 1 - (b : Int)

/-- The largest finite magnitude for a sign, as m * 2^e (R70 to R74). -/
def Fmt.maxFinite (f : Fmt) (neg : Bool) : Nat × Int :=
  match f with
  | .n4 => (1, 0)
  | .n6 => (1, 8)
  | .n8 => (31, 0)
  | .w8 => if neg then (5, 13) else (3, 14)
  | .w12 => (63, 26)
  | .w16 => (511, 55)
  | .f32 => (16777215, 104)
  | _ => (0, 0)

/-- The NaN code that the module produces (R71); none for N4 and the integer formats. -/
def Fmt.nanCode : Fmt → Option Nat
  | .n6 => some 0x3F | .n8 => some 0x80 | .w8 => some 0xFE | .w12 => some 0x7FF | .w16 => some 0x7FFF
  | .f32 => some 0x7FC00000 | _ => none

/-- The infinity code of a sign (R70); none where the format has no infinities. -/
def Fmt.infCode (f : Fmt) (neg : Bool) : Option Nat :=
  match f with
  | .w8 => some (if neg then 0xFF else 0x7F)
  | .w12 => some (if neg then 0xFE0 else 0x7E0)
  | .w16 => some (if neg then 0xFF00 else 0x7F00)
  | .f32 => some (if neg then 0xFF800000 else 0x7F800000)
  | _ => none

/-- A two's complement integer of the given width as an exact value. -/
def Val.ofSigned (w c : Nat) : Val :=
  if 2 ^ (w - 1) ≤ c then .fin true (2 ^ w - c) 0 else .fin false c 0

/-- Sign, exponent field and mantissa field of a floating code. -/
def Fmt.fields (f : Fmt) (c : Nat) : Bool × Nat × Nat :=
  match f.layout with
  | (e, m, _) => (c / 2 ^ (e + m) % 2 == 1, c / 2 ^ m % 2 ^ e, c % 2 ^ m)

/-- The value of a floating code by the formula above R70, without special codes. -/
def Fmt.plain (f : Fmt) (c : Nat) : Val :=
  match f.layout, f.fields c with
  | (_, mb, b), (s, e, m) =>
    if e = 0 then .fin s (if f = .n4 then 0 else m) (1 - (b : Int) - (mb : Int))
    else .fin s (2 ^ mb + m) ((e : Int) - (b : Int) - (mb : Int))

/-- The value of a code (R70 to R74, R79 for weight codes as integers, R76 for scales). -/
def Fmt.decode (f : Fmt) (c : Nat) : Val :=
  match f with
  | .n4 => f.plain c
  | .n6 => if c % 32 = 0x1F then .nan else f.plain c
  | .n8 => if c = 0x80 then .nan else f.plain c
  | .w8 => if c = 0xFE then .nan else if c = 0x7F then .inf false else if c = 0xFF then .inf true else f.plain c
  | .w12 => match f.fields c with
    | (s, e, m) => if e = 63 then (if m = 0 then .inf s else .nan) else f.plain c
  | .w16 => match f.fields c with
    | (s, e, m) => if e = 127 then (if m = 0 then .inf s else .nan) else f.plain c
  | .f32 => match f.fields c with
    | (s, e, m) => if e = 255 then (if m = 0 then .inf s else .nan) else f.plain c
  | .i4 | .i8 => .fin false c 0
  | .s8 => if c = 0xFF then .nan else .fin false 1 ((c : Int) - 127)
  | .i32 => .ofSigned 32 c
  | .i64 => .ofSigned 64 c

/-- Whether a code is a subnormal of its own format (R84). -/
def Fmt.isSubnormal (f : Fmt) (c : Nat) : Bool :=
  match f.fields c with
  | (_, e, m) => f.isFloat && f != .n4 && e == 0 && m != 0

/-- The zero code of a sign (R71: N8 has no negative zero). -/
def Fmt.zeroCode (f : Fmt) (neg : Bool) : Nat :=
  if neg && f != .n8 then 2 ^ (f.width - 1) else 0

/-- Whether a code is one of the zero codes of its format. -/
def Fmt.isZeroCode (f : Fmt) (c : Nat) : Bool := c == 0 || c == f.zeroCode true

/-- m * 2^e at or below m' * 2^e'. -/
def dyLe (m : Nat) (e : Int) (m' : Nat) (e' : Int) : Bool :=
  if e ≤ e' then decide (m ≤ m' * 2 ^ (e' - e).toNat) else decide (m * 2 ^ (e - e').toNat ≤ m')

/-- m * 2^e below m' * 2^e'. -/
def dyLt (m : Nat) (e : Int) (m' : Nat) (e' : Int) : Bool := !dyLe m' e' m e

/-- The code of magnitude n * 2^q and a sign; n * 2^q is a magnitude of the format's grid. -/
def Fmt.encodeMag (f : Fmt) (neg : Bool) (n : Nat) (q : Int) : Nat :=
  match f.layout with
  | (eb, mb, b) =>
    if n = 0 then f.zeroCode neg else
    -- bring n to mb + 1 bits where the exponent allows
    let top : Int := (Nat.log2 n : Int) + q
    let q' : Int := max top (1 - (b : Int)) - (mb : Int)
    let n' : Nat := if q' ≤ q then n * 2 ^ (q - q').toNat else n / 2 ^ (q' - q).toNat
    let e : Nat := if n' < 2 ^ mb then 0 else (q' + (mb : Int) + (b : Int)).toNat
    (if neg then 2 ^ (eb + mb) else 0) + e * 2 ^ mb + n' % 2 ^ mb

/-- The conversion flag word of R92. -/
abbrev CvFlags := BitVec 8

/-- FLUSH (R92). -/
def cvFLUSH : CvFlags := 0x01#8
/-- SAT (R92). -/
def cvSAT : CvFlags := 0x02#8
/-- NAN_LOST (R92). -/
def cvNANLOST : CvFlags := 0x04#8
/-- NAN_IN (R92). -/
def cvNANIN : CvFlags := 0x08#8
/-- INF_IN (R92). -/
def cvINFIN : CvFlags := 0x10#8
/-- SR_USED (R92). -/
def cvSRUSED : CvFlags := 0x20#8
/-- EXP_INEXACT (R92). -/
def cvEXPINEXACT : CvFlags := 0x40#8

/-- The grid step below magnitude m * 2^e in a format: the result is (n, q, rem, sh), the magnitude being
n * 2^q + rem * 2^(q - sh) with rem below 2^sh (the lo of R85 is n * 2^q, the hi (n + 1) * 2^q). -/
def Fmt.gridBelow (f : Fmt) (m : Nat) (e : Int) : Nat × Int × Nat × Nat :=
  match f.layout with
  | (_, mb, _) =>
    let q : Int := max ((Nat.log2 m : Int) + e) f.minExp - (mb : Int)
    if q ≤ e then (m * 2 ^ (e - q).toNat, q, 0, 0)
    else
      let sh := (q - e).toNat
      (m / 2 ^ sh, q, m % 2 ^ sh, sh)

/-- Whether the lower neighbour is the even one of R85. -/
def Fmt.loEven (f : Fmt) (n : Nat) (q : Int) : Bool :=
  if f = .n4 then (n == 0) || ((q + 7) % 2 == 0) else n % 2 == 0

/-- Rounding of R85 (draw none) or R86 (a 16-bit draw): the number of grid steps and the step's exponent. -/
def Fmt.roundMag (f : Fmt) (draw : Option Nat) (m : Nat) (e : Int) : Nat × Int :=
  match f.gridBelow m e with
  | (n, q, rem, sh) =>
    if rem = 0 then (n, q)
    else match draw with
      | none =>
        if 2 * rem < 2 ^ sh then (n, q)
        else if 2 ^ sh < 2 * rem then (n + 1, q)
        else if f.loEven n q then (n, q) else (n + 1, q)
      | some r => if 65536 ≤ rem * 65536 / 2 ^ sh + r then (n + 1, q) else (n, q)

/-- The narrowing conversion of R90: the code and the flags it sets. `draw` is the element's 16-bit draw where
CVC.RND is 1, none where it is 0. -/
def narrow (f : Fmt) (sub : Bool) (draw : Option Nat) (x : Val) : Nat × CvFlags :=
  let sr : CvFlags := if draw.isSome then cvSRUSED else 0
  match x with
  | .nan => match f.nanCode with
    | some c => (c, cvNANIN ||| sr)
    | none => (0, cvNANIN ||| cvNANLOST ||| sr)
  | .inf neg => match f.infCode neg with
    | some c => (c, cvINFIN ||| sr)
    | none => match f.maxFinite neg with
      | (m, e) => (f.encodeMag neg m e, cvINFIN ||| cvSAT ||| sr)
  | .fin neg m e =>
    if m = 0 then (f.zeroCode neg, sr)
    else if sub && f != .n4 && dyLt m e 1 f.minExp then (f.zeroCode neg, cvFLUSH ||| sr)
    else
      match f.roundMag draw m e, f.maxFinite neg with
      | (n, q), (mm, me) =>
        if dyLt mm me n q then (f.encodeMag neg mm me, cvSAT ||| sr)
        else (f.encodeMag neg n q, sr)

/-- Whether the narrowing of x into f rounds, saturates or loses it: its decoded code is not x. -/
def narrowInexact (f : Fmt) (x : Val) : Bool :=
  match x with
  | .fin _ m e => if m = 0 then false else
    match f.gridBelow m e, f.maxFinite false with
    | (n, q, rem, _), (mm, me) => rem != 0 || dyLt mm me n q
  | .inf neg => (f.infCode neg).isNone
  | .nan => f.nanCode.isNone

/-- IEEE 754 rounding into F32, to nearest even, overflow to infinity (R75). -/
def Val.toF32 (x : Val) : Nat :=
  match x with
  | .nan => 0x7FC00000
  | .inf neg => if neg then 0xFF800000 else 0x7F800000
  | .fin neg m e =>
    if m = 0 then Fmt.zeroCode .f32 neg
    else match Fmt.roundMag .f32 none m e with
      | (n, q) => if dyLt 16777215 104 n q then (if neg then 0xFF800000 else 0x7F800000)
        else Fmt.encodeMag .f32 neg n q

/-- The value of an F32 code. -/
def f32Val (c : Nat) : Val := Fmt.decode .f32 c

/-- Negation (exact). -/
def Val.neg : Val → Val
  | .nan => .nan
  | .inf s => .inf (!s)
  | .fin s m e => .fin (!s) m e

/-- Magnitude. -/
def Val.abs : Val → Val
  | .nan => .nan
  | .inf _ => .inf false
  | .fin _ m e => .fin false m e

/-- The sign of a value; a NaN has none. -/
def Val.isNeg : Val → Bool
  | .nan => false
  | .inf s => s
  | .fin s _ _ => s

/-- Whether the value is NaN. -/
def Val.isNan : Val → Bool
  | .nan => true
  | _ => false

/-- Whether the value is an infinity. -/
def Val.isInf : Val → Bool
  | .inf _ => true
  | _ => false

/-- Whether the value is a zero. -/
def Val.isZero : Val → Bool
  | .fin _ m _ => m == 0
  | _ => false

/-- Whether the value is finite. -/
def Val.isFin : Val → Bool
  | .fin _ _ _ => true
  | _ => false

/-- The signed numerator of a finite value at a common exponent. -/
def Val.int (x : Val) (e0 : Int) : Int :=
  match x with
  | .fin s m e => if s then -((m * 2 ^ (e - e0).toNat : Nat) : Int) else ((m * 2 ^ (e - e0).toNat : Nat) : Int)
  | _ => 0

/-- The exponent of a finite value, 0 otherwise. -/
def Val.exp : Val → Int
  | .fin _ _ e => e
  | _ => 0

/-- A finite value from a signed numerator and an exponent; zero is positive. -/
def Val.ofInt (n : Int) (e : Int) : Val := .fin (decide (n < 0)) n.natAbs e

/-- Exact addition; the sum of zeros of both signs, and an exact zero sum, is +0 as IEEE 754 to nearest has it. -/
def Val.add (x y : Val) : Val :=
  match x, y with
  | .nan, _ => .nan
  | _, .nan => .nan
  | .inf a, .inf b => if a = b then .inf a else .nan
  | .inf a, _ => .inf a
  | _, .inf b => .inf b
  | .fin sx mx ex, .fin sy my ey =>
    if mx = 0 ∧ my = 0 then .fin (sx && sy) 0 0
    else
      let e0 := min ex ey
      .ofInt ((Val.fin sx mx ex).int e0 + (Val.fin sy my ey).int e0) e0

/-- Exact subtraction. -/
def Val.sub (x y : Val) : Val := x.add y.neg

/-- Exact multiplication; 0 times infinity is NaN. -/
def Val.mul (x y : Val) : Val :=
  match x, y with
  | .nan, _ => .nan
  | _, .nan => .nan
  | .inf a, y => if y.isZero then .nan else .inf (a != y.isNeg)
  | x, .inf b => if x.isZero then .nan else .inf (x.isNeg != b)
  | .fin sx mx ex, .fin sy my ey => .fin (sx != sy) (mx * my) (ex + ey)

/-- The value times 2^k. -/
def Val.scale (x : Val) (k : Int) : Val :=
  match x with
  | .fin s m e => .fin s m (e + k)
  | v => v

/-- Less than under R82 (false when either operand is NaN). -/
def Val.lt (x y : Val) : Bool :=
  match x, y with
  | .nan, _ => false
  | _, .nan => false
  | .inf a, .inf b => a && !b
  | .inf a, _ => a
  | _, .inf b => !b
  | .fin sx mx ex, .fin sy my ey =>
    let e0 := min ex ey
    decide ((Val.fin sx mx ex).int e0 < (Val.fin sy my ey).int e0)

/-- Equality under R82: -0 equals +0, NaN equals nothing. -/
def Val.eqv (x y : Val) : Bool := !x.isNan && !y.isNan && !x.lt y && !y.lt x

/-- Maximum of R83. -/
def Val.max (x y : Val) : Val :=
  if x.isNan then y else if y.isNan then x
  else if x.isZero && y.isZero then (if x.isNeg then y else x)
  else if x.lt y then y else x

/-- Minimum of R83: of +0 and -0 it is +0. -/
def Val.min (x y : Val) : Val :=
  if x.isNan then y else if y.isNan then x
  else if x.isZero && y.isZero then (if x.isNeg then y else x)
  else if y.lt x then y else x

/-- Bits of precision kept by a rounded quotient or root before its sticky bit: more than any destination format
needs, so that a following rounding is the rounding of the exact real value. -/
def stickyBits : Nat := 96

/-- The quotient x / y to `stickyBits` bits with a sticky last bit, so that rounding it once rounds the exact quotient (R75).
0/0 and inf/inf are NaN; a finite value over 0 is an infinity (IEEE 754). -/
def Val.div (x y : Val) : Val :=
  match x, y with
  | .nan, _ => .nan
  | _, .nan => .nan
  | .inf a, .inf _ => if a then .nan else .nan
  | .inf a, y => .inf (a != y.isNeg)
  | x, .inf b => .fin (x.isNeg != b) 0 0
  | .fin sx mx ex, .fin sy my ey =>
    if my = 0 then (if mx = 0 then .nan else .inf (sx != sy))
    else
      let k := stickyBits + Nat.log2 my
      let n := mx * 2 ^ k
      let q := n / my
      let st := if n % my = 0 then 0 else 1
      .fin (sx != sy) (2 * q + st) (ex - ey - (k : Int) - 1)

/-- The integer square root by Newton's iteration bounded by fuel. -/
def isqrtAux (n : Nat) : Nat → Nat → Nat
  | 0, x => x
  | fuel + 1, x =>
    let y := (x + n / x) / 2
    if y < x then isqrtAux n fuel y else x

/-- floor of the square root of n. -/
def isqrt (n : Nat) : Nat :=
  if n = 0 then 0 else isqrtAux n (Nat.log2 n + 2) (2 ^ (Nat.log2 n / 2 + 1))

/-- The square root with a sticky last bit, for one correct rounding (R75). Negative values give NaN, -0 gives -0. -/
def Val.sqrt (x : Val) : Val :=
  match x with
  | .nan => .nan
  | .inf s => if s then .nan else .inf false
  | .fin s m e =>
    if m = 0 then .fin s 0 0
    else if s then .nan
    else
      -- an even exponent, and enough bits
      let k := 2 * stickyBits
      let k' := if (e - (k : Int)) % 2 = 0 then k else k + 1
      let n := m * 2 ^ k'
      let r := isqrt n
      let st := if r * r = n then 0 else 1
      .fin false (2 * r + st) ((e - (k' : Int)) / 2 - 1)

/-- F32 addition (R75). -/
def f32Add (a b : Nat) : Nat := ((f32Val a).add (f32Val b)).toF32
/-- F32 subtraction (R75). -/
def f32Sub (a b : Nat) : Nat := ((f32Val a).sub (f32Val b)).toF32
/-- F32 multiplication (R75). -/
def f32Mul (a b : Nat) : Nat := ((f32Val a).mul (f32Val b)).toF32
/-- F32 division (R75). -/
def f32Div (a b : Nat) : Nat := ((f32Val a).div (f32Val b)).toF32
/-- F32 square root (R75). -/
def f32Sqrt (a : Nat) : Nat := (f32Val a).sqrt.toF32

/-- Narrowing into F32 under R90 with RND = 0 and SUB = 0: a finite overflow saturates. -/
def Val.satF32 (x : Val) : Nat := (narrow .f32 false none x).1

/-- One draw of R87: the next state of the lane and the 16-bit draw. -/
def draw (g : Nat) : Nat × Nat :=
  let g1 := g ^^^ (g * 8192 % 2 ^ 32)
  let g2 := g1 ^^^ (g1 / 131072)
  let g3 := g2 ^^^ (g2 * 32 % 2 ^ 32)
  (g3, g3 / 65536 % 65536)

/-- The random state of a lane at its start (R87). -/
def laneSeed (seed unit lane : Nat) : Nat :=
  let g := (seed ^^^ (unit * 256 % 2 ^ 32) ^^^ lane) % 2 ^ 32
  if g = 0 then 0x2545F491 else g

/-- The 16-bit unit number of R87: block kind, compute die, and tile or engine index. -/
def unitNo (kind die idx : Nat) : Nat := kind * 4096 + die * 1024 + idx

/-- The source value of an element under CVC.SUB (R84): a subnormal of its own format reads as a zero of its sign and sets FLUSH. -/
def Fmt.source (f : Fmt) (sub : Bool) (c : Nat) : Val × CvFlags :=
  if sub && f.isSubnormal c then (.fin (f.decode c).isNeg 0 0, cvFLUSH) else (f.decode c, 0)

/-- The pairs of R88: a conversion that is exact. -/
def exactInto (src dst : Fmt) : Bool :=
  match src, dst with
  | .n4, .n4 | .n4, .n6 | .n4, .n8 | .n4, .w8 | .n4, .w12 | .n4, .w16 | .n4, .f32 => true
  | .n6, .n6 | .n6, .w8 | .n6, .w12 | .n6, .w16 | .n6, .f32 => true
  | .n8, .n8 | .n8, .w12 | .n8, .w16 | .n8, .f32 => true
  | .w8, .w8 | .w8, .w12 | .w8, .w16 | .w8, .f32 => true
  | .w12, .w12 | .w12, .w16 | .w12, .f32 => true
  | .w16, .w16 | .w16, .f32 => true
  | .f32, .f32 => true
  | _, _ => false

/-- An exact conversion (R88): the same value in the destination, the destination's NaN and infinities, zeros with their sign
except into N8. -/
def exactConvert (dst : Fmt) (x : Val) : Nat := (narrow dst false none x).1

/-- The block size of a CVC's BLK field (R68): elements of a block, 0 for none. -/
def blkSize : Nat → Nat
  | 1 => 16 | 2 => 32 | 3 => 64 | _ => 0

/-- A conversion control word (R68), its fields. -/
structure Cvc where
  fmt : Nat
  blk : Nat
  rnd : Bool
  sub : Bool
  rsv : Nat
  deriving DecidableEq, Repr

/-- The fields of a 16-bit CVC (R68). -/
def Cvc.ofNat (w : Nat) : Cvc :=
  { fmt := w / 4096 % 16, blk := w / 1024 % 4, rnd := w / 512 % 2 == 1, sub := w / 256 % 2 == 1, rsv := w % 256 }

/-- A scaled code: value(c) times 2^(s - 127); scale 0xFF makes NaN (R76, R77). -/
def deq (f : Fmt) (c s : Nat) : Val := if s = 255 then .nan else (f.decode c).scale ((s : Int) - 127)

/-- An S8 adjustment clamped to 0 to 254 (R78). -/
def s8Clamp (s : Int) : Nat := (max 0 (min 254 s)).toNat

end Sys2Proof.Machine
end

