-- ==== Sys2Proof/Machine/RegName.lean ====
section
/-! DEFINITION. The names of the BAR0 registers of the spec's register tables, and their fields with bit positions. Structures in memory,
packets and replies (descriptors, bucket headers, TREFs ...) are not registers and are read by their own readers. -/

namespace Sys2Proof.Machine

/-- Every BAR0 register that a table of the spec names. -/
inductive RegName where
  /-- R58. -/
  | WEIR_COUNT
  /-- R58. -/
  | WEIR_LEVEL
  /-- R58. -/
  | WEIR_SIGNAL
  /-- R58. -/
  | WEIR_CTRL
  /-- R65. -/
  | FC_FRAME_NUM_LO
  /-- R65. -/
  | FC_FRAME_NUM_HI
  /-- R65. -/
  | FC_FRAME_LEN
  /-- R65. -/
  | FC_FRAME_LEN_AT_LO
  /-- R65. -/
  | FC_FRAME_LEN_AT_HI
  /-- R65. -/
  | FC_OVERRUN_COUNT
  /-- R65. -/
  | FC_OVERRUN_SRC
  /-- R65. -/
  | FC_OVERRUN_FRAME_LO
  /-- R65. -/
  | FC_OVERRUN_FRAME_HI
  /-- R65. -/
  | FC_CT_SEL
  /-- R65. -/
  | FC_CT_CMD
  /-- R65. -/
  | FC_CT_STATUS
  /-- R65. -/
  | FC_SYNC_CTRL
  /-- R65. -/
  | FC_SYNC_STATUS
  /-- R65. -/
  | FC_DET_STATUS
  /-- R104. -/
  | EX_PCS_CTRL
  /-- R104. -/
  | EX_PCS_SCALE
  /-- R104. -/
  | EX_PCS_TABLE
  /-- R123. -/
  | FA_STATUS
  /-- R123. -/
  | EX_CV_FLAGS
  /-- R123. -/
  | DU_CV_FLAGS
  /-- R123. -/
  | FA_ACTIVE
  /-- R151. -/
  | ACB_RGN_RANGE
  /-- R151. -/
  | ACB_RGN_CTRL
  /-- R151. -/
  | ACB_RGN_SLOT
  /-- R151. -/
  | ACB_RGN_DEST
  /-- R158. -/
  | RA_STATUS
  /-- R158. -/
  | RA_ACTIVE
  /-- R158. -/
  | DU_BWD_FLAGS
  /-- R158. -/
  | DU_ROW_STATUS
  /-- R182. -/
  | XZ_CV_FLAGS
  /-- R182. -/
  | ST_STATUS
  /-- R182. -/
  | ST_BLK_SAT
  /-- R182. -/
  | ST_BLK_ZERO
  /-- R182. -/
  | ST_SHADOW_CTRL
  /-- R182. -/
  | ST_SHADOW_THR
  /-- R182. -/
  | ST_SHADOW_CHECKED
  /-- R182. -/
  | ST_SHADOW_DISAGREE
  /-- R182. -/
  | ST_SHADOW_FIRST
  /-- R182. -/
  | ST_SHADOW_FRAME_LO
  /-- R182. -/
  | ST_SHADOW_FRAME_HI
  /-- R183. -/
  | GS_CTRL
  /-- R183. -/
  | GS_BASE
  /-- R183. -/
  | GS_OFS_ADDR_LO
  /-- R183. -/
  | GS_OFS_ADDR_HI
  /-- R183. -/
  | GS_FLAG_ADDR_LO
  /-- R183. -/
  | GS_FLAG_ADDR_HI
  /-- R183. -/
  | GS_POLICY
  /-- R183. -/
  | GS_BLOCKS
  /-- R184. -/
  | SC_REPLAY_CTRL
  /-- R184. -/
  | SC_REPLAY_STATUS
  /-- R184. -/
  | SC_REPLAY_COUNT
  /-- R209. -/
  | TS_ECC_CORR
  /-- R209. -/
  | TS_ECC_UNCORR
  /-- R209. -/
  | CE_STATUS
  /-- R209. -/
  | CE_CV_FLAGS
  /-- R210. -/
  | TD_IDX_CTRL
  /-- R210. -/
  | TD_IDX_COUNT
  /-- R210. -/
  | TD_IDX_FIRST
  /-- R210. -/
  | TD_IDX_POS
  /-- R210. -/
  | TD_IDX_VALUE_LO
  /-- R210. -/
  | TD_IDX_VALUE_HI
  /-- R210. -/
  | TD_IDX_FRAME_LO
  /-- R210. -/
  | TD_IDX_FRAME_HI
  /-- R210. -/
  | TD_DESC_USED
  /-- R241. -/
  | MT_QUOTA_HBM
  /-- R241. -/
  | MT_QUOTA_LP
  /-- R241. -/
  | MT_TIER_USED_HBM
  /-- R241. -/
  | MT_TIER_USED_LP
  /-- R241. -/
  | MT_MIG_CTRL
  /-- R241. -/
  | MT_ZEROING
  /-- R241. -/
  | MT_OBJ_COUNT
  /-- R241. -/
  | MT_MIG_ACTIVE
  /-- R241. -/
  | MT_TLB_MISS
  /-- R241. -/
  | MT_BAR2_STATUS
  /-- R241. -/
  | MT_NMR_STATUS
  /-- R242. -/
  | MT_ECC_CTRL
  /-- R242. -/
  | MT_ECC_CORR_HBM
  /-- R242. -/
  | MT_ECC_CORR_LP
  /-- R242. -/
  | MT_ECC_UNCORR
  /-- R242. -/
  | MT_ECC_FIRST
  /-- R242. -/
  | MT_ECC_OFS
  /-- R242. -/
  | MT_ECC_WHEN_LO
  /-- R242. -/
  | MT_ECC_WHEN_HI
  /-- R242. -/
  | MT_RETIRED
  /-- R242. -/
  | MT_THERM_STATUS
  /-- R242. -/
  | MT_BAR2_BASE_LO
  /-- R242. -/
  | MT_BAR2_BASE_HI
  /-- R273. -/
  | UE_GROUP_CTRL
  /-- R273. -/
  | UE_GROUP_LRX
  /-- R273. -/
  | UE_GROUP_LR
  /-- R273. -/
  | UE_GROUP_WD
  /-- R273. -/
  | UE_GROUP_BETA1
  /-- R273. -/
  | UE_GROUP_BETA2
  /-- R273. -/
  | UE_GROUP_EPS
  /-- R273. -/
  | UE_GROUP_GSCALE
  /-- R273. -/
  | UE_GROUP_B1POW
  /-- R273. -/
  | UE_GROUP_B2POW
  /-- R273. -/
  | UE_GROUP_BASE_LO
  /-- R273. -/
  | UE_GROUP_BASE_HI
  /-- R273. -/
  | UE_GROUP_COUNT_LO
  /-- R273. -/
  | UE_GROUP_COUNT_HI
  /-- R273. -/
  | UE_GROUP_STEPS
  /-- R276. -/
  | UE_RG_CTRL
  /-- R276. -/
  | UE_VOTE_CTRL
  /-- R276. -/
  | UE_VOTE_AT
  /-- R276. -/
  | UE_VOTE_TIMEOUTS
  /-- R276. -/
  | UE_VOTE_WORD
  /-- R276. -/
  | UE_VOTE_LOCAL
  /-- R276. -/
  | UE_VOTE_HOST
  /-- R276. -/
  | UE_VOTE_HOST_AT_LO
  /-- R276. -/
  | UE_VOTE_HOST_AT_HI
  /-- R276. -/
  | UE_VOTE_MISSING_LO
  /-- R276. -/
  | UE_VOTE_MISSING_HI
  /-- R276. -/
  | UE_CLIP_MAX
  /-- R276. -/
  | UE_GNORM
  /-- R276. -/
  | UE_CLIP_FACTOR
  /-- R276. -/
  | UE_BKT_STATUS
  /-- R276. -/
  | UE_BKT_FIRST_FAIL
  /-- R276. -/
  | UE_STATUS
  /-- R276. -/
  | UE_STEP_LO
  /-- R276. -/
  | UE_STEP_HI
  /-- R303. -/
  | CQ_ALERT_CTRL
  /-- R303. -/
  | CQ_ALERT_CAUSE
  /-- R304. -/
  | MQ_CTRL
  /-- R304. -/
  | MQ_TAIL
  /-- R304. -/
  | MQ_HEAD
  /-- R308. -/
  | HC_ID
  /-- R308. -/
  | HC_CONTRACT
  /-- R308. -/
  | HC_FEAT0
  /-- R308. -/
  | HC_TILES
  /-- R308. -/
  | HC_QUEUE_RANGE
  /-- R308. -/
  | HC_POLDER
  /-- R308. -/
  | HC_FRAME
  /-- R310. -/
  | CQ_CTRL
  /-- R310. -/
  | CQ_RING_LO
  /-- R310. -/
  | CQ_RING_HI
  /-- R310. -/
  | CQ_SIZES
  /-- R310. -/
  | CQ_CPL_LO
  /-- R310. -/
  | CQ_CPL_HI
  /-- R310. -/
  | CQ_TAIL
  /-- R310. -/
  | CQ_HEAD
  /-- R310. -/
  | CQ_CPL_HEAD
  /-- R310. -/
  | CQ_CPL_TAIL
  /-- R310. -/
  | CQ_STATE
  /-- R310. -/
  | CQ_CMD
  /-- R310. -/
  | CQ_SEQ
  /-- R310. -/
  | CQ_ERR_SEQ
  /-- R372. -/
  | ZL_CTRL
  /-- R372. -/
  | ZL_STATUS
  /-- R372. -/
  | ZL_PEER
  /-- R372. -/
  | ZL_FEC_CORR
  /-- R372. -/
  | ZL_CRC_ERR
  /-- R372. -/
  | ZL_RETRY
  /-- R372. -/
  | ZL_SKEW
  /-- R372. -/
  | ZL_PROTO_ERR
  /-- R372. -/
  | ZL_DROP
  /-- R372. -/
  | ZL_CREDIT
  /-- R372. -/
  | ZL_PEER_FRAME_LO
  /-- R372. -/
  | ZL_PEER_FRAME_HI
  /-- R373. -/
  | ZL_NODE
  /-- R373. -/
  | ZL_TOPO
  /-- R373. -/
  | ZL_RESV
  /-- R373. -/
  | ZL_SUBST
  /-- R373. -/
  | ZL_SUBST_AT_LO
  /-- R373. -/
  | ZL_SUBST_AT_HI
  /-- R373. -/
  | ZL_SUBST_STATUS
  /-- R373. -/
  | ZL_REJOIN
  /-- R373. -/
  | ZL_REJOIN_STATUS
  /-- R374. -/
  | ZL_ROUTE
  /-- R374. -/
  | ZL_RANK
  /-- R400. -/
  | MC_HANG_CTRL
  /-- R400. -/
  | MC_HANG_FIRST
  /-- R400. -/
  | MC_HANG_FRAME_LO
  /-- R400. -/
  | MC_HANG_FRAME_HI
  /-- R400. -/
  | MC_HANG_COUNT
  /-- R400. -/
  | MC_CLK_STATUS
  /-- R400. -/
  | MC_CDC_STATUS
  /-- R400. -/
  | MC_RESET_STATUS
  /-- R400. -/
  | MC_SNAP_STATUS
  /-- R400. -/
  | MC_START_STATUS
  /-- R400. -/
  | MC_LEDGER_CTRL
  /-- R400. -/
  | MC_TILE_FAILED_LO
  /-- R400. -/
  | MC_TILE_FAILED_HI
  /-- R400. -/
  | MC_SPARE_CTRL
  /-- R400. -/
  | MC_TILE_REMAP
  /-- R400. -/
  | ME_CKPT_RESTORE
  /-- R400. -/
  | ME_CKPT_STATUS
  /-- R414. -/
  | BC_CTRL
  /-- R414. -/
  | BC_FIRST_FAIL
  /-- R414. -/
  | BC_FAIL_ADDR
  /-- R414. -/
  | BC_FAIL_FRAME_LO
  /-- R414. -/
  | BC_FAIL_FRAME_HI
  /-- R414. -/
  | BC_SLICES_DONE
  /-- R414. -/
  | BC_SLICES_FAILED
  /-- R414. -/
  | BC_STARVED
  /-- R414. -/
  | BC_TILE_STATUS
  /-- R434. -/
  | SP_LAYOUT
  /-- R434. -/
  | SP_DEBUG
  /-- R434. -/
  | SP_FUNC_BIND
  /-- R434. -/
  | SP_CONF
  /-- R434. -/
  | SP_DIKE_DENIED
  /-- R434. -/
  | SP_IMPORT_STATUS
  /-- R434. -/
  | SP_SEAL_STATUS
  /-- R453. -/
  | OB_BANK_CTRL
  /-- R453. -/
  | OB_BANK_STATUS
  /-- R453. -/
  | OB_SMP_SEQ
  /-- R453. -/
  | OB_SMP_FRAME_LO
  /-- R453. -/
  | OB_SMP_FRAME_HI
  /-- R454. -/
  | OB_TRACE_STATUS
  /-- R454. -/
  | OB_TRACE_WPTR
  /-- R454. -/
  | OB_TRACE_TRIG_IDX
  /-- R454. -/
  | OB_TRACE_TRIG_FRAME_LO
  /-- R454. -/
  | OB_TRACE_TRIG_FRAME_HI
  /-- R454. -/
  | OB_TRACE_DROP
  /-- R454. -/
  | OB_TRACE_WRAPS
  /-- R454. -/
  | OB_BRK_STATUS
  /-- R468. -/
  | MC_PWR_CAP
  /-- R468. -/
  | MC_PWR_STATUS
  /-- R468. -/
  | MC_DIE_CTRL
  /-- R468. -/
  | MC_TH_STATUS
  /-- R468. -/
  | MC_DIE_STEP
  /-- R400. -/
  | MC_LEDGER
  deriving DecidableEq, Repr

/-- The place of a register name in the enumeration, for the key of the register store. -/
def RegName.num (r : RegName) : Nat := r.ctorIdx

/-- A field of a register: bits hi down to lo (R12). -/
structure Fld where
  reg : RegName
  hi : Nat
  lo : Nat
  deriving DecidableEq, Repr

namespace Fld

/-- WEIR_COUNT.COUNT (RO; R58). -/
def WEIR_COUNT_COUNT : Fld := ⟨.WEIR_COUNT, 31, 0⟩
/-- WEIR_LEVEL.LEVEL (RW, TX; R58). -/
def WEIR_LEVEL_LEVEL : Fld := ⟨.WEIR_LEVEL, 31, 0⟩
/-- WEIR_SIGNAL.ADD (WO; R58). -/
def WEIR_SIGNAL_ADD : Fld := ⟨.WEIR_SIGNAL, 31, 0⟩
/-- WEIR_CTRL.POLDER (RW, TX; R58). -/
def WEIR_CTRL_POLDER : Fld := ⟨.WEIR_CTRL, 7, 6⟩
/-- WEIR_CTRL.OVF (W1C; R58). -/
def WEIR_CTRL_OVF : Fld := ⟨.WEIR_CTRL, 2, 2⟩
/-- WEIR_CTRL.CLEAR (WO; R58). -/
def WEIR_CTRL_CLEAR : Fld := ⟨.WEIR_CTRL, 1, 1⟩
/-- WEIR_CTRL.MODE (RW, TX; R58). -/
def WEIR_CTRL_MODE : Fld := ⟨.WEIR_CTRL, 0, 0⟩
/-- FC_FRAME_NUM_LO.NUM (RO; R65). -/
def FC_FRAME_NUM_LO_NUM : Fld := ⟨.FC_FRAME_NUM_LO, 31, 0⟩
/-- FC_FRAME_NUM_HI.NUM (RO; R65). -/
def FC_FRAME_NUM_HI_NUM : Fld := ⟨.FC_FRAME_NUM_HI, 31, 0⟩
/-- FC_FRAME_LEN.PENDING_LOG2 (RW, TX; R65). -/
def FC_FRAME_LEN_PENDING_LOG2 : Fld := ⟨.FC_FRAME_LEN, 20, 16⟩
/-- FC_FRAME_LEN.LOG2 (RO; R65). -/
def FC_FRAME_LEN_LOG2 : Fld := ⟨.FC_FRAME_LEN, 4, 0⟩
/-- FC_FRAME_LEN_AT_LO.AT (RW, TX; R65). -/
def FC_FRAME_LEN_AT_LO_AT : Fld := ⟨.FC_FRAME_LEN_AT_LO, 31, 0⟩
/-- FC_FRAME_LEN_AT_HI.AT (RW, TX; R65). -/
def FC_FRAME_LEN_AT_HI_AT : Fld := ⟨.FC_FRAME_LEN_AT_HI, 31, 0⟩
/-- FC_OVERRUN_COUNT.COUNT (RO; R65). -/
def FC_OVERRUN_COUNT_COUNT : Fld := ⟨.FC_OVERRUN_COUNT, 31, 0⟩
/-- FC_OVERRUN_SRC.VALID (W1C; R65). -/
def FC_OVERRUN_SRC_VALID : Fld := ⟨.FC_OVERRUN_SRC, 31, 31⟩
/-- FC_OVERRUN_SRC.DIE (RO; R65). -/
def FC_OVERRUN_SRC_DIE : Fld := ⟨.FC_OVERRUN_SRC, 25, 24⟩
/-- FC_OVERRUN_SRC.KIND (RO; R65). -/
def FC_OVERRUN_SRC_KIND : Fld := ⟨.FC_OVERRUN_SRC, 23, 20⟩
/-- FC_OVERRUN_SRC.UNIT (RO; R65). -/
def FC_OVERRUN_SRC_UNIT : Fld := ⟨.FC_OVERRUN_SRC, 15, 0⟩
/-- FC_OVERRUN_FRAME_LO.FRAME (RO; R65). -/
def FC_OVERRUN_FRAME_LO_FRAME : Fld := ⟨.FC_OVERRUN_FRAME_LO, 31, 0⟩
/-- FC_OVERRUN_FRAME_HI.FRAME (RO; R65). -/
def FC_OVERRUN_FRAME_HI_FRAME : Fld := ⟨.FC_OVERRUN_FRAME_HI, 31, 0⟩
/-- FC_CT_SEL.SLOT (RW; R65). -/
def FC_CT_SEL_SLOT : Fld := ⟨.FC_CT_SEL, 3, 0⟩
/-- FC_CT_CMD.SLOT (WO; R65). -/
def FC_CT_CMD_SLOT : Fld := ⟨.FC_CT_CMD, 11, 8⟩
/-- FC_CT_CMD.OP (WO; R65). -/
def FC_CT_CMD_OP : Fld := ⟨.FC_CT_CMD, 1, 0⟩
/-- FC_CT_STATUS.OPEN (RO; R65). -/
def FC_CT_STATUS_OPEN : Fld := ⟨.FC_CT_STATUS, 31, 16⟩
/-- FC_CT_STATUS.BARE_WRITE (W1C; R65). -/
def FC_CT_STATUS_BARE_WRITE : Fld := ⟨.FC_CT_STATUS, 15, 15⟩
/-- FC_CT_STATUS.WRITES (RO; R65). -/
def FC_CT_STATUS_WRITES : Fld := ⟨.FC_CT_STATUS, 14, 8⟩
/-- FC_CT_STATUS.LAST_ERR (RO; R65). -/
def FC_CT_STATUS_LAST_ERR : Fld := ⟨.FC_CT_STATUS, 7, 0⟩
/-- FC_SYNC_CTRL.TIMEOUT (RW, TX; R65). -/
def FC_SYNC_CTRL_TIMEOUT : Fld := ⟨.FC_SYNC_CTRL, 15, 8⟩
/-- FC_SYNC_CTRL.ALIGN_EN (RW, TX; R65). -/
def FC_SYNC_CTRL_ALIGN_EN : Fld := ⟨.FC_SYNC_CTRL, 0, 0⟩
/-- FC_SYNC_STATUS.SKEW_COUNT (RO; R65). -/
def FC_SYNC_STATUS_SKEW_COUNT : Fld := ⟨.FC_SYNC_STATUS, 31, 16⟩
/-- FC_SYNC_STATUS.LOST (W1C; R65). -/
def FC_SYNC_STATUS_LOST : Fld := ⟨.FC_SYNC_STATUS, 1, 1⟩
/-- FC_SYNC_STATUS.LOCKED (RO; R65). -/
def FC_SYNC_STATUS_LOCKED : Fld := ⟨.FC_SYNC_STATUS, 0, 0⟩
/-- FC_DET_STATUS.HOST_MID_STEP (W1C; R65). -/
def FC_DET_STATUS_HOST_MID_STEP : Fld := ⟨.FC_DET_STATUS, 3, 3⟩
/-- FC_DET_STATUS.WRITE_CONFLICT (W1C; R65). -/
def FC_DET_STATUS_WRITE_CONFLICT : Fld := ⟨.FC_DET_STATUS, 2, 2⟩
/-- FC_DET_STATUS.ACC_INEXACT (W1C; R65). -/
def FC_DET_STATUS_ACC_INEXACT : Fld := ⟨.FC_DET_STATUS, 1, 1⟩
/-- FC_DET_STATUS.SR_USED (W1C; R65). -/
def FC_DET_STATUS_SR_USED : Fld := ⟨.FC_DET_STATUS, 0, 0⟩
/-- EX_PCS_CTRL.MODE (RW, TX; R104). -/
def EX_PCS_CTRL_MODE : Fld := ⟨.EX_PCS_CTRL, 31, 30⟩
/-- EX_PCS_CTRL.WIDTH (RW, TX; R104). -/
def EX_PCS_CTRL_WIDTH : Fld := ⟨.EX_PCS_CTRL, 25, 24⟩
/-- EX_PCS_CTRL.GRID (RO; R104). -/
def EX_PCS_CTRL_GRID : Fld := ⟨.EX_PCS_CTRL, 23, 16⟩
/-- EX_PCS_CTRL.ZERO (RW, TX; R104). -/
def EX_PCS_CTRL_ZERO : Fld := ⟨.EX_PCS_CTRL, 7, 0⟩
/-- EX_PCS_SCALE.K (RW, TX; R104). -/
def EX_PCS_SCALE_K : Fld := ⟨.EX_PCS_SCALE, 15, 0⟩
/-- EX_PCS_TABLE.ENTRY_HI (RW, TX; R104). -/
def EX_PCS_TABLE_ENTRY_HI : Fld := ⟨.EX_PCS_TABLE, 31, 16⟩
/-- EX_PCS_TABLE.ENTRY_LO (RW, TX; R104). -/
def EX_PCS_TABLE_ENTRY_LO : Fld := ⟨.EX_PCS_TABLE, 15, 0⟩
/-- FA_STATUS.SPECIAL (W1C; R123). -/
def FA_STATUS_SPECIAL : Fld := ⟨.FA_STATUS, 3, 3⟩
/-- FA_STATUS.WIN_LOW (W1C; R123). -/
def FA_STATUS_WIN_LOW : Fld := ⟨.FA_STATUS, 2, 2⟩
/-- FA_STATUS.WIN_HIGH (W1C; R123). -/
def FA_STATUS_WIN_HIGH : Fld := ⟨.FA_STATUS, 1, 1⟩
/-- FA_STATUS.ACC_INEXACT (W1C; R123). -/
def FA_STATUS_ACC_INEXACT : Fld := ⟨.FA_STATUS, 0, 0⟩
/-- EX_CV_FLAGS.FLAGS (W1C; R123). -/
def EX_CV_FLAGS_FLAGS : Fld := ⟨.EX_CV_FLAGS, 7, 0⟩
/-- DU_CV_FLAGS.FLAGS (W1C; R123). -/
def DU_CV_FLAGS_FLAGS : Fld := ⟨.DU_CV_FLAGS, 7, 0⟩
/-- FA_ACTIVE.PCS_BANK (RO; R123). -/
def FA_ACTIVE_PCS_BANK : Fld := ⟨.FA_ACTIVE, 8, 8⟩
/-- FA_ACTIVE.BUSY (RO; R123). -/
def FA_ACTIVE_BUSY : Fld := ⟨.FA_ACTIVE, 0, 0⟩
/-- ACB_RGN_RANGE.LEN (RW, TX; R151). -/
def ACB_RGN_RANGE_LEN : Fld := ⟨.ACB_RGN_RANGE, 25, 16⟩
/-- ACB_RGN_RANGE.BASE (RW, TX; R151). -/
def ACB_RGN_RANGE_BASE : Fld := ⟨.ACB_RGN_RANGE, 8, 0⟩
/-- ACB_RGN_CTRL.USES (RW, TX; R151). -/
def ACB_RGN_CTRL_USES : Fld := ⟨.ACB_RGN_CTRL, 31, 24⟩
/-- ACB_RGN_CTRL.DONE (RO; R151). -/
def ACB_RGN_CTRL_DONE : Fld := ⟨.ACB_RGN_CTRL, 23, 16⟩
/-- ACB_RGN_CTRL.STATE (RO; R151). -/
def ACB_RGN_CTRL_STATE : Fld := ⟨.ACB_RGN_CTRL, 9, 8⟩
/-- ACB_RGN_CTRL.STEP (RW, TX; R151). -/
def ACB_RGN_CTRL_STEP : Fld := ⟨.ACB_RGN_CTRL, 0, 0⟩
/-- ACB_RGN_SLOT.SLOT (RW, TX; R151). -/
def ACB_RGN_SLOT_SLOT : Fld := ⟨.ACB_RGN_SLOT, 11, 0⟩
/-- ACB_RGN_DEST.DEST (RW, TX; R151). -/
def ACB_RGN_DEST_DEST : Fld := ⟨.ACB_RGN_DEST, 21, 0⟩
/-- RA_STATUS.SPECIAL (W1C; R158). -/
def RA_STATUS_SPECIAL : Fld := ⟨.RA_STATUS, 2, 2⟩
/-- RA_STATUS.ACC_OVF (W1C; R158). -/
def RA_STATUS_ACC_OVF : Fld := ⟨.RA_STATUS, 1, 1⟩
/-- RA_STATUS.GROUP_ROUNDED (W1C; R158). -/
def RA_STATUS_GROUP_ROUNDED : Fld := ⟨.RA_STATUS, 0, 0⟩
/-- RA_ACTIVE.BANK (RO; R158). -/
def RA_ACTIVE_BANK : Fld := ⟨.RA_ACTIVE, 9, 9⟩
/-- RA_ACTIVE.RATE2 (RO; R158). -/
def RA_ACTIVE_RATE2 : Fld := ⟨.RA_ACTIVE, 8, 8⟩
/-- RA_ACTIVE.BUSY (RO; R158). -/
def RA_ACTIVE_BUSY : Fld := ⟨.RA_ACTIVE, 0, 0⟩
/-- DU_BWD_FLAGS.FLAGS (W1C; R158). -/
def DU_BWD_FLAGS_FLAGS : Fld := ⟨.DU_BWD_FLAGS, 7, 0⟩
/-- DU_ROW_STATUS.SPECIAL (W1C; R158). -/
def DU_ROW_STATUS_SPECIAL : Fld := ⟨.DU_ROW_STATUS, 3, 3⟩
/-- DU_ROW_STATUS.WIN_LOW (W1C; R158). -/
def DU_ROW_STATUS_WIN_LOW : Fld := ⟨.DU_ROW_STATUS, 2, 2⟩
/-- DU_ROW_STATUS.WIN_HIGH (W1C; R158). -/
def DU_ROW_STATUS_WIN_HIGH : Fld := ⟨.DU_ROW_STATUS, 1, 1⟩
/-- DU_ROW_STATUS.ACC_INEXACT (W1C; R158). -/
def DU_ROW_STATUS_ACC_INEXACT : Fld := ⟨.DU_ROW_STATUS, 0, 0⟩
/-- XZ_CV_FLAGS.FLAGS (W1C; R182). -/
def XZ_CV_FLAGS_FLAGS : Fld := ⟨.XZ_CV_FLAGS, 7, 0⟩
/-- ST_STATUS.CLR_COUNTS (WO; R182). -/
def ST_STATUS_CLR_COUNTS : Fld := ⟨.ST_STATUS, 31, 31⟩
/-- ST_STATUS.HIST_DROP (W1C; R182). -/
def ST_STATUS_HIST_DROP : Fld := ⟨.ST_STATUS, 5, 5⟩
/-- ST_STATUS.SHADOW_SKIPPED (W1C; R182). -/
def ST_STATUS_SHADOW_SKIPPED : Fld := ⟨.ST_STATUS, 4, 4⟩
/-- ST_STATUS.SHADOW_DISAGREE (W1C; R182). -/
def ST_STATUS_SHADOW_DISAGREE : Fld := ⟨.ST_STATUS, 3, 3⟩
/-- ST_STATUS.SCALE_CLAMP_LO (W1C; R182). -/
def ST_STATUS_SCALE_CLAMP_LO : Fld := ⟨.ST_STATUS, 2, 2⟩
/-- ST_STATUS.SCALE_CLAMP_HI (W1C; R182). -/
def ST_STATUS_SCALE_CLAMP_HI : Fld := ⟨.ST_STATUS, 1, 1⟩
/-- ST_STATUS.BUSY (RO; R182). -/
def ST_STATUS_BUSY : Fld := ⟨.ST_STATUS, 0, 0⟩
/-- ST_BLK_SAT.COUNT (RO; R182). -/
def ST_BLK_SAT_COUNT : Fld := ⟨.ST_BLK_SAT, 31, 0⟩
/-- ST_BLK_ZERO.COUNT (RO; R182). -/
def ST_BLK_ZERO_COUNT : Fld := ⟨.ST_BLK_ZERO, 31, 0⟩
/-- ST_SHADOW_CTRL.PERIOD_LOG2 (RW, TX; R182). -/
def ST_SHADOW_CTRL_PERIOD_LOG2 : Fld := ⟨.ST_SHADOW_CTRL, 3, 0⟩
/-- ST_SHADOW_THR.THR_WIDE (RW, TX; R182). -/
def ST_SHADOW_THR_THR_WIDE : Fld := ⟨.ST_SHADOW_THR, 28, 24⟩
/-- ST_SHADOW_THR.THR_N8 (RW, TX; R182). -/
def ST_SHADOW_THR_THR_N8 : Fld := ⟨.ST_SHADOW_THR, 20, 16⟩
/-- ST_SHADOW_THR.THR_N6 (RW, TX; R182). -/
def ST_SHADOW_THR_THR_N6 : Fld := ⟨.ST_SHADOW_THR, 12, 8⟩
/-- ST_SHADOW_THR.THR_N4 (RW, TX; R182). -/
def ST_SHADOW_THR_THR_N4 : Fld := ⟨.ST_SHADOW_THR, 4, 0⟩
/-- ST_SHADOW_CHECKED.COUNT (RO; R182). -/
def ST_SHADOW_CHECKED_COUNT : Fld := ⟨.ST_SHADOW_CHECKED, 31, 0⟩
/-- ST_SHADOW_DISAGREE.COUNT (RO; R182). -/
def ST_SHADOW_DISAGREE_COUNT : Fld := ⟨.ST_SHADOW_DISAGREE, 31, 0⟩
/-- ST_SHADOW_FIRST.VALID (W1C; R182). -/
def ST_SHADOW_FIRST_VALID : Fld := ⟨.ST_SHADOW_FIRST, 31, 31⟩
/-- ST_SHADOW_FIRST.TILE_SEQ (RO; R182). -/
def ST_SHADOW_FIRST_TILE_SEQ : Fld := ⟨.ST_SHADOW_FIRST, 23, 0⟩
/-- ST_SHADOW_FRAME_LO.FRAME (RO; R182). -/
def ST_SHADOW_FRAME_LO_FRAME : Fld := ⟨.ST_SHADOW_FRAME_LO, 31, 0⟩
/-- ST_SHADOW_FRAME_HI.FRAME (RO; R182). -/
def ST_SHADOW_FRAME_HI_FRAME : Fld := ⟨.ST_SHADOW_FRAME_HI, 31, 0⟩
/-- GS_CTRL.ENABLE (RW, TX; R183). -/
def GS_CTRL_ENABLE : Fld := ⟨.GS_CTRL, 31, 31⟩
/-- GS_CTRL.MODE (RW, TX; R183). -/
def GS_CTRL_MODE : Fld := ⟨.GS_CTRL, 30, 30⟩
/-- GS_CTRL.GUARDED (RW, TX; R183). -/
def GS_CTRL_GUARDED : Fld := ⟨.GS_CTRL, 29, 29⟩
/-- GS_CTRL.POLDER (RW, TX; R183). -/
def GS_CTRL_POLDER : Fld := ⟨.GS_CTRL, 27, 26⟩
/-- GS_CTRL.FMT_MAX (RW, TX; R183). -/
def GS_CTRL_FMT_MAX : Fld := ⟨.GS_CTRL, 23, 20⟩
/-- GS_CTRL.FMT_MIN (RW, TX; R183). -/
def GS_CTRL_FMT_MIN : Fld := ⟨.GS_CTRL, 19, 16⟩
/-- GS_CTRL.FMT (RW, TX; R183). -/
def GS_CTRL_FMT : Fld := ⟨.GS_CTRL, 15, 12⟩
/-- GS_CTRL.BLK (RW, TX; R183). -/
def GS_CTRL_BLK : Fld := ⟨.GS_CTRL, 11, 10⟩
/-- GS_CTRL.RND (RW, TX; R183). -/
def GS_CTRL_RND : Fld := ⟨.GS_CTRL, 9, 9⟩
/-- GS_CTRL.SUB (RW, TX; R183). -/
def GS_CTRL_SUB : Fld := ⟨.GS_CTRL, 8, 8⟩
/-- GS_BASE.NARROW_RUN (RO; R183). -/
def GS_BASE_NARROW_RUN : Fld := ⟨.GS_BASE, 31, 24⟩
/-- GS_BASE.LAST_DELTA (RO; R183). -/
def GS_BASE_LAST_DELTA : Fld := ⟨.GS_BASE, 23, 16⟩
/-- GS_BASE.CLAMPED (W1C; R183). -/
def GS_BASE_CLAMPED : Fld := ⟨.GS_BASE, 8, 8⟩
/-- GS_BASE.BASE (RW, TX; R183). -/
def GS_BASE_BASE : Fld := ⟨.GS_BASE, 7, 0⟩
/-- GS_OFS_ADDR_LO.ADDR (RW, TX; R183). -/
def GS_OFS_ADDR_LO_ADDR : Fld := ⟨.GS_OFS_ADDR_LO, 31, 0⟩
/-- GS_OFS_ADDR_HI.ADDR (RW, TX; R183). -/
def GS_OFS_ADDR_HI_ADDR : Fld := ⟨.GS_OFS_ADDR_HI, 15, 0⟩
/-- GS_FLAG_ADDR_LO.ADDR (RW, TX; R183). -/
def GS_FLAG_ADDR_LO_ADDR : Fld := ⟨.GS_FLAG_ADDR_LO, 31, 0⟩
/-- GS_FLAG_ADDR_HI.ADDR (RW, TX; R183). -/
def GS_FLAG_ADDR_HI_ADDR : Fld := ⟨.GS_FLAG_ADDR_HI, 15, 0⟩
/-- GS_POLICY.MARGIN (RW, TX; R183). -/
def GS_POLICY_MARGIN : Fld := ⟨.GS_POLICY, 31, 28⟩
/-- GS_POLICY.OUT_LOG2 (RW, TX; R183). -/
def GS_POLICY_OUT_LOG2 : Fld := ⟨.GS_POLICY, 27, 24⟩
/-- GS_POLICY.NARROW_GAP (RW, TX; R183). -/
def GS_POLICY_NARROW_GAP : Fld := ⟨.GS_POLICY, 23, 16⟩
/-- GS_POLICY.HYST (RW, TX; R183). -/
def GS_POLICY_HYST : Fld := ⟨.GS_POLICY, 7, 4⟩
/-- GS_BLOCKS.BLOCKS (RW, TX; R183). -/
def GS_BLOCKS_BLOCKS : Fld := ⟨.GS_BLOCKS, 23, 0⟩
/-- SC_REPLAY_CTRL.FRAC_LOG2 (RW, TX; R184). -/
def SC_REPLAY_CTRL_FRAC_LOG2 : Fld := ⟨.SC_REPLAY_CTRL, 27, 24⟩
/-- SC_REPLAY_CTRL.REPLAY_MAX (RW, TX; R184). -/
def SC_REPLAY_CTRL_REPLAY_MAX : Fld := ⟨.SC_REPLAY_CTRL, 18, 16⟩
/-- SC_REPLAY_CTRL.SHADOW_REPLAY (RW, TX; R184). -/
def SC_REPLAY_CTRL_SHADOW_REPLAY : Fld := ⟨.SC_REPLAY_CTRL, 8, 8⟩
/-- SC_REPLAY_CTRL.ENABLE (RW, TX; R184). -/
def SC_REPLAY_CTRL_ENABLE : Fld := ⟨.SC_REPLAY_CTRL, 0, 0⟩
/-- SC_REPLAY_STATUS.ATTEMPTS (RO; R184). -/
def SC_REPLAY_STATUS_ATTEMPTS : Fld := ⟨.SC_REPLAY_STATUS, 31, 24⟩
/-- SC_REPLAY_STATUS.SLOT (RO; R184). -/
def SC_REPLAY_STATUS_SLOT : Fld := ⟨.SC_REPLAY_STATUS, 23, 12⟩
/-- SC_REPLAY_STATUS.LIMIT (W1C; R184). -/
def SC_REPLAY_STATUS_LIMIT : Fld := ⟨.SC_REPLAY_STATUS, 4, 4⟩
/-- SC_REPLAY_STATUS.CAUSE_SHADOW (W1C; R184). -/
def SC_REPLAY_STATUS_CAUSE_SHADOW : Fld := ⟨.SC_REPLAY_STATUS, 3, 3⟩
/-- SC_REPLAY_STATUS.CAUSE_GUARD (W1C; R184). -/
def SC_REPLAY_STATUS_CAUSE_GUARD : Fld := ⟨.SC_REPLAY_STATUS, 2, 2⟩
/-- SC_REPLAY_STATUS.CAUSE_FRACTION (W1C; R184). -/
def SC_REPLAY_STATUS_CAUSE_FRACTION : Fld := ⟨.SC_REPLAY_STATUS, 1, 1⟩
/-- SC_REPLAY_COUNT.COUNT (RO; R184). -/
def SC_REPLAY_COUNT_COUNT : Fld := ⟨.SC_REPLAY_COUNT, 31, 0⟩
/-- TS_ECC_CORR.COUNT (RO; R209). -/
def TS_ECC_CORR_COUNT : Fld := ⟨.TS_ECC_CORR, 31, 0⟩
/-- TS_ECC_UNCORR.COUNT (RO; R209). -/
def TS_ECC_UNCORR_COUNT : Fld := ⟨.TS_ECC_UNCORR, 31, 0⟩
/-- CE_STATUS.XFORM (RO; R209). -/
def CE_STATUS_XFORM : Fld := ⟨.CE_STATUS, 3, 1⟩
/-- CE_STATUS.BUSY (RO; R209). -/
def CE_STATUS_BUSY : Fld := ⟨.CE_STATUS, 0, 0⟩
/-- CE_CV_FLAGS.FLAGS (W1C; R209). -/
def CE_CV_FLAGS_FLAGS : Fld := ⟨.CE_CV_FLAGS, 7, 0⟩
/-- TD_IDX_CTRL.CLR (WO; R210). -/
def TD_IDX_CTRL_CLR : Fld := ⟨.TD_IDX_CTRL, 31, 31⟩
/-- TD_IDX_CTRL.VOTE_SKIP (RW, TX; R210). -/
def TD_IDX_CTRL_VOTE_SKIP : Fld := ⟨.TD_IDX_CTRL, 0, 0⟩
/-- TD_IDX_COUNT.COUNT (RO; R210). -/
def TD_IDX_COUNT_COUNT : Fld := ⟨.TD_IDX_COUNT, 31, 0⟩
/-- TD_IDX_FIRST.VALID (W1C; R210). -/
def TD_IDX_FIRST_VALID : Fld := ⟨.TD_IDX_FIRST, 31, 31⟩
/-- TD_IDX_FIRST.DIE (RO; R210). -/
def TD_IDX_FIRST_DIE : Fld := ⟨.TD_IDX_FIRST, 27, 26⟩
/-- TD_IDX_FIRST.XFORM (RO; R210). -/
def TD_IDX_FIRST_XFORM : Fld := ⟨.TD_IDX_FIRST, 18, 16⟩
/-- TD_IDX_FIRST.HANDLE (RO; R210). -/
def TD_IDX_FIRST_HANDLE : Fld := ⟨.TD_IDX_FIRST, 15, 0⟩
/-- TD_IDX_POS.POS (RO; R210). -/
def TD_IDX_POS_POS : Fld := ⟨.TD_IDX_POS, 31, 0⟩
/-- TD_IDX_VALUE_LO.VALUE (RO; R210). -/
def TD_IDX_VALUE_LO_VALUE : Fld := ⟨.TD_IDX_VALUE_LO, 31, 0⟩
/-- TD_IDX_VALUE_HI.VALUE (RO; R210). -/
def TD_IDX_VALUE_HI_VALUE : Fld := ⟨.TD_IDX_VALUE_HI, 31, 0⟩
/-- TD_IDX_FRAME_LO.FRAME (RO; R210). -/
def TD_IDX_FRAME_LO_FRAME : Fld := ⟨.TD_IDX_FRAME_LO, 31, 0⟩
/-- TD_IDX_FRAME_HI.FRAME (RO; R210). -/
def TD_IDX_FRAME_HI_FRAME : Fld := ⟨.TD_IDX_FRAME_HI, 31, 0⟩
/-- TD_DESC_USED.COUNT (RO; R210). -/
def TD_DESC_USED_COUNT : Fld := ⟨.TD_DESC_USED, 16, 0⟩
/-- MT_QUOTA_HBM.PAGES (RO; R241). -/
def MT_QUOTA_HBM_PAGES : Fld := ⟨.MT_QUOTA_HBM, 31, 0⟩
/-- MT_QUOTA_LP.PAGES (RO; R241). -/
def MT_QUOTA_LP_PAGES : Fld := ⟨.MT_QUOTA_LP, 31, 0⟩
/-- MT_TIER_USED_HBM.PAGES (RO; R241). -/
def MT_TIER_USED_HBM_PAGES : Fld := ⟨.MT_TIER_USED_HBM, 31, 0⟩
/-- MT_TIER_USED_LP.PAGES (RO; R241). -/
def MT_TIER_USED_LP_PAGES : Fld := ⟨.MT_TIER_USED_LP, 31, 0⟩
/-- MT_MIG_CTRL.RESERVE (RW, TX; R241). -/
def MT_MIG_CTRL_RESERVE : Fld := ⟨.MT_MIG_CTRL, 5, 0⟩
/-- MT_ZEROING.PAGES (RO; R241). -/
def MT_ZEROING_PAGES : Fld := ⟨.MT_ZEROING, 31, 0⟩
/-- MT_OBJ_COUNT.COUNT (RO; R241). -/
def MT_OBJ_COUNT_COUNT : Fld := ⟨.MT_OBJ_COUNT, 16, 0⟩
/-- MT_MIG_ACTIVE.PAGES (RO; R241). -/
def MT_MIG_ACTIVE_PAGES : Fld := ⟨.MT_MIG_ACTIVE, 31, 0⟩
/-- MT_TLB_MISS.COUNT (RO; R241). -/
def MT_TLB_MISS_COUNT : Fld := ⟨.MT_TLB_MISS, 31, 0⟩
/-- MT_BAR2_STATUS.POISON (W1C; R241). -/
def MT_BAR2_STATUS_POISON : Fld := ⟨.MT_BAR2_STATUS, 2, 2⟩
/-- MT_BAR2_STATUS.READONLY (W1C; R241). -/
def MT_BAR2_STATUS_READONLY : Fld := ⟨.MT_BAR2_STATUS, 1, 1⟩
/-- MT_BAR2_STATUS.UNMAPPED (W1C; R241). -/
def MT_BAR2_STATUS_UNMAPPED : Fld := ⟨.MT_BAR2_STATUS, 0, 0⟩
/-- MT_NMR_STATUS.INT_OVF (W1C; R241). -/
def MT_NMR_STATUS_INT_OVF : Fld := ⟨.MT_NMR_STATUS, 3, 3⟩
/-- MT_NMR_STATUS.SPECIAL (W1C; R241). -/
def MT_NMR_STATUS_SPECIAL : Fld := ⟨.MT_NMR_STATUS, 2, 2⟩
/-- MT_NMR_STATUS.WIN_HIGH (W1C; R241). -/
def MT_NMR_STATUS_WIN_HIGH : Fld := ⟨.MT_NMR_STATUS, 1, 1⟩
/-- MT_NMR_STATUS.WIN_LOW (W1C; R241). -/
def MT_NMR_STATUS_WIN_LOW : Fld := ⟨.MT_NMR_STATUS, 0, 0⟩
/-- MT_ECC_CTRL.CLR (WO; R242). -/
def MT_ECC_CTRL_CLR : Fld := ⟨.MT_ECC_CTRL, 31, 31⟩
/-- MT_ECC_CTRL.PATROL_EN (RW, TX; R242). -/
def MT_ECC_CTRL_PATROL_EN : Fld := ⟨.MT_ECC_CTRL, 0, 0⟩
/-- MT_ECC_CORR_HBM.COUNT (RO; R242). -/
def MT_ECC_CORR_HBM_COUNT : Fld := ⟨.MT_ECC_CORR_HBM, 31, 0⟩
/-- MT_ECC_CORR_LP.COUNT (RO; R242). -/
def MT_ECC_CORR_LP_COUNT : Fld := ⟨.MT_ECC_CORR_LP, 31, 0⟩
/-- MT_ECC_UNCORR.COUNT (RO; R242). -/
def MT_ECC_UNCORR_COUNT : Fld := ⟨.MT_ECC_UNCORR, 31, 0⟩
/-- MT_ECC_FIRST.VALID (W1C; R242). -/
def MT_ECC_FIRST_VALID : Fld := ⟨.MT_ECC_FIRST, 31, 31⟩
/-- MT_ECC_FIRST.TIER (RO; R242). -/
def MT_ECC_FIRST_TIER : Fld := ⟨.MT_ECC_FIRST, 30, 30⟩
/-- MT_ECC_FIRST.PATROL (RO; R242). -/
def MT_ECC_FIRST_PATROL : Fld := ⟨.MT_ECC_FIRST, 29, 29⟩
/-- MT_ECC_FIRST.POLDER (RO; R242). -/
def MT_ECC_FIRST_POLDER : Fld := ⟨.MT_ECC_FIRST, 25, 24⟩
/-- MT_ECC_FIRST.FRAME (RO; R242). -/
def MT_ECC_FIRST_FRAME : Fld := ⟨.MT_ECC_FIRST, 21, 0⟩
/-- MT_ECC_OFS.OFS (RO; R242). -/
def MT_ECC_OFS_OFS : Fld := ⟨.MT_ECC_OFS, 20, 0⟩
/-- MT_ECC_WHEN_LO.FRAME (RO; R242). -/
def MT_ECC_WHEN_LO_FRAME : Fld := ⟨.MT_ECC_WHEN_LO, 31, 0⟩
/-- MT_ECC_WHEN_HI.FRAME (RO; R242). -/
def MT_ECC_WHEN_HI_FRAME : Fld := ⟨.MT_ECC_WHEN_HI, 31, 0⟩
/-- MT_RETIRED.COUNT (RO; R242). -/
def MT_RETIRED_COUNT : Fld := ⟨.MT_RETIRED, 31, 0⟩
/-- MT_THERM_STATUS.THROTTLE (RO; R242). -/
def MT_THERM_STATUS_THROTTLE : Fld := ⟨.MT_THERM_STATUS, 7, 0⟩
/-- MT_BAR2_BASE_LO.ADDR (RW, TX; R242). -/
def MT_BAR2_BASE_LO_ADDR : Fld := ⟨.MT_BAR2_BASE_LO, 31, 21⟩
/-- MT_BAR2_BASE_HI.ADDR (RW, TX; R242). -/
def MT_BAR2_BASE_HI_ADDR : Fld := ⟨.MT_BAR2_BASE_HI, 15, 0⟩
/-- UE_GROUP_CTRL.ENABLE (RW, TX; R273). -/
def UE_GROUP_CTRL_ENABLE : Fld := ⟨.UE_GROUP_CTRL, 31, 31⟩
/-- UE_GROUP_CTRL.RULE (RW, TX; R273). -/
def UE_GROUP_CTRL_RULE : Fld := ⟨.UE_GROUP_CTRL, 27, 24⟩
/-- UE_GROUP_CTRL.POLDER (RW, TX; R273). -/
def UE_GROUP_CTRL_POLDER : Fld := ⟨.UE_GROUP_CTRL, 23, 22⟩
/-- UE_GROUP_CTRL.CLIP_IN (RW, TX; R273). -/
def UE_GROUP_CTRL_CLIP_IN : Fld := ⟨.UE_GROUP_CTRL, 21, 21⟩
/-- UE_GROUP_CTRL.UBRINE (RW, TX; R273). -/
def UE_GROUP_CTRL_UBRINE : Fld := ⟨.UE_GROUP_CTRL, 20, 20⟩
/-- UE_GROUP_CTRL.MASTER (RW, TX; R273). -/
def UE_GROUP_CTRL_MASTER : Fld := ⟨.UE_GROUP_CTRL, 19, 19⟩
/-- UE_GROUP_CTRL.UFMT (RW, TX; R273). -/
def UE_GROUP_CTRL_UFMT : Fld := ⟨.UE_GROUP_CTRL, 15, 12⟩
/-- UE_GROUP_CTRL.WFMT (RW, TX; R273). -/
def UE_GROUP_CTRL_WFMT : Fld := ⟨.UE_GROUP_CTRL, 11, 8⟩
/-- UE_GROUP_CTRL.LR_MARGIN (RW, TX; R273). -/
def UE_GROUP_CTRL_LR_MARGIN : Fld := ⟨.UE_GROUP_CTRL, 7, 4⟩
/-- UE_GROUP_LRX.LRX (RO; R273). -/
def UE_GROUP_LRX_LRX : Fld := ⟨.UE_GROUP_LRX, 7, 0⟩
/-- UE_GROUP_LR.LR (RW, TX; R273). -/
def UE_GROUP_LR_LR : Fld := ⟨.UE_GROUP_LR, 31, 0⟩
/-- UE_GROUP_WD.WD (RW, TX; R273). -/
def UE_GROUP_WD_WD : Fld := ⟨.UE_GROUP_WD, 31, 0⟩
/-- UE_GROUP_BETA1.BETA1 (RW, TX; R273). -/
def UE_GROUP_BETA1_BETA1 : Fld := ⟨.UE_GROUP_BETA1, 31, 0⟩
/-- UE_GROUP_BETA2.BETA2 (RW, TX; R273). -/
def UE_GROUP_BETA2_BETA2 : Fld := ⟨.UE_GROUP_BETA2, 31, 0⟩
/-- UE_GROUP_EPS.EPS (RW, TX; R273). -/
def UE_GROUP_EPS_EPS : Fld := ⟨.UE_GROUP_EPS, 31, 0⟩
/-- UE_GROUP_GSCALE.GSCALE (RW, TX; R273). -/
def UE_GROUP_GSCALE_GSCALE : Fld := ⟨.UE_GROUP_GSCALE, 31, 0⟩
/-- UE_GROUP_B1POW.B1POW (RW, TX; R273). -/
def UE_GROUP_B1POW_B1POW : Fld := ⟨.UE_GROUP_B1POW, 31, 0⟩
/-- UE_GROUP_B2POW.B2POW (RW, TX; R273). -/
def UE_GROUP_B2POW_B2POW : Fld := ⟨.UE_GROUP_B2POW, 31, 0⟩
/-- UE_GROUP_BASE_LO.ADDR (RW, TX; R273). -/
def UE_GROUP_BASE_LO_ADDR : Fld := ⟨.UE_GROUP_BASE_LO, 31, 0⟩
/-- UE_GROUP_BASE_HI.ADDR (RW, TX; R273). -/
def UE_GROUP_BASE_HI_ADDR : Fld := ⟨.UE_GROUP_BASE_HI, 15, 0⟩
/-- UE_GROUP_COUNT_LO.COUNT (RW, TX; R273). -/
def UE_GROUP_COUNT_LO_COUNT : Fld := ⟨.UE_GROUP_COUNT_LO, 31, 0⟩
/-- UE_GROUP_COUNT_HI.ROW_WIDTH (RW, TX; R273). -/
def UE_GROUP_COUNT_HI_ROW_WIDTH : Fld := ⟨.UE_GROUP_COUNT_HI, 31, 16⟩
/-- UE_GROUP_COUNT_HI.COUNT (RW, TX; R273). -/
def UE_GROUP_COUNT_HI_COUNT : Fld := ⟨.UE_GROUP_COUNT_HI, 7, 0⟩
/-- UE_GROUP_STEPS.STEPS (RO; R273). -/
def UE_GROUP_STEPS_STEPS : Fld := ⟨.UE_GROUP_STEPS, 31, 0⟩
/-- UE_RG_CTRL.RANK (RW, TX; R276). -/
def UE_RG_CTRL_RANK : Fld := ⟨.UE_RG_CTRL, 29, 24⟩
/-- UE_RG_CTRL.MEMBERS_M1 (RW, TX; R276). -/
def UE_RG_CTRL_MEMBERS_M1 : Fld := ⟨.UE_RG_CTRL, 21, 16⟩
/-- UE_RG_CTRL.HOPS (RW, TX; R276). -/
def UE_RG_CTRL_HOPS : Fld := ⟨.UE_RG_CTRL, 11, 8⟩
/-- UE_VOTE_CTRL.HOST_HOLD (RW, TX; R276). -/
def UE_VOTE_CTRL_HOST_HOLD : Fld := ⟨.UE_VOTE_CTRL, 0, 0⟩
/-- UE_VOTE_AT.FRAMES (RW, TX; R276). -/
def UE_VOTE_AT_FRAMES : Fld := ⟨.UE_VOTE_AT, 31, 0⟩
/-- UE_VOTE_TIMEOUTS.HOST (RW, TX; R276). -/
def UE_VOTE_TIMEOUTS_HOST : Fld := ⟨.UE_VOTE_TIMEOUTS, 31, 16⟩
/-- UE_VOTE_TIMEOUTS.CLOSE (RW, TX; R276). -/
def UE_VOTE_TIMEOUTS_CLOSE : Fld := ⟨.UE_VOTE_TIMEOUTS, 15, 0⟩
/-- UE_VOTE_WORD.WORD (RO; R276). -/
def UE_VOTE_WORD_WORD : Fld := ⟨.UE_VOTE_WORD, 31, 0⟩
/-- UE_VOTE_LOCAL.WORD (RO; R276). -/
def UE_VOTE_LOCAL_WORD : Fld := ⟨.UE_VOTE_LOCAL, 31, 0⟩
/-- UE_VOTE_HOST.VERDICT (RW, TX; R276). -/
def UE_VOTE_HOST_VERDICT : Fld := ⟨.UE_VOTE_HOST, 31, 30⟩
/-- UE_VOTE_HOST.STEP (RW, TX; R276). -/
def UE_VOTE_HOST_STEP : Fld := ⟨.UE_VOTE_HOST, 15, 0⟩
/-- UE_VOTE_HOST_AT_LO.AT (RW, TX; R276). -/
def UE_VOTE_HOST_AT_LO_AT : Fld := ⟨.UE_VOTE_HOST_AT_LO, 31, 0⟩
/-- UE_VOTE_HOST_AT_HI.AT (RW, TX; R276). -/
def UE_VOTE_HOST_AT_HI_AT : Fld := ⟨.UE_VOTE_HOST_AT_HI, 31, 0⟩
/-- UE_VOTE_MISSING_LO.MASK (RO; R276). -/
def UE_VOTE_MISSING_LO_MASK : Fld := ⟨.UE_VOTE_MISSING_LO, 31, 0⟩
/-- UE_VOTE_MISSING_HI.MASK (RO; R276). -/
def UE_VOTE_MISSING_HI_MASK : Fld := ⟨.UE_VOTE_MISSING_HI, 31, 0⟩
/-- UE_CLIP_MAX.MAX (RW, TX; R276). -/
def UE_CLIP_MAX_MAX : Fld := ⟨.UE_CLIP_MAX, 31, 0⟩
/-- UE_GNORM.NORM (RO; R276). -/
def UE_GNORM_NORM : Fld := ⟨.UE_GNORM, 31, 0⟩
/-- UE_CLIP_FACTOR.C (RO; R276). -/
def UE_CLIP_FACTOR_C : Fld := ⟨.UE_CLIP_FACTOR, 31, 0⟩
/-- UE_BKT_STATUS.INFLIGHT (RO; R276). -/
def UE_BKT_STATUS_INFLIGHT : Fld := ⟨.UE_BKT_STATUS, 24, 16⟩
/-- UE_BKT_FIRST_FAIL.VALID (W1C; R276). -/
def UE_BKT_FIRST_FAIL_VALID : Fld := ⟨.UE_BKT_FIRST_FAIL, 31, 31⟩
/-- UE_BKT_FIRST_FAIL.CAUSE (RO; R276). -/
def UE_BKT_FIRST_FAIL_CAUSE : Fld := ⟨.UE_BKT_FIRST_FAIL, 27, 24⟩
/-- UE_BKT_FIRST_FAIL.BUCKET (RO; R276). -/
def UE_BKT_FIRST_FAIL_BUCKET : Fld := ⟨.UE_BKT_FIRST_FAIL, 11, 0⟩
/-- UE_STATUS.DIVERGED (W1C; R276). -/
def UE_STATUS_DIVERGED : Fld := ⟨.UE_STATUS, 3, 3⟩
/-- UE_STATUS.MEMBER_LOST (W1C; R276). -/
def UE_STATUS_MEMBER_LOST : Fld := ⟨.UE_STATUS, 2, 2⟩
/-- UE_STATUS.UPD_SPECIAL (W1C; R276). -/
def UE_STATUS_UPD_SPECIAL : Fld := ⟨.UE_STATUS, 1, 1⟩
/-- UE_STATUS.SEALED_READ (W1C; R276). -/
def UE_STATUS_SEALED_READ : Fld := ⟨.UE_STATUS, 0, 0⟩
/-- UE_STEP_LO.STEP (RO; R276). -/
def UE_STEP_LO_STEP : Fld := ⟨.UE_STEP_LO, 31, 0⟩
/-- UE_STEP_HI.STEP (RO; R276). -/
def UE_STEP_HI_STEP : Fld := ⟨.UE_STEP_HI, 31, 0⟩
/-- CQ_ALERT_CTRL.EN (RW, TX; R303). -/
def CQ_ALERT_CTRL_EN : Fld := ⟨.CQ_ALERT_CTRL, 31, 31⟩
/-- CQ_ALERT_CTRL.FUNC (RW, TX; R303). -/
def CQ_ALERT_CTRL_FUNC : Fld := ⟨.CQ_ALERT_CTRL, 26, 24⟩
/-- CQ_ALERT_CTRL.VECTOR (RW, TX; R303). -/
def CQ_ALERT_CTRL_VECTOR : Fld := ⟨.CQ_ALERT_CTRL, 10, 0⟩
/-- CQ_ALERT_CAUSE.LINK (W1C; R303). -/
def CQ_ALERT_CAUSE_LINK : Fld := ⟨.CQ_ALERT_CAUSE, 7, 7⟩
/-- CQ_ALERT_CAUSE.THERMAL (W1C; R303). -/
def CQ_ALERT_CAUSE_THERMAL : Fld := ⟨.CQ_ALERT_CAUSE, 6, 6⟩
/-- CQ_ALERT_CAUSE.HANG (W1C; R303). -/
def CQ_ALERT_CAUSE_HANG : Fld := ⟨.CQ_ALERT_CAUSE, 5, 5⟩
/-- CQ_ALERT_CAUSE.SYNC_LOST (W1C; R303). -/
def CQ_ALERT_CAUSE_SYNC_LOST : Fld := ⟨.CQ_ALERT_CAUSE, 4, 4⟩
/-- CQ_ALERT_CAUSE.DIVERGED (W1C; R303). -/
def CQ_ALERT_CAUSE_DIVERGED : Fld := ⟨.CQ_ALERT_CAUSE, 3, 3⟩
/-- CQ_ALERT_CAUSE.UPD_SPECIAL (W1C; R303). -/
def CQ_ALERT_CAUSE_UPD_SPECIAL : Fld := ⟨.CQ_ALERT_CAUSE, 2, 2⟩
/-- CQ_ALERT_CAUSE.MEMORY (W1C; R303). -/
def CQ_ALERT_CAUSE_MEMORY : Fld := ⟨.CQ_ALERT_CAUSE, 1, 1⟩
/-- CQ_ALERT_CAUSE.SHADOW (W1C; R303). -/
def CQ_ALERT_CAUSE_SHADOW : Fld := ⟨.CQ_ALERT_CAUSE, 0, 0⟩
/-- MQ_CTRL.IRQ_EN (RW, TX; R304). -/
def MQ_CTRL_IRQ_EN : Fld := ⟨.MQ_CTRL, 11, 11⟩
/-- MQ_CTRL.VECTOR (RW, TX; R304). -/
def MQ_CTRL_VECTOR : Fld := ⟨.MQ_CTRL, 10, 0⟩
/-- MQ_TAIL.TAIL (WO; R304). -/
def MQ_TAIL_TAIL : Fld := ⟨.MQ_TAIL, 3, 0⟩
/-- MQ_HEAD.HEAD (RO; R304). -/
def MQ_HEAD_HEAD : Fld := ⟨.MQ_HEAD, 3, 0⟩
/-- HC_ID.PART (RO; R308). -/
def HC_ID_PART : Fld := ⟨.HC_ID, 31, 16⟩
/-- HC_ID.STEPPING (RO; R308). -/
def HC_ID_STEPPING : Fld := ⟨.HC_ID, 15, 8⟩
/-- HC_CONTRACT.LEVELS (RO; R308). -/
def HC_CONTRACT_LEVELS : Fld := ⟨.HC_CONTRACT, 31, 0⟩
/-- HC_FEAT0.STEP_LOOP (RO; R308). -/
def HC_FEAT0_STEP_LOOP : Fld := ⟨.HC_FEAT0, 9, 9⟩
/-- HC_FEAT0.CHECKPOINT (RO; R308). -/
def HC_FEAT0_CHECKPOINT : Fld := ⟨.HC_FEAT0, 8, 8⟩
/-- HC_FEAT0.EMBED (RO; R308). -/
def HC_FEAT0_EMBED : Fld := ⟨.HC_FEAT0, 7, 7⟩
/-- HC_FEAT0.WINDOW (RO; R308). -/
def HC_FEAT0_WINDOW : Fld := ⟨.HC_FEAT0, 6, 6⟩
/-- HC_FEAT0.SR (RO; R308). -/
def HC_FEAT0_SR : Fld := ⟨.HC_FEAT0, 5, 5⟩
/-- HC_FEAT0.HOST_HOLD (RO; R308). -/
def HC_FEAT0_HOST_HOLD : Fld := ⟨.HC_FEAT0, 4, 4⟩
/-- HC_FEAT0.SEAL (RO; R308). -/
def HC_FEAT0_SEAL : Fld := ⟨.HC_FEAT0, 3, 3⟩
/-- HC_FEAT0.IDE (RO; R308). -/
def HC_FEAT0_IDE : Fld := ⟨.HC_FEAT0, 2, 2⟩
/-- HC_FEAT0.CONFIDENTIAL (RO; R308). -/
def HC_FEAT0_CONFIDENTIAL : Fld := ⟨.HC_FEAT0, 1, 1⟩
/-- HC_FEAT0.STANDBY (RO; R308). -/
def HC_FEAT0_STANDBY : Fld := ⟨.HC_FEAT0, 0, 0⟩
/-- HC_TILES.CD3 (RO; R308). -/
def HC_TILES_CD3 : Fld := ⟨.HC_TILES, 31, 24⟩
/-- HC_TILES.CD2 (RO; R308). -/
def HC_TILES_CD2 : Fld := ⟨.HC_TILES, 23, 16⟩
/-- HC_TILES.CD1 (RO; R308). -/
def HC_TILES_CD1 : Fld := ⟨.HC_TILES, 15, 8⟩
/-- HC_TILES.CD0 (RO; R308). -/
def HC_TILES_CD0 : Fld := ⟨.HC_TILES, 7, 0⟩
/-- HC_QUEUE_RANGE.COUNT (RO; R308). -/
def HC_QUEUE_RANGE_COUNT : Fld := ⟨.HC_QUEUE_RANGE, 31, 16⟩
/-- HC_QUEUE_RANGE.FIRST (RO; R308). -/
def HC_QUEUE_RANGE_FIRST : Fld := ⟨.HC_QUEUE_RANGE, 15, 0⟩
/-- HC_POLDER.CONF (RO; R308). -/
def HC_POLDER_CONF : Fld := ⟨.HC_POLDER, 8, 8⟩
/-- HC_POLDER.COUNT (RO; R308). -/
def HC_POLDER_COUNT : Fld := ⟨.HC_POLDER, 7, 4⟩
/-- HC_POLDER.POLDER (RO; R308). -/
def HC_POLDER_POLDER : Fld := ⟨.HC_POLDER, 1, 0⟩
/-- HC_FRAME.MAX_LOG2 (RO; R308). -/
def HC_FRAME_MAX_LOG2 : Fld := ⟨.HC_FRAME, 9, 5⟩
/-- HC_FRAME.MIN_LOG2 (RO; R308). -/
def HC_FRAME_MIN_LOG2 : Fld := ⟨.HC_FRAME, 4, 0⟩
/-- CQ_CTRL.FUNC (RO; R310). -/
def CQ_CTRL_FUNC : Fld := ⟨.CQ_CTRL, 28, 26⟩
/-- CQ_CTRL.VECTOR (RW, TX; R310). -/
def CQ_CTRL_VECTOR : Fld := ⟨.CQ_CTRL, 15, 5⟩
/-- CQ_CTRL.IRQ_EN (RW, TX; R310). -/
def CQ_CTRL_IRQ_EN : Fld := ⟨.CQ_CTRL, 4, 4⟩
/-- CQ_RING_LO.ADDR (RW, TX; R310). -/
def CQ_RING_LO_ADDR : Fld := ⟨.CQ_RING_LO, 31, 12⟩
/-- CQ_RING_HI.ADDR (RW, TX; R310). -/
def CQ_RING_HI_ADDR : Fld := ⟨.CQ_RING_HI, 15, 0⟩
/-- CQ_SIZES.CPL_LOG2 (RW, TX; R310). -/
def CQ_SIZES_CPL_LOG2 : Fld := ⟨.CQ_SIZES, 20, 16⟩
/-- CQ_SIZES.RING_LOG2 (RW, TX; R310). -/
def CQ_SIZES_RING_LOG2 : Fld := ⟨.CQ_SIZES, 4, 0⟩
/-- CQ_CPL_LO.ADDR (RW, TX; R310). -/
def CQ_CPL_LO_ADDR : Fld := ⟨.CQ_CPL_LO, 31, 12⟩
/-- CQ_CPL_HI.ADDR (RW, TX; R310). -/
def CQ_CPL_HI_ADDR : Fld := ⟨.CQ_CPL_HI, 31, 0⟩
/-- CQ_TAIL.TAIL (WO; R310). -/
def CQ_TAIL_TAIL : Fld := ⟨.CQ_TAIL, 15, 0⟩
/-- CQ_HEAD.HEAD (RO; R310). -/
def CQ_HEAD_HEAD : Fld := ⟨.CQ_HEAD, 15, 0⟩
/-- CQ_CPL_HEAD.HEAD (RW; R310). -/
def CQ_CPL_HEAD_HEAD : Fld := ⟨.CQ_CPL_HEAD, 15, 0⟩
/-- CQ_CPL_TAIL.TAIL (RO; R310). -/
def CQ_CPL_TAIL_TAIL : Fld := ⟨.CQ_CPL_TAIL, 15, 0⟩
/-- CQ_STATE.ERR_STATUS (RO; R310). -/
def CQ_STATE_ERR_STATUS : Fld := ⟨.CQ_STATE, 31, 24⟩
/-- CQ_STATE.INFLIGHT (RO; R310). -/
def CQ_STATE_INFLIGHT : Fld := ⟨.CQ_STATE, 12, 8⟩
/-- CQ_STATE.BAD_DOORBELL (W1C; R310). -/
def CQ_STATE_BAD_DOORBELL : Fld := ⟨.CQ_STATE, 5, 5⟩
/-- CQ_STATE.CPL_FULL (RO; R310). -/
def CQ_STATE_CPL_FULL : Fld := ⟨.CQ_STATE, 4, 4⟩
/-- CQ_STATE.STATE (RO; R310). -/
def CQ_STATE_STATE : Fld := ⟨.CQ_STATE, 1, 0⟩
/-- CQ_CMD.OP (WO; R310). -/
def CQ_CMD_OP : Fld := ⟨.CQ_CMD, 2, 0⟩
/-- CQ_SEQ.SEQ (RO; R310). -/
def CQ_SEQ_SEQ : Fld := ⟨.CQ_SEQ, 31, 0⟩
/-- CQ_ERR_SEQ.SEQ (RO; R310). -/
def CQ_ERR_SEQ_SEQ : Fld := ⟨.CQ_ERR_SEQ, 31, 0⟩
/-- ZL_CTRL.CLR (WO; R372). -/
def ZL_CTRL_CLR : Fld := ⟨.ZL_CTRL, 2, 2⟩
/-- ZL_CTRL.RETRAIN (WO; R372). -/
def ZL_CTRL_RETRAIN : Fld := ⟨.ZL_CTRL, 1, 1⟩
/-- ZL_CTRL.ENABLE (RW, TX; R372). -/
def ZL_CTRL_ENABLE : Fld := ⟨.ZL_CTRL, 0, 0⟩
/-- ZL_STATUS.LANES_OK (RO; R372). -/
def ZL_STATUS_LANES_OK : Fld := ⟨.ZL_STATUS, 31, 24⟩
/-- ZL_STATUS.DOWN_CAUSE (RO; R372). -/
def ZL_STATUS_DOWN_CAUSE : Fld := ⟨.ZL_STATUS, 23, 20⟩
/-- ZL_STATUS.ROW_LOST (W1C; R372). -/
def ZL_STATUS_ROW_LOST : Fld := ⟨.ZL_STATUS, 6, 6⟩
/-- ZL_STATUS.RETRAINED (W1C; R372). -/
def ZL_STATUS_RETRAINED : Fld := ⟨.ZL_STATUS, 5, 5⟩
/-- ZL_STATUS.DOWN_EVENT (W1C; R372). -/
def ZL_STATUS_DOWN_EVENT : Fld := ⟨.ZL_STATUS, 4, 4⟩
/-- ZL_STATUS.STATE (RO; R372). -/
def ZL_STATUS_STATE : Fld := ⟨.ZL_STATUS, 2, 0⟩
/-- ZL_PEER.SLOT (RO; R372). -/
def ZL_PEER_SLOT : Fld := ⟨.ZL_PEER, 23, 20⟩
/-- ZL_PEER.NODE (RO; R372). -/
def ZL_PEER_NODE : Fld := ⟨.ZL_PEER, 19, 16⟩
/-- ZL_PEER.LINK (RO; R372). -/
def ZL_PEER_LINK : Fld := ⟨.ZL_PEER, 15, 8⟩
/-- ZL_PEER.LOG2 (RO; R372). -/
def ZL_PEER_LOG2 : Fld := ⟨.ZL_PEER, 7, 3⟩
/-- ZL_FEC_CORR.COUNT (RO; R372). -/
def ZL_FEC_CORR_COUNT : Fld := ⟨.ZL_FEC_CORR, 31, 0⟩
/-- ZL_CRC_ERR.COUNT (RO; R372). -/
def ZL_CRC_ERR_COUNT : Fld := ⟨.ZL_CRC_ERR, 31, 0⟩
/-- ZL_RETRY.COUNT (RO; R372). -/
def ZL_RETRY_COUNT : Fld := ⟨.ZL_RETRY, 31, 0⟩
/-- ZL_SKEW.COUNT (RO; R372). -/
def ZL_SKEW_COUNT : Fld := ⟨.ZL_SKEW, 31, 0⟩
/-- ZL_PROTO_ERR.COUNT (RO; R372). -/
def ZL_PROTO_ERR_COUNT : Fld := ⟨.ZL_PROTO_ERR, 31, 0⟩
/-- ZL_DROP.COUNT (RO; R372). -/
def ZL_DROP_COUNT : Fld := ⟨.ZL_DROP, 31, 0⟩
/-- ZL_CREDIT.VC2 (RO; R372). -/
def ZL_CREDIT_VC2 : Fld := ⟨.ZL_CREDIT, 31, 22⟩
/-- ZL_CREDIT.VC3 (RO; R372). -/
def ZL_CREDIT_VC3 : Fld := ⟨.ZL_CREDIT, 21, 12⟩
/-- ZL_CREDIT.VC1 (RO; R372). -/
def ZL_CREDIT_VC1 : Fld := ⟨.ZL_CREDIT, 11, 6⟩
/-- ZL_CREDIT.VC0 (RO; R372). -/
def ZL_CREDIT_VC0 : Fld := ⟨.ZL_CREDIT, 5, 0⟩
/-- ZL_PEER_FRAME_LO.FRAME (RO; R372). -/
def ZL_PEER_FRAME_LO_FRAME : Fld := ⟨.ZL_PEER_FRAME_LO, 31, 0⟩
/-- ZL_PEER_FRAME_HI.FRAME (RO; R372). -/
def ZL_PEER_FRAME_HI_FRAME : Fld := ⟨.ZL_PEER_FRAME_HI, 31, 0⟩
/-- ZL_NODE.SLOT (RO; R373). -/
def ZL_NODE_SLOT : Fld := ⟨.ZL_NODE, 7, 4⟩
/-- ZL_NODE.NODE (RW, TX; R373). -/
def ZL_NODE_NODE : Fld := ⟨.ZL_NODE, 3, 0⟩
/-- ZL_TOPO.TOPO (RW, TX; R373). -/
def ZL_TOPO_TOPO : Fld := ⟨.ZL_TOPO, 2, 0⟩
/-- ZL_RESV.RESERVED (RW, TX; R373). -/
def ZL_RESV_RESERVED : Fld := ⟨.ZL_RESV, 3, 0⟩
/-- ZL_SUBST.ENABLE (RW, TX; R373). -/
def ZL_SUBST_ENABLE : Fld := ⟨.ZL_SUBST, 31, 31⟩
/-- ZL_SUBST.OLD (RW, TX; R373). -/
def ZL_SUBST_OLD : Fld := ⟨.ZL_SUBST, 3, 0⟩
/-- ZL_SUBST_AT_LO.AT (RW, TX; R373). -/
def ZL_SUBST_AT_LO_AT : Fld := ⟨.ZL_SUBST_AT_LO, 31, 0⟩
/-- ZL_SUBST_AT_HI.AT (RW, TX; R373). -/
def ZL_SUBST_AT_HI_AT : Fld := ⟨.ZL_SUBST_AT_HI, 31, 0⟩
/-- ZL_SUBST_STATUS.DONE (W1C; R373). -/
def ZL_SUBST_STATUS_DONE : Fld := ⟨.ZL_SUBST_STATUS, 31, 31⟩
/-- ZL_SUBST_STATUS.LAST_ERR (RO; R373). -/
def ZL_SUBST_STATUS_LAST_ERR : Fld := ⟨.ZL_SUBST_STATUS, 7, 0⟩
/-- ZL_REJOIN.ARM (RW, TX; R373). -/
def ZL_REJOIN_ARM : Fld := ⟨.ZL_REJOIN, 31, 31⟩
/-- ZL_REJOIN.LINK (RW, TX; R373). -/
def ZL_REJOIN_LINK : Fld := ⟨.ZL_REJOIN, 4, 0⟩
/-- ZL_REJOIN_STATUS.REASON (RO; R373). -/
def ZL_REJOIN_STATUS_REASON : Fld := ⟨.ZL_REJOIN_STATUS, 7, 4⟩
/-- ZL_REJOIN_STATUS.FAIL (W1C; R373). -/
def ZL_REJOIN_STATUS_FAIL : Fld := ⟨.ZL_REJOIN_STATUS, 1, 1⟩
/-- ZL_REJOIN_STATUS.DONE (W1C; R373). -/
def ZL_REJOIN_STATUS_DONE : Fld := ⟨.ZL_REJOIN_STATUS, 0, 0⟩
/-- ZL_ROUTE.VALID (RW, TX; R374). -/
def ZL_ROUTE_VALID : Fld := ⟨.ZL_ROUTE, 31, 31⟩
/-- ZL_ROUTE.LOOP (RW, TX; R374). -/
def ZL_ROUTE_LOOP : Fld := ⟨.ZL_ROUTE, 30, 30⟩
/-- ZL_ROUTE.HOPS (RW, TX; R374). -/
def ZL_ROUTE_HOPS : Fld := ⟨.ZL_ROUTE, 27, 24⟩
/-- ZL_ROUTE.SLOT (RW, TX; R374). -/
def ZL_ROUTE_SLOT : Fld := ⟨.ZL_ROUTE, 19, 16⟩
/-- ZL_ROUTE.MASK (RW, TX; R374). -/
def ZL_ROUTE_MASK : Fld := ⟨.ZL_ROUTE, 7, 0⟩
/-- ZL_RANK.VALID (RW, TX; R374). -/
def ZL_RANK_VALID : Fld := ⟨.ZL_RANK, 31, 31⟩
/-- ZL_RANK.ENDPOINT (RW, TX; R374). -/
def ZL_RANK_ENDPOINT : Fld := ⟨.ZL_RANK, 5, 0⟩
/-- MC_HANG_CTRL.EN (RW, TX; R400). -/
def MC_HANG_CTRL_EN : Fld := ⟨.MC_HANG_CTRL, 31, 31⟩
/-- MC_HANG_CTRL.SLUICE_TO (RW, TX; R400). -/
def MC_HANG_CTRL_SLUICE_TO : Fld := ⟨.MC_HANG_CTRL, 23, 16⟩
/-- MC_HANG_CTRL.WINDOW_LOG2 (RW, TX; R400). -/
def MC_HANG_CTRL_WINDOW_LOG2 : Fld := ⟨.MC_HANG_CTRL, 11, 8⟩
/-- MC_HANG_CTRL.ACTION (RW, TX; R400). -/
def MC_HANG_CTRL_ACTION : Fld := ⟨.MC_HANG_CTRL, 1, 0⟩
/-- MC_HANG_FIRST.VALID (W1C; R400). -/
def MC_HANG_FIRST_VALID : Fld := ⟨.MC_HANG_FIRST, 31, 31⟩
/-- MC_HANG_FIRST.DIE (RO; R400). -/
def MC_HANG_FIRST_DIE : Fld := ⟨.MC_HANG_FIRST, 25, 24⟩
/-- MC_HANG_FIRST.KIND (RO; R400). -/
def MC_HANG_FIRST_KIND : Fld := ⟨.MC_HANG_FIRST, 23, 20⟩
/-- MC_HANG_FIRST.UNIT (RO; R400). -/
def MC_HANG_FIRST_UNIT : Fld := ⟨.MC_HANG_FIRST, 15, 0⟩
/-- MC_HANG_FRAME_LO.FRAME (RO; R400). -/
def MC_HANG_FRAME_LO_FRAME : Fld := ⟨.MC_HANG_FRAME_LO, 31, 0⟩
/-- MC_HANG_FRAME_HI.FRAME (RO; R400). -/
def MC_HANG_FRAME_HI_FRAME : Fld := ⟨.MC_HANG_FRAME_HI, 31, 0⟩
/-- MC_HANG_COUNT.COUNT (RO; R400). -/
def MC_HANG_COUNT_COUNT : Fld := ⟨.MC_HANG_COUNT, 31, 0⟩
/-- MC_CLK_STATUS.HUB (RO; R400). -/
def MC_CLK_STATUS_HUB : Fld := ⟨.MC_CLK_STATUS, 4, 4⟩
/-- MC_CLK_STATUS.CD (RO; R400). -/
def MC_CLK_STATUS_CD : Fld := ⟨.MC_CLK_STATUS, 3, 0⟩
/-- MC_CDC_STATUS.DROPPED (RO; R400). -/
def MC_CDC_STATUS_DROPPED : Fld := ⟨.MC_CDC_STATUS, 31, 16⟩
/-- MC_CDC_STATUS.HELD (RO; R400). -/
def MC_CDC_STATUS_HELD : Fld := ⟨.MC_CDC_STATUS, 7, 0⟩
/-- MC_RESET_STATUS.BUSY (RO; R400). -/
def MC_RESET_STATUS_BUSY : Fld := ⟨.MC_RESET_STATUS, 31, 31⟩
/-- MC_RESET_STATUS.KIND (RO; R400). -/
def MC_RESET_STATUS_KIND : Fld := ⟨.MC_RESET_STATUS, 30, 28⟩
/-- MC_RESET_STATUS.INDEX (RO; R400). -/
def MC_RESET_STATUS_INDEX : Fld := ⟨.MC_RESET_STATUS, 23, 16⟩
/-- MC_RESET_STATUS.CAUSE (RO; R400). -/
def MC_RESET_STATUS_CAUSE : Fld := ⟨.MC_RESET_STATUS, 15, 8⟩
/-- MC_RESET_STATUS.DONE (W1C; R400). -/
def MC_RESET_STATUS_DONE : Fld := ⟨.MC_RESET_STATUS, 0, 0⟩
/-- MC_SNAP_STATUS.VALID (W1C; R400). -/
def MC_SNAP_STATUS_VALID : Fld := ⟨.MC_SNAP_STATUS, 31, 31⟩
/-- MC_SNAP_STATUS.POLDER (RO; R400). -/
def MC_SNAP_STATUS_POLDER : Fld := ⟨.MC_SNAP_STATUS, 27, 26⟩
/-- MC_SNAP_STATUS.SLOT (RO; R400). -/
def MC_SNAP_STATUS_SLOT : Fld := ⟨.MC_SNAP_STATUS, 24, 24⟩
/-- MC_SNAP_STATUS.REASON (RO; R400). -/
def MC_SNAP_STATUS_REASON : Fld := ⟨.MC_SNAP_STATUS, 23, 16⟩
/-- MC_SNAP_STATUS.SEQ (RO; R400). -/
def MC_SNAP_STATUS_SEQ : Fld := ⟨.MC_SNAP_STATUS, 15, 0⟩
/-- MC_START_STATUS.DONE (RO; R400). -/
def MC_START_STATUS_DONE : Fld := ⟨.MC_START_STATUS, 31, 31⟩
/-- MC_START_STATUS.HALT (RO; R400). -/
def MC_START_STATUS_HALT : Fld := ⟨.MC_START_STATUS, 30, 30⟩
/-- MC_START_STATUS.ATTEMPT (RO; R400). -/
def MC_START_STATUS_ATTEMPT : Fld := ⟨.MC_START_STATUS, 23, 16⟩
/-- MC_START_STATUS.FAIL_STEP (RO; R400). -/
def MC_START_STATUS_FAIL_STEP : Fld := ⟨.MC_START_STATUS, 15, 8⟩
/-- MC_START_STATUS.STEP (RO; R400). -/
def MC_START_STATUS_STEP : Fld := ⟨.MC_START_STATUS, 7, 0⟩
/-- MC_LEDGER_CTRL.CLEAR (WO; R400). -/
def MC_LEDGER_CTRL_CLEAR : Fld := ⟨.MC_LEDGER_CTRL, 31, 31⟩
/-- MC_LEDGER_CTRL.CLR_HANG (WO; R400). -/
def MC_LEDGER_CTRL_CLR_HANG : Fld := ⟨.MC_LEDGER_CTRL, 30, 30⟩
/-- MC_LEDGER_CTRL.SKIP_EN (RW, TX; R400). -/
def MC_LEDGER_CTRL_SKIP_EN : Fld := ⟨.MC_LEDGER_CTRL, 0, 0⟩
/-- MC_TILE_FAILED_LO.MASK (RO; R400). -/
def MC_TILE_FAILED_LO_MASK : Fld := ⟨.MC_TILE_FAILED_LO, 31, 0⟩
/-- MC_TILE_FAILED_HI.SPARES (RO; R400). -/
def MC_TILE_FAILED_HI_SPARES : Fld := ⟨.MC_TILE_FAILED_HI, 19, 16⟩
/-- MC_TILE_FAILED_HI.MASK (RO; R400). -/
def MC_TILE_FAILED_HI_MASK : Fld := ⟨.MC_TILE_FAILED_HI, 15, 0⟩
/-- MC_SPARE_CTRL.AUTO (RW, TX; R400). -/
def MC_SPARE_CTRL_AUTO : Fld := ⟨.MC_SPARE_CTRL, 3, 0⟩
/-- MC_TILE_REMAP.GO (WO, TX; R400). -/
def MC_TILE_REMAP_GO : Fld := ⟨.MC_TILE_REMAP, 31, 31⟩
/-- MC_TILE_REMAP.DIE (WO, TX; R400). -/
def MC_TILE_REMAP_DIE : Fld := ⟨.MC_TILE_REMAP, 25, 24⟩
/-- MC_TILE_REMAP.TILE (WO, TX; R400). -/
def MC_TILE_REMAP_TILE : Fld := ⟨.MC_TILE_REMAP, 5, 0⟩
/-- ME_CKPT_RESTORE.GO (WO, TX; R400). -/
def ME_CKPT_RESTORE_GO : Fld := ⟨.ME_CKPT_RESTORE, 31, 31⟩
/-- ME_CKPT_RESTORE.OBJECT (WO, TX; R400). -/
def ME_CKPT_RESTORE_OBJECT : Fld := ⟨.ME_CKPT_RESTORE, 15, 0⟩
/-- ME_CKPT_STATUS.BUSY (RO; R400). -/
def ME_CKPT_STATUS_BUSY : Fld := ⟨.ME_CKPT_STATUS, 31, 31⟩
/-- ME_CKPT_STATUS.DONE (W1C; R400). -/
def ME_CKPT_STATUS_DONE : Fld := ⟨.ME_CKPT_STATUS, 30, 30⟩
/-- ME_CKPT_STATUS.FAIL (W1C; R400). -/
def ME_CKPT_STATUS_FAIL : Fld := ⟨.ME_CKPT_STATUS, 29, 29⟩
/-- ME_CKPT_STATUS.LAST_ERR (RO; R400). -/
def ME_CKPT_STATUS_LAST_ERR : Fld := ⟨.ME_CKPT_STATUS, 7, 0⟩
/-- BC_CTRL.PERIODIC_EN (RW, TX; R414). -/
def BC_CTRL_PERIODIC_EN : Fld := ⟨.BC_CTRL, 31, 31⟩
/-- BC_CTRL.SPARE_EN (RW, TX; R414). -/
def BC_CTRL_SPARE_EN : Fld := ⟨.BC_CTRL, 30, 30⟩
/-- BC_CTRL.CLR (WO; R414). -/
def BC_CTRL_CLR : Fld := ⟨.BC_CTRL, 29, 29⟩
/-- BC_CTRL.PERIOD (RW, TX; R414). -/
def BC_CTRL_PERIOD : Fld := ⟨.BC_CTRL, 7, 0⟩
/-- BC_FIRST_FAIL.VALID (W1C; R414). -/
def BC_FIRST_FAIL_VALID : Fld := ⟨.BC_FIRST_FAIL, 31, 31⟩
/-- BC_FIRST_FAIL.MODE (RO; R414). -/
def BC_FIRST_FAIL_MODE : Fld := ⟨.BC_FIRST_FAIL, 30, 28⟩
/-- BC_FIRST_FAIL.PHYS (RO; R414). -/
def BC_FIRST_FAIL_PHYS : Fld := ⟨.BC_FIRST_FAIL, 27, 22⟩
/-- BC_FIRST_FAIL.SLICE (RO; R414). -/
def BC_FIRST_FAIL_SLICE : Fld := ⟨.BC_FIRST_FAIL, 15, 8⟩
/-- BC_FAIL_ADDR.BANK (RO; R414). -/
def BC_FAIL_ADDR_BANK : Fld := ⟨.BC_FAIL_ADDR, 21, 16⟩
/-- BC_FAIL_ADDR.LINE (RO; R414). -/
def BC_FAIL_ADDR_LINE : Fld := ⟨.BC_FAIL_ADDR, 9, 0⟩
/-- BC_FAIL_FRAME_LO.FRAME (RO; R414). -/
def BC_FAIL_FRAME_LO_FRAME : Fld := ⟨.BC_FAIL_FRAME_LO, 31, 0⟩
/-- BC_FAIL_FRAME_HI.FRAME (RO; R414). -/
def BC_FAIL_FRAME_HI_FRAME : Fld := ⟨.BC_FAIL_FRAME_HI, 31, 0⟩
/-- BC_SLICES_DONE.COUNT (RO; R414). -/
def BC_SLICES_DONE_COUNT : Fld := ⟨.BC_SLICES_DONE, 31, 0⟩
/-- BC_SLICES_FAILED.COUNT (RO; R414). -/
def BC_SLICES_FAILED_COUNT : Fld := ⟨.BC_SLICES_FAILED, 31, 0⟩
/-- BC_STARVED.COUNT (RO; R414). -/
def BC_STARVED_COUNT : Fld := ⟨.BC_STARVED, 31, 0⟩
/-- BC_TILE_STATUS.FAILED (RO; R414). -/
def BC_TILE_STATUS_FAILED : Fld := ⟨.BC_TILE_STATUS, 31, 31⟩
/-- BC_TILE_STATUS.SPARE (RO; R414). -/
def BC_TILE_STATUS_SPARE : Fld := ⟨.BC_TILE_STATUS, 30, 30⟩
/-- BC_TILE_STATUS.STARVED (W1C; R414). -/
def BC_TILE_STATUS_STARVED : Fld := ⟨.BC_TILE_STATUS, 29, 29⟩
/-- BC_TILE_STATUS.PASSES (RO; R414). -/
def BC_TILE_STATUS_PASSES : Fld := ⟨.BC_TILE_STATUS, 23, 16⟩
/-- BC_TILE_STATUS.LOGICAL (RO; R414). -/
def BC_TILE_STATUS_LOGICAL : Fld := ⟨.BC_TILE_STATUS, 13, 8⟩
/-- BC_TILE_STATUS.NEXT (RO; R414). -/
def BC_TILE_STATUS_NEXT : Fld := ⟨.BC_TILE_STATUS, 4, 0⟩
/-- SP_LAYOUT.PENDING (RO; R434). -/
def SP_LAYOUT_PENDING : Fld := ⟨.SP_LAYOUT, 7, 4⟩
/-- SP_LAYOUT.COUNT (RO; R434). -/
def SP_LAYOUT_COUNT : Fld := ⟨.SP_LAYOUT, 3, 0⟩
/-- SP_DEBUG.JTAG_OPEN (RO; R434). -/
def SP_DEBUG_JTAG_OPEN : Fld := ⟨.SP_DEBUG, 2, 2⟩
/-- SP_DEBUG.SCAN_FUSE (RO; R434). -/
def SP_DEBUG_SCAN_FUSE : Fld := ⟨.SP_DEBUG, 1, 1⟩
/-- SP_DEBUG.SCAN_USED (RO; R434). -/
def SP_DEBUG_SCAN_USED : Fld := ⟨.SP_DEBUG, 0, 0⟩
/-- SP_FUNC_BIND.POLDER (RW, TX; R434). -/
def SP_FUNC_BIND_POLDER : Fld := ⟨.SP_FUNC_BIND, 1, 0⟩
/-- SP_CONF.KEYS (RO; R434). -/
def SP_CONF_KEYS : Fld := ⟨.SP_CONF, 31, 16⟩
/-- SP_CONF.KEY_WITHDRAWN (W1C; R434). -/
def SP_CONF_KEY_WITHDRAWN : Fld := ⟨.SP_CONF, 2, 2⟩
/-- SP_CONF.OFF_PENDING (RO; R434). -/
def SP_CONF_OFF_PENDING : Fld := ⟨.SP_CONF, 1, 1⟩
/-- SP_CONF.CONF (RO; R434). -/
def SP_CONF_CONF : Fld := ⟨.SP_CONF, 0, 0⟩
/-- SP_DIKE_DENIED.COUNT (RO; R434). -/
def SP_DIKE_DENIED_COUNT : Fld := ⟨.SP_DIKE_DENIED, 31, 0⟩
/-- SP_IMPORT_STATUS.VALID (W1C; R434). -/
def SP_IMPORT_STATUS_VALID : Fld := ⟨.SP_IMPORT_STATUS, 31, 31⟩
/-- SP_IMPORT_STATUS.REASON (RO; R434). -/
def SP_IMPORT_STATUS_REASON : Fld := ⟨.SP_IMPORT_STATUS, 30, 28⟩
/-- SP_IMPORT_STATUS.SLOT (RO; R434). -/
def SP_IMPORT_STATUS_SLOT : Fld := ⟨.SP_IMPORT_STATUS, 19, 16⟩
/-- SP_IMPORT_STATUS.CHUNK (RO; R434). -/
def SP_IMPORT_STATUS_CHUNK : Fld := ⟨.SP_IMPORT_STATUS, 15, 0⟩
/-- SP_SEAL_STATUS.WRITE_DROPPED (W1C; R434). -/
def SP_SEAL_STATUS_WRITE_DROPPED : Fld := ⟨.SP_SEAL_STATUS, 0, 0⟩
/-- OB_BANK_CTRL.CLR (WO; R453). -/
def OB_BANK_CTRL_CLR : Fld := ⟨.OB_BANK_CTRL, 31, 31⟩
/-- OB_BANK_CTRL.SAMPLE (WO; R453). -/
def OB_BANK_CTRL_SAMPLE : Fld := ⟨.OB_BANK_CTRL, 30, 30⟩
/-- OB_BANK_CTRL.SAMPLE_LOG2 (RW; R453). -/
def OB_BANK_CTRL_SAMPLE_LOG2 : Fld := ⟨.OB_BANK_CTRL, 4, 0⟩
/-- OB_BANK_STATUS.RESET_PENDING (RO; R453). -/
def OB_BANK_STATUS_RESET_PENDING : Fld := ⟨.OB_BANK_STATUS, 31, 31⟩
/-- OB_SMP_SEQ.CLEARED (RO; R453). -/
def OB_SMP_SEQ_CLEARED : Fld := ⟨.OB_SMP_SEQ, 31, 31⟩
/-- OB_SMP_SEQ.SEQ (RO; R453). -/
def OB_SMP_SEQ_SEQ : Fld := ⟨.OB_SMP_SEQ, 30, 0⟩
/-- OB_SMP_FRAME_LO.FRAME (RO; R453). -/
def OB_SMP_FRAME_LO_FRAME : Fld := ⟨.OB_SMP_FRAME_LO, 31, 0⟩
/-- OB_SMP_FRAME_HI.FRAME (RO; R453). -/
def OB_SMP_FRAME_HI_FRAME : Fld := ⟨.OB_SMP_FRAME_HI, 31, 0⟩
/-- OB_TRACE_STATUS.TRIGGERED (W1C; R454). -/
def OB_TRACE_STATUS_TRIGGERED : Fld := ⟨.OB_TRACE_STATUS, 7, 7⟩
/-- OB_TRACE_STATUS.STATE (RO; R454). -/
def OB_TRACE_STATUS_STATE : Fld := ⟨.OB_TRACE_STATUS, 2, 0⟩
/-- OB_TRACE_WPTR.NEXT (RO; R454). -/
def OB_TRACE_WPTR_NEXT : Fld := ⟨.OB_TRACE_WPTR, 31, 0⟩
/-- OB_TRACE_TRIG_IDX.X (RO; R454). -/
def OB_TRACE_TRIG_IDX_X : Fld := ⟨.OB_TRACE_TRIG_IDX, 31, 0⟩
/-- OB_TRACE_TRIG_FRAME_LO.FRAME (RO; R454). -/
def OB_TRACE_TRIG_FRAME_LO_FRAME : Fld := ⟨.OB_TRACE_TRIG_FRAME_LO, 31, 0⟩
/-- OB_TRACE_TRIG_FRAME_HI.FRAME (RO; R454). -/
def OB_TRACE_TRIG_FRAME_HI_FRAME : Fld := ⟨.OB_TRACE_TRIG_FRAME_HI, 31, 0⟩
/-- OB_TRACE_DROP.COUNT (RO; R454). -/
def OB_TRACE_DROP_COUNT : Fld := ⟨.OB_TRACE_DROP, 31, 0⟩
/-- OB_TRACE_WRAPS.COUNT (RO; R454). -/
def OB_TRACE_WRAPS_COUNT : Fld := ⟨.OB_TRACE_WRAPS, 31, 0⟩
/-- OB_BRK_STATUS.MISSED (RO; R454). -/
def OB_BRK_STATUS_MISSED : Fld := ⟨.OB_BRK_STATUS, 31, 16⟩
/-- OB_BRK_STATUS.DRAINED (RO; R454). -/
def OB_BRK_STATUS_DRAINED : Fld := ⟨.OB_BRK_STATUS, 8, 8⟩
/-- OB_BRK_STATUS.HALTED (RO; R454). -/
def OB_BRK_STATUS_HALTED : Fld := ⟨.OB_BRK_STATUS, 7, 0⟩
/-- MC_PWR_CAP.CAP (RO; R468). -/
def MC_PWR_CAP_CAP : Fld := ⟨.MC_PWR_CAP, 15, 0⟩
/-- MC_PWR_STATUS.FAST (W1C; R468). -/
def MC_PWR_STATUS_FAST : Fld := ⟨.MC_PWR_STATUS, 31, 31⟩
/-- MC_PWR_STATUS.P (RO; R468). -/
def MC_PWR_STATUS_P : Fld := ⟨.MC_PWR_STATUS, 18, 16⟩
/-- MC_PWR_STATUS.POWER (RO; R468). -/
def MC_PWR_STATUS_POWER : Fld := ⟨.MC_PWR_STATUS, 15, 0⟩
/-- MC_DIE_CTRL.STOP (RW, TX; R468). -/
def MC_DIE_CTRL_STOP : Fld := ⟨.MC_DIE_CTRL, 3, 0⟩
/-- MC_TH_STATUS.SHUTDOWN (W1C; R468). -/
def MC_TH_STATUS_SHUTDOWN : Fld := ⟨.MC_TH_STATUS, 31, 31⟩
/-- MC_TH_STATUS.ALERT (W1C; R468). -/
def MC_TH_STATUS_ALERT : Fld := ⟨.MC_TH_STATUS, 8, 8⟩
/-- MC_TH_STATUS.LP_HOT (RO; R468). -/
def MC_TH_STATUS_LP_HOT : Fld := ⟨.MC_TH_STATUS, 6, 6⟩
/-- MC_TH_STATUS.HBM_HOT (RO; R468). -/
def MC_TH_STATUS_HBM_HOT : Fld := ⟨.MC_TH_STATUS, 5, 5⟩
/-- MC_TH_STATUS.HUB_HOT (RO; R468). -/
def MC_TH_STATUS_HUB_HOT : Fld := ⟨.MC_TH_STATUS, 4, 4⟩
/-- MC_TH_STATUS.CD_HOT (RO; R468). -/
def MC_TH_STATUS_CD_HOT : Fld := ⟨.MC_TH_STATUS, 3, 0⟩
/-- MC_DIE_STEP.STEP (RO; R468). -/
def MC_DIE_STEP_STEP : Fld := ⟨.MC_DIE_STEP, 26, 24⟩
/-- MC_DIE_STEP.THERM (RO; R468). -/
def MC_DIE_STEP_THERM : Fld := ⟨.MC_DIE_STEP, 18, 16⟩
/-- MC_DIE_STEP.HBM_HI (RO; R468). -/
def MC_DIE_STEP_HBM_HI : Fld := ⟨.MC_DIE_STEP, 14, 12⟩
/-- MC_DIE_STEP.HBM_LO (RO; R468). -/
def MC_DIE_STEP_HBM_LO : Fld := ⟨.MC_DIE_STEP, 10, 8⟩
/-- MC_DIE_STEP.STOPPED (RO; R468). -/
def MC_DIE_STEP_STOPPED : Fld := ⟨.MC_DIE_STEP, 0, 0⟩

end Fld

end Sys2Proof.Machine
end

