-- ==== Sys2Proof/Machine/RegMap.lean ====
section
/-! DEFINITION. What the register tables say of every register: reset value, access of its bits (R13), the TX mark (R50), the
bits that a reset keeps (R16), and where the register lies in BAR0. -/

namespace Sys2Proof.Machine

/-- A register's description: its value after reset and the masks of its access codes (R13, R16, R50). `keep` holds the fields whose Reset
column says held, fused or start; a held field starts at 0 unless a log entry names another value. -/
structure RegDesc where
  reset : Word
  tx : Word
  rw : Word
  w1c : Word
  w1s : Word
  wo : Word
  keep : Word
  deriving DecidableEq, Repr

/-- The register tables of the spec, one row a register. Fused values: HC_ID, HC_CONTRACT and HC_FRAME as R308 gives them, HC_FEAT0 with every
feature present (log entry 2); SP_LAYOUT.COUNT 1 (log entry 1). -/
def RegName.desc : RegName → RegDesc
  | .WEIR_COUNT => ⟨0x0#32, 0x0#32, 0x0#32, 0x0#32, 0x0#32, 0x0#32, 0x0#32⟩
  | .WEIR_LEVEL => ⟨0xffffffff#32, 0xffffffff#32, 0x0#32, 0x0#32, 0x0#32, 0x0#32, 0x0#32⟩
  | .WEIR_SIGNAL => ⟨0x0#32, 0x0#32, 0x0#32, 0x0#32, 0x0#32, 0xffffffff#32, 0x0#32⟩
  | .WEIR_CTRL => ⟨0x0#32, 0xc1#32, 0x0#32, 0x4#32, 0x0#32, 0x2#32, 0x0#32⟩
  | .FC_FRAME_NUM_LO => ⟨0x0#32, 0x0#32, 0x0#32, 0x0#32, 0x0#32, 0x0#32, 0x0#32⟩
  | .FC_FRAME_NUM_HI => ⟨0x0#32, 0x0#32, 0x0#32, 0x0#32, 0x0#32, 0x0#32, 0x0#32⟩
  | .FC_FRAME_LEN => ⟨0xc000c#32, 0x1f0000#32, 0x0#32, 0x0#32, 0x0#32, 0x0#32, 0x0#32⟩
  | .FC_FRAME_LEN_AT_LO => ⟨0x0#32, 0xffffffff#32, 0x0#32, 0x0#32, 0x0#32, 0x0#32, 0x0#32⟩
  | .FC_FRAME_LEN_AT_HI => ⟨0x0#32, 0xffffffff#32, 0x0#32, 0x0#32, 0x0#32, 0x0#32, 0x0#32⟩
  | .FC_OVERRUN_COUNT => ⟨0x0#32, 0x0#32, 0x0#32, 0x0#32, 0x0#32, 0x0#32, 0x0#32⟩
  | .FC_OVERRUN_SRC => ⟨0x0#32, 0x0#32, 0x0#32, 0x80000000#32, 0x0#32, 0x0#32, 0x0#32⟩
  | .FC_OVERRUN_FRAME_LO => ⟨0x0#32, 0x0#32, 0x0#32, 0x0#32, 0x0#32, 0x0#32, 0x0#32⟩
  | .FC_OVERRUN_FRAME_HI => ⟨0x0#32, 0x0#32, 0x0#32, 0x0#32, 0x0#32, 0x0#32, 0x0#32⟩
  | .FC_CT_SEL => ⟨0x0#32, 0x0#32, 0xf#32, 0x0#32, 0x0#32, 0x0#32, 0x0#32⟩
  | .FC_CT_CMD => ⟨0x0#32, 0x0#32, 0x0#32, 0x0#32, 0x0#32, 0xf03#32, 0x0#32⟩
  | .FC_CT_STATUS => ⟨0x0#32, 0x0#32, 0x0#32, 0x8000#32, 0x0#32, 0x0#32, 0x0#32⟩
  | .FC_SYNC_CTRL => ⟨0x4000#32, 0xff01#32, 0x0#32, 0x0#32, 0x0#32, 0x0#32, 0x0#32⟩
  | .FC_SYNC_STATUS => ⟨0x0#32, 0x0#32, 0x0#32, 0x2#32, 0x0#32, 0x0#32, 0x0#32⟩
  | .FC_DET_STATUS => ⟨0x0#32, 0x0#32, 0x0#32, 0xf#32, 0x0#32, 0x0#32, 0x0#32⟩
  | .EX_PCS_CTRL => ⟨0xba0000#32, 0xc30000ff#32, 0x0#32, 0x0#32, 0x0#32, 0x0#32, 0x0#32⟩
  | .EX_PCS_SCALE => ⟨0x0#32, 0xffff#32, 0x0#32, 0x0#32, 0x0#32, 0x0#32, 0x0#32⟩
  | .EX_PCS_TABLE => ⟨0x0#32, 0xffffffff#32, 0x0#32, 0x0#32, 0x0#32, 0x0#32, 0x0#32⟩
  | .FA_STATUS => ⟨0x0#32, 0x0#32, 0x0#32, 0xf#32, 0x0#32, 0x0#32, 0x0#32⟩
  | .EX_CV_FLAGS => ⟨0x0#32, 0x0#32, 0x0#32, 0xff#32, 0x0#32, 0x0#32, 0x0#32⟩
  | .DU_CV_FLAGS => ⟨0x0#32, 0x0#32, 0x0#32, 0xff#32, 0x0#32, 0x0#32, 0x0#32⟩
  | .FA_ACTIVE => ⟨0x0#32, 0x0#32, 0x0#32, 0x0#32, 0x0#32, 0x0#32, 0x0#32⟩
  | .ACB_RGN_RANGE => ⟨0x0#32, 0x3ff01ff#32, 0x0#32, 0x0#32, 0x0#32, 0x0#32, 0x0#32⟩
  | .ACB_RGN_CTRL => ⟨0x0#32, 0xff000001#32, 0x0#32, 0x0#32, 0x0#32, 0x0#32, 0x0#32⟩
  | .ACB_RGN_SLOT => ⟨0x0#32, 0xfff#32, 0x0#32, 0x0#32, 0x0#32, 0x0#32, 0x0#32⟩
  | .ACB_RGN_DEST => ⟨0x0#32, 0x3fffff#32, 0x0#32, 0x0#32, 0x0#32, 0x0#32, 0x0#32⟩
  | .RA_STATUS => ⟨0x0#32, 0x0#32, 0x0#32, 0x7#32, 0x0#32, 0x0#32, 0x0#32⟩
  | .RA_ACTIVE => ⟨0x0#32, 0x0#32, 0x0#32, 0x0#32, 0x0#32, 0x0#32, 0x0#32⟩
  | .DU_BWD_FLAGS => ⟨0x0#32, 0x0#32, 0x0#32, 0xff#32, 0x0#32, 0x0#32, 0x0#32⟩
  | .DU_ROW_STATUS => ⟨0x0#32, 0x0#32, 0x0#32, 0xf#32, 0x0#32, 0x0#32, 0x0#32⟩
  | .XZ_CV_FLAGS => ⟨0x0#32, 0x0#32, 0x0#32, 0xff#32, 0x0#32, 0x0#32, 0x0#32⟩
  | .ST_STATUS => ⟨0x0#32, 0x0#32, 0x0#32, 0x3e#32, 0x0#32, 0x80000000#32, 0x0#32⟩
  | .ST_BLK_SAT => ⟨0x0#32, 0x0#32, 0x0#32, 0x0#32, 0x0#32, 0x0#32, 0x0#32⟩
  | .ST_BLK_ZERO => ⟨0x0#32, 0x0#32, 0x0#32, 0x0#32, 0x0#32, 0x0#32, 0x0#32⟩
  | .ST_SHADOW_CTRL => ⟨0x8#32, 0xf#32, 0x0#32, 0x0#32, 0x0#32, 0x0#32, 0x0#32⟩
  | .ST_SHADOW_THR => ⟨0x6040201#32, 0x1f1f1f1f#32, 0x0#32, 0x0#32, 0x0#32, 0x0#32, 0x0#32⟩
  | .ST_SHADOW_CHECKED => ⟨0x0#32, 0x0#32, 0x0#32, 0x0#32, 0x0#32, 0x0#32, 0x0#32⟩
  | .ST_SHADOW_DISAGREE => ⟨0x0#32, 0x0#32, 0x0#32, 0x0#32, 0x0#32, 0x0#32, 0x0#32⟩
  | .ST_SHADOW_FIRST => ⟨0x0#32, 0x0#32, 0x0#32, 0x80000000#32, 0x0#32, 0x0#32, 0x0#32⟩
  | .ST_SHADOW_FRAME_LO => ⟨0x0#32, 0x0#32, 0x0#32, 0x0#32, 0x0#32, 0x0#32, 0x0#32⟩
  | .ST_SHADOW_FRAME_HI => ⟨0x0#32, 0x0#32, 0x0#32, 0x0#32, 0x0#32, 0x0#32, 0x0#32⟩
  | .GS_CTRL => ⟨0x646800#32, 0xecffff00#32, 0x0#32, 0x0#32, 0x0#32, 0x0#32, 0x0#32⟩
  | .GS_BASE => ⟨0x7f#32, 0xff#32, 0x0#32, 0x100#32, 0x0#32, 0x0#32, 0x0#32⟩
  | .GS_OFS_ADDR_LO => ⟨0x0#32, 0xffffffff#32, 0x0#32, 0x0#32, 0x0#32, 0x0#32, 0x0#32⟩
  | .GS_OFS_ADDR_HI => ⟨0x0#32, 0xffff#32, 0x0#32, 0x0#32, 0x0#32, 0x0#32, 0x0#32⟩
  | .GS_FLAG_ADDR_LO => ⟨0x0#32, 0xffffffff#32, 0x0#32, 0x0#32, 0x0#32, 0x0#32, 0x0#32⟩
  | .GS_FLAG_ADDR_HI => ⟨0x0#32, 0xffff#32, 0x0#32, 0x0#32, 0x0#32, 0x0#32, 0x0#32⟩
  | .GS_POLICY => ⟨0x1c080080#32, 0xffff00f0#32, 0x0#32, 0x0#32, 0x0#32, 0x0#32, 0x0#32⟩
  | .GS_BLOCKS => ⟨0x0#32, 0xffffff#32, 0x0#32, 0x0#32, 0x0#32, 0x0#32, 0x0#32⟩
  | .SC_REPLAY_CTRL => ⟨0x6020001#32, 0xf070101#32, 0x0#32, 0x0#32, 0x0#32, 0x0#32, 0x0#32⟩
  | .SC_REPLAY_STATUS => ⟨0x0#32, 0x0#32, 0x0#32, 0x1e#32, 0x0#32, 0x0#32, 0x0#32⟩
  | .SC_REPLAY_COUNT => ⟨0x0#32, 0x0#32, 0x0#32, 0x0#32, 0x0#32, 0x0#32, 0x0#32⟩
  | .TS_ECC_CORR => ⟨0x0#32, 0x0#32, 0x0#32, 0x0#32, 0x0#32, 0x0#32, 0x0#32⟩
  | .TS_ECC_UNCORR => ⟨0x0#32, 0x0#32, 0x0#32, 0x0#32, 0x0#32, 0x0#32, 0x0#32⟩
  | .CE_STATUS => ⟨0x0#32, 0x0#32, 0x0#32, 0x0#32, 0x0#32, 0x0#32, 0x0#32⟩
  | .CE_CV_FLAGS => ⟨0x0#32, 0x0#32, 0x0#32, 0xff#32, 0x0#32, 0x0#32, 0x0#32⟩
  | .TD_IDX_CTRL => ⟨0x0#32, 0x1#32, 0x0#32, 0x0#32, 0x0#32, 0x80000000#32, 0x0#32⟩
  | .TD_IDX_COUNT => ⟨0x0#32, 0x0#32, 0x0#32, 0x0#32, 0x0#32, 0x0#32, 0x0#32⟩
  | .TD_IDX_FIRST => ⟨0x0#32, 0x0#32, 0x0#32, 0x80000000#32, 0x0#32, 0x0#32, 0x0#32⟩
  | .TD_IDX_POS => ⟨0x0#32, 0x0#32, 0x0#32, 0x0#32, 0x0#32, 0x0#32, 0x0#32⟩
  | .TD_IDX_VALUE_LO => ⟨0x0#32, 0x0#32, 0x0#32, 0x0#32, 0x0#32, 0x0#32, 0x0#32⟩
  | .TD_IDX_VALUE_HI => ⟨0x0#32, 0x0#32, 0x0#32, 0x0#32, 0x0#32, 0x0#32, 0x0#32⟩
  | .TD_IDX_FRAME_LO => ⟨0x0#32, 0x0#32, 0x0#32, 0x0#32, 0x0#32, 0x0#32, 0x0#32⟩
  | .TD_IDX_FRAME_HI => ⟨0x0#32, 0x0#32, 0x0#32, 0x0#32, 0x0#32, 0x0#32, 0x0#32⟩
  | .TD_DESC_USED => ⟨0x0#32, 0x0#32, 0x0#32, 0x0#32, 0x0#32, 0x0#32, 0x0#32⟩
  | .MT_QUOTA_HBM => ⟨0x0#32, 0x0#32, 0x0#32, 0x0#32, 0x0#32, 0x0#32, 0xffffffff#32⟩
  | .MT_QUOTA_LP => ⟨0x0#32, 0x0#32, 0x0#32, 0x0#32, 0x0#32, 0x0#32, 0xffffffff#32⟩
  | .MT_TIER_USED_HBM => ⟨0x0#32, 0x0#32, 0x0#32, 0x0#32, 0x0#32, 0x0#32, 0xffffffff#32⟩
  | .MT_TIER_USED_LP => ⟨0x0#32, 0x0#32, 0x0#32, 0x0#32, 0x0#32, 0x0#32, 0xffffffff#32⟩
  | .MT_MIG_CTRL => ⟨0x4#32, 0x3f#32, 0x0#32, 0x0#32, 0x0#32, 0x0#32, 0x0#32⟩
  | .MT_ZEROING => ⟨0x0#32, 0x0#32, 0x0#32, 0x0#32, 0x0#32, 0x0#32, 0xffffffff#32⟩
  | .MT_OBJ_COUNT => ⟨0x0#32, 0x0#32, 0x0#32, 0x0#32, 0x0#32, 0x0#32, 0x1ffff#32⟩
  | .MT_MIG_ACTIVE => ⟨0x0#32, 0x0#32, 0x0#32, 0x0#32, 0x0#32, 0x0#32, 0x0#32⟩
  | .MT_TLB_MISS => ⟨0x0#32, 0x0#32, 0x0#32, 0x0#32, 0x0#32, 0x0#32, 0x0#32⟩
  | .MT_BAR2_STATUS => ⟨0x0#32, 0x0#32, 0x0#32, 0x7#32, 0x0#32, 0x0#32, 0x0#32⟩
  | .MT_NMR_STATUS => ⟨0x0#32, 0x0#32, 0x0#32, 0xf#32, 0x0#32, 0x0#32, 0x0#32⟩
  | .MT_ECC_CTRL => ⟨0x1#32, 0x1#32, 0x0#32, 0x0#32, 0x0#32, 0x80000000#32, 0x0#32⟩
  | .MT_ECC_CORR_HBM => ⟨0x0#32, 0x0#32, 0x0#32, 0x0#32, 0x0#32, 0x0#32, 0x0#32⟩
  | .MT_ECC_CORR_LP => ⟨0x0#32, 0x0#32, 0x0#32, 0x0#32, 0x0#32, 0x0#32, 0x0#32⟩
  | .MT_ECC_UNCORR => ⟨0x0#32, 0x0#32, 0x0#32, 0x0#32, 0x0#32, 0x0#32, 0x0#32⟩
  | .MT_ECC_FIRST => ⟨0x0#32, 0x0#32, 0x0#32, 0x80000000#32, 0x0#32, 0x0#32, 0x0#32⟩
  | .MT_ECC_OFS => ⟨0x0#32, 0x0#32, 0x0#32, 0x0#32, 0x0#32, 0x0#32, 0x0#32⟩
  | .MT_ECC_WHEN_LO => ⟨0x0#32, 0x0#32, 0x0#32, 0x0#32, 0x0#32, 0x0#32, 0x0#32⟩
  | .MT_ECC_WHEN_HI => ⟨0x0#32, 0x0#32, 0x0#32, 0x0#32, 0x0#32, 0x0#32, 0x0#32⟩
  | .MT_RETIRED => ⟨0x0#32, 0x0#32, 0x0#32, 0x0#32, 0x0#32, 0x0#32, 0xffffffff#32⟩
  | .MT_THERM_STATUS => ⟨0x0#32, 0x0#32, 0x0#32, 0x0#32, 0x0#32, 0x0#32, 0x0#32⟩
  | .MT_BAR2_BASE_LO => ⟨0x0#32, 0xffe00000#32, 0x0#32, 0x0#32, 0x0#32, 0x0#32, 0x0#32⟩
  | .MT_BAR2_BASE_HI => ⟨0x0#32, 0xffff#32, 0x0#32, 0x0#32, 0x0#32, 0x0#32, 0x0#32⟩
  | .UE_GROUP_CTRL => ⟨0x0#32, 0x8ff8fff0#32, 0x0#32, 0x0#32, 0x0#32, 0x0#32, 0x8ff8fff0#32⟩
  | .UE_GROUP_LRX => ⟨0x0#32, 0x0#32, 0x0#32, 0x0#32, 0x0#32, 0x0#32, 0xff#32⟩
  | .UE_GROUP_LR => ⟨0x0#32, 0xffffffff#32, 0x0#32, 0x0#32, 0x0#32, 0x0#32, 0xffffffff#32⟩
  | .UE_GROUP_WD => ⟨0x0#32, 0xffffffff#32, 0x0#32, 0x0#32, 0x0#32, 0x0#32, 0xffffffff#32⟩
  | .UE_GROUP_BETA1 => ⟨0x0#32, 0xffffffff#32, 0x0#32, 0x0#32, 0x0#32, 0x0#32, 0xffffffff#32⟩
  | .UE_GROUP_BETA2 => ⟨0x0#32, 0xffffffff#32, 0x0#32, 0x0#32, 0x0#32, 0x0#32, 0xffffffff#32⟩
  | .UE_GROUP_EPS => ⟨0x0#32, 0xffffffff#32, 0x0#32, 0x0#32, 0x0#32, 0x0#32, 0xffffffff#32⟩
  | .UE_GROUP_GSCALE => ⟨0x0#32, 0xffffffff#32, 0x0#32, 0x0#32, 0x0#32, 0x0#32, 0xffffffff#32⟩
  | .UE_GROUP_B1POW => ⟨0x0#32, 0xffffffff#32, 0x0#32, 0x0#32, 0x0#32, 0x0#32, 0xffffffff#32⟩
  | .UE_GROUP_B2POW => ⟨0x0#32, 0xffffffff#32, 0x0#32, 0x0#32, 0x0#32, 0x0#32, 0xffffffff#32⟩
  | .UE_GROUP_BASE_LO => ⟨0x0#32, 0xffffffff#32, 0x0#32, 0x0#32, 0x0#32, 0x0#32, 0xffffffff#32⟩
  | .UE_GROUP_BASE_HI => ⟨0x0#32, 0xffff#32, 0x0#32, 0x0#32, 0x0#32, 0x0#32, 0xffff#32⟩
  | .UE_GROUP_COUNT_LO => ⟨0x0#32, 0xffffffff#32, 0x0#32, 0x0#32, 0x0#32, 0x0#32, 0xffffffff#32⟩
  | .UE_GROUP_COUNT_HI => ⟨0x0#32, 0xffff00ff#32, 0x0#32, 0x0#32, 0x0#32, 0x0#32, 0xffff00ff#32⟩
  | .UE_GROUP_STEPS => ⟨0x0#32, 0x0#32, 0x0#32, 0x0#32, 0x0#32, 0x0#32, 0xffffffff#32⟩
  | .UE_RG_CTRL => ⟨0x0#32, 0x3f3f0f00#32, 0x0#32, 0x0#32, 0x0#32, 0x0#32, 0x3f3f0f00#32⟩
  | .UE_VOTE_CTRL => ⟨0x0#32, 0x1#32, 0x0#32, 0x0#32, 0x0#32, 0x0#32, 0x1#32⟩
  | .UE_VOTE_AT => ⟨0x0#32, 0xffffffff#32, 0x0#32, 0x0#32, 0x0#32, 0x0#32, 0xffffffff#32⟩
  | .UE_VOTE_TIMEOUTS => ⟨0x20004000#32, 0xffffffff#32, 0x0#32, 0x0#32, 0x0#32, 0x0#32, 0x0#32⟩
  | .UE_VOTE_WORD => ⟨0x0#32, 0x0#32, 0x0#32, 0x0#32, 0x0#32, 0x0#32, 0x0#32⟩
  | .UE_VOTE_LOCAL => ⟨0x0#32, 0x0#32, 0x0#32, 0x0#32, 0x0#32, 0x0#32, 0x0#32⟩
  | .UE_VOTE_HOST => ⟨0x0#32, 0xc000ffff#32, 0x0#32, 0x0#32, 0x0#32, 0x0#32, 0x0#32⟩
  | .UE_VOTE_HOST_AT_LO => ⟨0x0#32, 0xffffffff#32, 0x0#32, 0x0#32, 0x0#32, 0x0#32, 0x0#32⟩
  | .UE_VOTE_HOST_AT_HI => ⟨0x0#32, 0xffffffff#32, 0x0#32, 0x0#32, 0x0#32, 0x0#32, 0x0#32⟩
  | .UE_VOTE_MISSING_LO => ⟨0x0#32, 0x0#32, 0x0#32, 0x0#32, 0x0#32, 0x0#32, 0x0#32⟩
  | .UE_VOTE_MISSING_HI => ⟨0x0#32, 0x0#32, 0x0#32, 0x0#32, 0x0#32, 0x0#32, 0x0#32⟩
  | .UE_CLIP_MAX => ⟨0x0#32, 0xffffffff#32, 0x0#32, 0x0#32, 0x0#32, 0x0#32, 0xffffffff#32⟩
  | .UE_GNORM => ⟨0x0#32, 0x0#32, 0x0#32, 0x0#32, 0x0#32, 0x0#32, 0x0#32⟩
  | .UE_CLIP_FACTOR => ⟨0x0#32, 0x0#32, 0x0#32, 0x0#32, 0x0#32, 0x0#32, 0x0#32⟩
  | .UE_BKT_STATUS => ⟨0x0#32, 0x0#32, 0x0#32, 0x0#32, 0x0#32, 0x0#32, 0x0#32⟩
  | .UE_BKT_FIRST_FAIL => ⟨0x0#32, 0x0#32, 0x0#32, 0x80000000#32, 0x0#32, 0x0#32, 0x0#32⟩
  | .UE_STATUS => ⟨0x0#32, 0x0#32, 0x0#32, 0xf#32, 0x0#32, 0x0#32, 0x0#32⟩
  | .UE_STEP_LO => ⟨0x0#32, 0x0#32, 0x0#32, 0x0#32, 0x0#32, 0x0#32, 0xffffffff#32⟩
  | .UE_STEP_HI => ⟨0x0#32, 0x0#32, 0x0#32, 0x0#32, 0x0#32, 0x0#32, 0xffffffff#32⟩
  | .CQ_ALERT_CTRL => ⟨0x0#32, 0x870007ff#32, 0x0#32, 0x0#32, 0x0#32, 0x0#32, 0x0#32⟩
  | .CQ_ALERT_CAUSE => ⟨0x0#32, 0x0#32, 0x0#32, 0xff#32, 0x0#32, 0x0#32, 0x0#32⟩
  | .MQ_CTRL => ⟨0x0#32, 0xfff#32, 0x0#32, 0x0#32, 0x0#32, 0x0#32, 0x0#32⟩
  | .MQ_TAIL => ⟨0x0#32, 0x0#32, 0x0#32, 0x0#32, 0x0#32, 0xf#32, 0x0#32⟩
  | .MQ_HEAD => ⟨0x0#32, 0x0#32, 0x0#32, 0x0#32, 0x0#32, 0x0#32, 0x0#32⟩
  | .HC_ID => ⟨0x4801a100#32, 0x0#32, 0x0#32, 0x0#32, 0x0#32, 0x0#32, 0xffffff00#32⟩
  | .HC_CONTRACT => ⟨0x2#32, 0x0#32, 0x0#32, 0x0#32, 0x0#32, 0x0#32, 0xffffffff#32⟩
  | .HC_FEAT0 => ⟨0x3ff#32, 0x0#32, 0x0#32, 0x0#32, 0x0#32, 0x0#32, 0x3ff#32⟩
  | .HC_TILES => ⟨0x0#32, 0x0#32, 0x0#32, 0x0#32, 0x0#32, 0x0#32, 0xffffffff#32⟩
  | .HC_QUEUE_RANGE => ⟨0x0#32, 0x0#32, 0x0#32, 0x0#32, 0x0#32, 0x0#32, 0xffffffff#32⟩
  | .HC_POLDER => ⟨0x0#32, 0x0#32, 0x0#32, 0x0#32, 0x0#32, 0x0#32, 0x1f3#32⟩
  | .HC_FRAME => ⟨0x20a#32, 0x0#32, 0x0#32, 0x0#32, 0x0#32, 0x0#32, 0x3ff#32⟩
  | .CQ_CTRL => ⟨0x0#32, 0xfff0#32, 0x0#32, 0x0#32, 0x0#32, 0x0#32, 0x1c000000#32⟩
  | .CQ_RING_LO => ⟨0x0#32, 0xfffff000#32, 0x0#32, 0x0#32, 0x0#32, 0x0#32, 0x0#32⟩
  | .CQ_RING_HI => ⟨0x0#32, 0xffff#32, 0x0#32, 0x0#32, 0x0#32, 0x0#32, 0x0#32⟩
  | .CQ_SIZES => ⟨0x40006#32, 0x1f001f#32, 0x0#32, 0x0#32, 0x0#32, 0x0#32, 0x0#32⟩
  | .CQ_CPL_LO => ⟨0x0#32, 0xfffff000#32, 0x0#32, 0x0#32, 0x0#32, 0x0#32, 0x0#32⟩
  | .CQ_CPL_HI => ⟨0x0#32, 0xffffffff#32, 0x0#32, 0x0#32, 0x0#32, 0x0#32, 0x0#32⟩
  | .CQ_TAIL => ⟨0x0#32, 0x0#32, 0x0#32, 0x0#32, 0x0#32, 0xffff#32, 0x0#32⟩
  | .CQ_HEAD => ⟨0x0#32, 0x0#32, 0x0#32, 0x0#32, 0x0#32, 0x0#32, 0x0#32⟩
  | .CQ_CPL_HEAD => ⟨0x0#32, 0x0#32, 0xffff#32, 0x0#32, 0x0#32, 0x0#32, 0x0#32⟩
  | .CQ_CPL_TAIL => ⟨0x0#32, 0x0#32, 0x0#32, 0x0#32, 0x0#32, 0x0#32, 0x0#32⟩
  | .CQ_STATE => ⟨0x0#32, 0x0#32, 0x0#32, 0x20#32, 0x0#32, 0x0#32, 0x0#32⟩
  | .CQ_CMD => ⟨0x0#32, 0x0#32, 0x0#32, 0x0#32, 0x0#32, 0x7#32, 0x0#32⟩
  | .CQ_SEQ => ⟨0x0#32, 0x0#32, 0x0#32, 0x0#32, 0x0#32, 0x0#32, 0x0#32⟩
  | .CQ_ERR_SEQ => ⟨0x0#32, 0x0#32, 0x0#32, 0x0#32, 0x0#32, 0x0#32, 0x0#32⟩
  | .ZL_CTRL => ⟨0x1#32, 0x1#32, 0x0#32, 0x0#32, 0x0#32, 0x6#32, 0x0#32⟩
  | .ZL_STATUS => ⟨0x0#32, 0x0#32, 0x0#32, 0x70#32, 0x0#32, 0x0#32, 0x0#32⟩
  | .ZL_PEER => ⟨0x0#32, 0x0#32, 0x0#32, 0x0#32, 0x0#32, 0x0#32, 0x0#32⟩
  | .ZL_FEC_CORR => ⟨0x0#32, 0x0#32, 0x0#32, 0x0#32, 0x0#32, 0x0#32, 0x0#32⟩
  | .ZL_CRC_ERR => ⟨0x0#32, 0x0#32, 0x0#32, 0x0#32, 0x0#32, 0x0#32, 0x0#32⟩
  | .ZL_RETRY => ⟨0x0#32, 0x0#32, 0x0#32, 0x0#32, 0x0#32, 0x0#32, 0x0#32⟩
  | .ZL_SKEW => ⟨0x0#32, 0x0#32, 0x0#32, 0x0#32, 0x0#32, 0x0#32, 0x0#32⟩
  | .ZL_PROTO_ERR => ⟨0x0#32, 0x0#32, 0x0#32, 0x0#32, 0x0#32, 0x0#32, 0x0#32⟩
  | .ZL_DROP => ⟨0x0#32, 0x0#32, 0x0#32, 0x0#32, 0x0#32, 0x0#32, 0x0#32⟩
  | .ZL_CREDIT => ⟨0x0#32, 0x0#32, 0x0#32, 0x0#32, 0x0#32, 0x0#32, 0x0#32⟩
  | .ZL_PEER_FRAME_LO => ⟨0x0#32, 0x0#32, 0x0#32, 0x0#32, 0x0#32, 0x0#32, 0x0#32⟩
  | .ZL_PEER_FRAME_HI => ⟨0x0#32, 0x0#32, 0x0#32, 0x0#32, 0x0#32, 0x0#32, 0x0#32⟩
  | .ZL_NODE => ⟨0x0#32, 0xf#32, 0x0#32, 0x0#32, 0x0#32, 0x0#32, 0xff#32⟩
  | .ZL_TOPO => ⟨0x0#32, 0x7#32, 0x0#32, 0x0#32, 0x0#32, 0x0#32, 0x0#32⟩
  | .ZL_RESV => ⟨0x0#32, 0xf#32, 0x0#32, 0x0#32, 0x0#32, 0x0#32, 0x0#32⟩
  | .ZL_SUBST => ⟨0x0#32, 0x8000000f#32, 0x0#32, 0x0#32, 0x0#32, 0x0#32, 0x0#32⟩
  | .ZL_SUBST_AT_LO => ⟨0x0#32, 0xffffffff#32, 0x0#32, 0x0#32, 0x0#32, 0x0#32, 0x0#32⟩
  | .ZL_SUBST_AT_HI => ⟨0x0#32, 0xffffffff#32, 0x0#32, 0x0#32, 0x0#32, 0x0#32, 0x0#32⟩
  | .ZL_SUBST_STATUS => ⟨0x0#32, 0x0#32, 0x0#32, 0x80000000#32, 0x0#32, 0x0#32, 0x0#32⟩
  | .ZL_REJOIN => ⟨0x0#32, 0x8000001f#32, 0x0#32, 0x0#32, 0x0#32, 0x0#32, 0x0#32⟩
  | .ZL_REJOIN_STATUS => ⟨0x0#32, 0x0#32, 0x0#32, 0x3#32, 0x0#32, 0x0#32, 0x0#32⟩
  | .ZL_ROUTE => ⟨0x0#32, 0xcf0f00ff#32, 0x0#32, 0x0#32, 0x0#32, 0x0#32, 0x0#32⟩
  | .ZL_RANK => ⟨0x0#32, 0x8000003f#32, 0x0#32, 0x0#32, 0x0#32, 0x0#32, 0x0#32⟩
  | .MC_HANG_CTRL => ⟨0x80100602#32, 0x80ff0f03#32, 0x0#32, 0x0#32, 0x0#32, 0x0#32, 0x0#32⟩
  | .MC_HANG_FIRST => ⟨0x0#32, 0x0#32, 0x0#32, 0x80000000#32, 0x0#32, 0x0#32, 0x0#32⟩
  | .MC_HANG_FRAME_LO => ⟨0x0#32, 0x0#32, 0x0#32, 0x0#32, 0x0#32, 0x0#32, 0x0#32⟩
  | .MC_HANG_FRAME_HI => ⟨0x0#32, 0x0#32, 0x0#32, 0x0#32, 0x0#32, 0x0#32, 0x0#32⟩
  | .MC_HANG_COUNT => ⟨0x0#32, 0x0#32, 0x0#32, 0x0#32, 0x0#32, 0x0#32, 0xffffffff#32⟩
  | .MC_CLK_STATUS => ⟨0x0#32, 0x0#32, 0x0#32, 0x0#32, 0x0#32, 0x0#32, 0x0#32⟩
  | .MC_CDC_STATUS => ⟨0x0#32, 0x0#32, 0x0#32, 0x0#32, 0x0#32, 0x0#32, 0x0#32⟩
  | .MC_RESET_STATUS => ⟨0x0#32, 0x0#32, 0x0#32, 0x1#32, 0x0#32, 0x0#32, 0x0#32⟩
  | .MC_SNAP_STATUS => ⟨0x0#32, 0x0#32, 0x0#32, 0x80000000#32, 0x0#32, 0x0#32, 0x0#32⟩
  | .MC_START_STATUS => ⟨0x0#32, 0x0#32, 0x0#32, 0x0#32, 0x0#32, 0x0#32, 0xffff00#32⟩
  | .MC_LEDGER_CTRL => ⟨0x0#32, 0x1#32, 0x0#32, 0x0#32, 0x0#32, 0xc0000000#32, 0x1#32⟩
  | .MC_TILE_FAILED_LO => ⟨0x0#32, 0x0#32, 0x0#32, 0x0#32, 0x0#32, 0x0#32, 0x0#32⟩
  | .MC_TILE_FAILED_HI => ⟨0x0#32, 0x0#32, 0x0#32, 0x0#32, 0x0#32, 0x0#32, 0xf0000#32⟩
  | .MC_SPARE_CTRL => ⟨0xf#32, 0xf#32, 0x0#32, 0x0#32, 0x0#32, 0x0#32, 0x0#32⟩
  | .MC_TILE_REMAP => ⟨0x0#32, 0x8300003f#32, 0x0#32, 0x0#32, 0x0#32, 0x8300003f#32, 0x0#32⟩
  | .ME_CKPT_RESTORE => ⟨0x0#32, 0x8000ffff#32, 0x0#32, 0x0#32, 0x0#32, 0x8000ffff#32, 0x0#32⟩
  | .ME_CKPT_STATUS => ⟨0x0#32, 0x0#32, 0x0#32, 0x60000000#32, 0x0#32, 0x0#32, 0x0#32⟩
  | .BC_CTRL => ⟨0xc0000040#32, 0xc00000ff#32, 0x0#32, 0x0#32, 0x0#32, 0x20000000#32, 0x0#32⟩
  | .BC_FIRST_FAIL => ⟨0x0#32, 0x0#32, 0x0#32, 0x80000000#32, 0x0#32, 0x0#32, 0x0#32⟩
  | .BC_FAIL_ADDR => ⟨0x0#32, 0x0#32, 0x0#32, 0x0#32, 0x0#32, 0x0#32, 0x0#32⟩
  | .BC_FAIL_FRAME_LO => ⟨0x0#32, 0x0#32, 0x0#32, 0x0#32, 0x0#32, 0x0#32, 0x0#32⟩
  | .BC_FAIL_FRAME_HI => ⟨0x0#32, 0x0#32, 0x0#32, 0x0#32, 0x0#32, 0x0#32, 0x0#32⟩
  | .BC_SLICES_DONE => ⟨0x0#32, 0x0#32, 0x0#32, 0x0#32, 0x0#32, 0x0#32, 0x0#32⟩
  | .BC_SLICES_FAILED => ⟨0x0#32, 0x0#32, 0x0#32, 0x0#32, 0x0#32, 0x0#32, 0x0#32⟩
  | .BC_STARVED => ⟨0x0#32, 0x0#32, 0x0#32, 0x0#32, 0x0#32, 0x0#32, 0x0#32⟩
  | .BC_TILE_STATUS => ⟨0x0#32, 0x0#32, 0x0#32, 0x20000000#32, 0x0#32, 0x0#32, 0x40003f00#32⟩
  | .SP_LAYOUT => ⟨0x1#32, 0x0#32, 0x0#32, 0x0#32, 0x0#32, 0x0#32, 0xff#32⟩
  | .SP_DEBUG => ⟨0x0#32, 0x0#32, 0x0#32, 0x0#32, 0x0#32, 0x0#32, 0x3#32⟩
  | .SP_FUNC_BIND => ⟨0x0#32, 0x3#32, 0x0#32, 0x0#32, 0x0#32, 0x0#32, 0x3#32⟩
  | .SP_CONF => ⟨0x0#32, 0x0#32, 0x0#32, 0x4#32, 0x0#32, 0x0#32, 0x3#32⟩
  | .SP_DIKE_DENIED => ⟨0x0#32, 0x0#32, 0x0#32, 0x0#32, 0x0#32, 0x0#32, 0x0#32⟩
  | .SP_IMPORT_STATUS => ⟨0x0#32, 0x0#32, 0x0#32, 0x80000000#32, 0x0#32, 0x0#32, 0x0#32⟩
  | .SP_SEAL_STATUS => ⟨0x0#32, 0x0#32, 0x0#32, 0x1#32, 0x0#32, 0x0#32, 0x0#32⟩
  | .OB_BANK_CTRL => ⟨0x0#32, 0x0#32, 0x1f#32, 0x0#32, 0x0#32, 0xc0000000#32, 0x0#32⟩
  | .OB_BANK_STATUS => ⟨0x0#32, 0x0#32, 0x0#32, 0x0#32, 0x0#32, 0x0#32, 0x0#32⟩
  | .OB_SMP_SEQ => ⟨0x0#32, 0x0#32, 0x0#32, 0x0#32, 0x0#32, 0x0#32, 0x0#32⟩
  | .OB_SMP_FRAME_LO => ⟨0x0#32, 0x0#32, 0x0#32, 0x0#32, 0x0#32, 0x0#32, 0x0#32⟩
  | .OB_SMP_FRAME_HI => ⟨0x0#32, 0x0#32, 0x0#32, 0x0#32, 0x0#32, 0x0#32, 0x0#32⟩
  | .OB_TRACE_STATUS => ⟨0x0#32, 0x0#32, 0x0#32, 0x80#32, 0x0#32, 0x0#32, 0x0#32⟩
  | .OB_TRACE_WPTR => ⟨0x0#32, 0x0#32, 0x0#32, 0x0#32, 0x0#32, 0x0#32, 0x0#32⟩
  | .OB_TRACE_TRIG_IDX => ⟨0x0#32, 0x0#32, 0x0#32, 0x0#32, 0x0#32, 0x0#32, 0x0#32⟩
  | .OB_TRACE_TRIG_FRAME_LO => ⟨0x0#32, 0x0#32, 0x0#32, 0x0#32, 0x0#32, 0x0#32, 0x0#32⟩
  | .OB_TRACE_TRIG_FRAME_HI => ⟨0x0#32, 0x0#32, 0x0#32, 0x0#32, 0x0#32, 0x0#32, 0x0#32⟩
  | .OB_TRACE_DROP => ⟨0x0#32, 0x0#32, 0x0#32, 0x0#32, 0x0#32, 0x0#32, 0x0#32⟩
  | .OB_TRACE_WRAPS => ⟨0x0#32, 0x0#32, 0x0#32, 0x0#32, 0x0#32, 0x0#32, 0x0#32⟩
  | .OB_BRK_STATUS => ⟨0x0#32, 0x0#32, 0x0#32, 0x0#32, 0x0#32, 0x0#32, 0x0#32⟩
  | .MC_PWR_CAP => ⟨0xc80#32, 0x0#32, 0x0#32, 0x0#32, 0x0#32, 0x0#32, 0x0#32⟩
  | .MC_PWR_STATUS => ⟨0x0#32, 0x0#32, 0x0#32, 0x80000000#32, 0x0#32, 0x0#32, 0x0#32⟩
  | .MC_DIE_CTRL => ⟨0x0#32, 0xf#32, 0x0#32, 0x0#32, 0x0#32, 0x0#32, 0x0#32⟩
  | .MC_TH_STATUS => ⟨0x0#32, 0x0#32, 0x0#32, 0x80000100#32, 0x0#32, 0x0#32, 0x80000000#32⟩
  | .MC_DIE_STEP => ⟨0x0#32, 0x0#32, 0x0#32, 0x0#32, 0x0#32, 0x0#32, 0x0#32⟩
  | .MC_LEDGER => ⟨0x0#32, 0x0#32, 0x0#32, 0x0#32, 0x0#32, 0x0#32, 0xffffffff#32⟩

/-- The smallest reset domain of a register block (R16, R383). -/
inductive RegDom where
  | hub | module | tile | die | ce | link | bank
  deriving DecidableEq, Repr

/-- How a block's index names its owner: nothing, a function, a polder, a queue, a weir, a group, a slot, a die (with a number of
entries for each), a tile (with entries for each), a counter bank, a rank map. -/
inductive RegOwn where
  | none | func | polder | queue | weir | group | slot | bank | dieNo | die4 | die52 | tile | tile16 | tile256 | tile2048 | rank
  deriving DecidableEq, Repr

/-- A block of registers: base in BAR0, the strides and counts of its indices from the outermost, and the registers at their offsets. -/
structure RegBlk where
  dom : RegDom
  own : RegOwn
  base : Nat
  dims : List (Nat × Nat)
  regs : List (Nat × RegName)
  deriving DecidableEq, Repr

/-- The register blocks of BAR0, at the bases that the tables' rules give. -/
def regBlks : List RegBlk := [
  -- common (R308)
  ⟨.hub, .none, 0x0, [],
   [(0x0, .HC_ID), (0x4, .HC_CONTRACT), (0x8, .HC_FEAT0), (0xc, .HC_TILES), (0x10, .HC_QUEUE_RANGE), (0x14, .HC_POLDER), (0x18, .HC_FRAME)]⟩,
  -- alert (R303)
  ⟨.hub, .polder, 0x1000, [(0x40, 4)],
   [(0x0, .CQ_ALERT_CTRL), (0x4, .CQ_ALERT_CAUSE)]⟩,
  -- mgmt queue (R304)
  ⟨.module, .func, 0x8000, [(0x2000, 8)],
   [(0x1100, .MQ_CTRL), (0x1104, .MQ_TAIL), (0x1108, .MQ_HEAD)]⟩,
  -- queue (R310)
  ⟨.hub, .queue, 0x100000, [(0x40, 16384)],
   [(0x0, .CQ_CTRL), (0x4, .CQ_RING_LO), (0x8, .CQ_RING_HI), (0xc, .CQ_SIZES), (0x10, .CQ_CPL_LO), (0x14, .CQ_CPL_HI), (0x18, .CQ_TAIL), (0x1c, .CQ_HEAD), (0x20, .CQ_CPL_HEAD), (0x24, .CQ_CPL_TAIL), (0x28, .CQ_STATE), (0x2c, .CQ_CMD), (0x30, .CQ_SEQ), (0x34, .CQ_ERR_SEQ)]⟩,
  -- weir (R58)
  ⟨.hub, .weir, 0x200000, [(0x10, 16384)],
   [(0x0, .WEIR_COUNT), (0x4, .WEIR_LEVEL), (0x8, .WEIR_SIGNAL), (0xc, .WEIR_CTRL)]⟩,
  -- frame (R65)
  ⟨.hub, .none, 0x300000, [],
   [(0x0, .FC_FRAME_NUM_LO), (0x4, .FC_FRAME_NUM_HI), (0x8, .FC_FRAME_LEN), (0x10, .FC_FRAME_LEN_AT_LO), (0x14, .FC_FRAME_LEN_AT_HI), (0x20, .FC_OVERRUN_COUNT), (0x24, .FC_OVERRUN_SRC), (0x28, .FC_OVERRUN_FRAME_LO), (0x2c, .FC_OVERRUN_FRAME_HI), (0x40, .FC_CT_SEL), (0x44, .FC_CT_CMD), (0x48, .FC_CT_STATUS), (0x60, .FC_SYNC_CTRL), (0x64, .FC_SYNC_STATUS), (0x70, .FC_DET_STATUS)]⟩,
  -- memory polder (R241)
  ⟨.hub, .polder, 0x400000, [(0x100, 4)],
   [(0x0, .MT_QUOTA_HBM), (0x4, .MT_QUOTA_LP), (0x8, .MT_TIER_USED_HBM), (0xc, .MT_TIER_USED_LP), (0x10, .MT_MIG_CTRL), (0x14, .MT_ZEROING), (0x18, .MT_OBJ_COUNT), (0x1c, .MT_MIG_ACTIVE), (0x20, .MT_TLB_MISS), (0x24, .MT_BAR2_STATUS), (0x28, .MT_NMR_STATUS)]⟩,
  -- memory module (R242)
  ⟨.hub, .none, 0x401000, [],
   [(0x0, .MT_ECC_CTRL), (0x4, .MT_ECC_CORR_HBM), (0x8, .MT_ECC_CORR_LP), (0xc, .MT_ECC_UNCORR), (0x10, .MT_ECC_FIRST), (0x14, .MT_ECC_OFS), (0x18, .MT_ECC_WHEN_LO), (0x1c, .MT_ECC_WHEN_HI), (0x20, .MT_RETIRED), (0x24, .MT_THERM_STATUS)]⟩,
  -- aperture (R242)
  ⟨.hub, .func, 0x402000, [(0x10, 8)],
   [(0x0, .MT_BAR2_BASE_LO), (0x4, .MT_BAR2_BASE_HI)]⟩,
  -- index errors (R210)
  ⟨.hub, .polder, 0x4f0000, [(0x40, 4)],
   [(0x0, .TD_IDX_CTRL), (0x4, .TD_IDX_COUNT), (0x8, .TD_IDX_FIRST), (0xc, .TD_IDX_POS), (0x10, .TD_IDX_VALUE_LO), (0x14, .TD_IDX_VALUE_HI), (0x18, .TD_IDX_FRAME_LO), (0x1c, .TD_IDX_FRAME_HI), (0x20, .TD_DESC_USED)]⟩,
  -- group (R273)
  ⟨.hub, .group, 0x500000, [(0x40, 4096)],
   [(0x0, .UE_GROUP_CTRL), (0x4, .UE_GROUP_LRX), (0x8, .UE_GROUP_LR), (0xc, .UE_GROUP_WD), (0x10, .UE_GROUP_BETA1), (0x14, .UE_GROUP_BETA2), (0x18, .UE_GROUP_EPS), (0x1c, .UE_GROUP_GSCALE), (0x20, .UE_GROUP_B1POW), (0x24, .UE_GROUP_B2POW), (0x28, .UE_GROUP_BASE_LO), (0x2c, .UE_GROUP_BASE_HI), (0x30, .UE_GROUP_COUNT_LO), (0x34, .UE_GROUP_COUNT_HI), (0x38, .UE_GROUP_STEPS)]⟩,
  -- update (R276)
  ⟨.hub, .polder, 0x540000, [(0x100, 4)],
   [(0x0, .UE_RG_CTRL), (0x4, .UE_VOTE_CTRL), (0x8, .UE_VOTE_AT), (0xc, .UE_VOTE_TIMEOUTS), (0x10, .UE_VOTE_WORD), (0x14, .UE_VOTE_LOCAL), (0x18, .UE_VOTE_HOST), (0x1c, .UE_VOTE_HOST_AT_LO), (0x20, .UE_VOTE_HOST_AT_HI), (0x24, .UE_VOTE_MISSING_LO), (0x28, .UE_VOTE_MISSING_HI), (0x2c, .UE_CLIP_MAX), (0x30, .UE_GNORM), (0x34, .UE_CLIP_FACTOR), (0x38, .UE_BKT_STATUS), (0x3c, .UE_BKT_FIRST_FAIL), (0x40, .UE_STATUS), (0x44, .UE_STEP_LO), (0x48, .UE_STEP_HI)]⟩,
  -- gradient slot (R183)
  ⟨.hub, .slot, 0x580000, [(0x20, 4096)],
   [(0x0, .GS_CTRL), (0x4, .GS_BASE), (0x8, .GS_OFS_ADDR_LO), (0xc, .GS_OFS_ADDR_HI), (0x10, .GS_FLAG_ADDR_LO), (0x14, .GS_FLAG_ADDR_HI), (0x18, .GS_POLICY), (0x1c, .GS_BLOCKS)]⟩,
  -- replay (R184)
  ⟨.hub, .polder, 0x5a0000, [(0x40, 4)],
   [(0x0, .SC_REPLAY_CTRL), (0x4, .SC_REPLAY_STATUS), (0x8, .SC_REPLAY_COUNT)]⟩,
  -- trace (R454)
  ⟨.hub, .polder, 0x600000, [(0x100, 4)],
   [(0x0, .OB_TRACE_STATUS), (0x4, .OB_TRACE_WPTR), (0x8, .OB_TRACE_TRIG_IDX), (0xc, .OB_TRACE_TRIG_FRAME_LO), (0x10, .OB_TRACE_TRIG_FRAME_HI), (0x14, .OB_TRACE_DROP), (0x18, .OB_TRACE_WRAPS), (0x40, .OB_BRK_STATUS)]⟩,
  -- counter bank (R453)
  ⟨.bank, .bank, 0x610000, [(0x1000, 8)],
   [(0x0, .OB_BANK_CTRL), (0x4, .OB_BANK_STATUS)]⟩,
  -- management controller (R400)
  ⟨.module, .none, 0x680000, [],
   [(0x0, .MC_HANG_CTRL), (0x4, .MC_HANG_FIRST), (0x8, .MC_HANG_FRAME_LO), (0xc, .MC_HANG_FRAME_HI), (0x10, .MC_HANG_COUNT), (0x14, .MC_CLK_STATUS), (0x18, .MC_CDC_STATUS), (0x20, .MC_RESET_STATUS), (0x24, .MC_SNAP_STATUS), (0x30, .MC_START_STATUS), (0x34, .MC_LEDGER_CTRL), (0x60, .MC_SPARE_CTRL), (0x64, .MC_TILE_REMAP)]⟩,
  -- failed tiles (R400)
  ⟨.module, .dieNo, 0x680040, [(0x8, 4)],
   [(0x0, .MC_TILE_FAILED_LO), (0x4, .MC_TILE_FAILED_HI)]⟩,
  -- restore (R400)
  ⟨.module, .polder, 0x680070, [(0x8, 4)],
   [(0x0, .ME_CKPT_RESTORE), (0x4, .ME_CKPT_STATUS)]⟩,
  -- ledger (R400)
  ⟨.module, .none, 0x681000, [(0x4, 256)],
   [(0x0, .MC_LEDGER)]⟩,
  -- power (R468)
  ⟨.module, .none, 0x681800, [],
   [(0x0, .MC_PWR_CAP), (0x4, .MC_PWR_STATUS), (0x8, .MC_DIE_CTRL), (0xc, .MC_TH_STATUS)]⟩,
  -- die step (R468)
  ⟨.module, .dieNo, 0x681810, [(0x4, 4)],
   [(0x0, .MC_DIE_STEP)]⟩,
  -- security (R434)
  ⟨.module, .none, 0x700000, [],
   [(0x0, .SP_LAYOUT), (0x4, .SP_DEBUG)]⟩,
  -- binding (R434)
  ⟨.module, .none, 0x700010, [(0x4, 8)],
   [(0x0, .SP_FUNC_BIND)]⟩,
  -- security polder (R434)
  ⟨.hub, .polder, 0x700100, [(0x20, 4)],
   [(0x0, .SP_CONF), (0x4, .SP_DIKE_DENIED), (0x8, .SP_IMPORT_STATUS), (0xc, .SP_SEAL_STATUS)]⟩,
  -- tile (R123)
  ⟨.tile, .tile, 0x1200000, [(0x800000, 4), (0x100, 48)],
   [(0x0, .FA_STATUS), (0x4, .EX_CV_FLAGS), (0x8, .DU_CV_FLAGS), (0xc, .FA_ACTIVE), (0x10, .RA_STATUS), (0x14, .RA_ACTIVE), (0x18, .DU_BWD_FLAGS), (0x1c, .DU_ROW_STATUS), (0x20, .XZ_CV_FLAGS), (0x24, .ST_STATUS), (0x28, .ST_BLK_SAT), (0x2c, .ST_BLK_ZERO), (0x30, .ST_SHADOW_CTRL), (0x34, .ST_SHADOW_THR), (0x38, .ST_SHADOW_CHECKED), (0x3c, .ST_SHADOW_DISAGREE), (0x40, .ST_SHADOW_FIRST), (0x44, .ST_SHADOW_FRAME_LO), (0x48, .ST_SHADOW_FRAME_HI), (0x50, .TS_ECC_CORR), (0x54, .TS_ECC_UNCORR)]⟩,
  -- accumulation region (R151)
  ⟨.tile, .tile16, 0x1300000, [(0x800000, 4), (0x400, 48), (0x10, 16)],
   [(0x0, .ACB_RGN_RANGE), (0x4, .ACB_RGN_CTRL), (0x8, .ACB_RGN_SLOT), (0xc, .ACB_RGN_DEST)]⟩,
  -- per-channel entry (R104)
  ⟨.tile, .tile256, 0x1400000, [(0x800000, 4), (0x4000, 48), (0x2000, 2), (0x40, 128)],
   [(0x0, .EX_PCS_CTRL), (0x4, .EX_PCS_SCALE)]⟩,
  -- per-channel table (R104)
  ⟨.tile, .tile2048, 0x1400008, [(0x800000, 4), (0x4000, 48), (0x2000, 2), (0x40, 128), (0x4, 8)],
   [(0x0, .EX_PCS_TABLE)]⟩,
  -- copy engine (R209)
  ⟨.ce, .die4, 0x1500000, [(0x800000, 4), (0x100, 4)],
   [(0x0, .CE_STATUS), (0x4, .CE_CV_FLAGS)]⟩,
  -- self-test (R414)
  ⟨.die, .dieNo, 0x1600000, [(0x800000, 4)],
   [(0x0, .BC_CTRL), (0x4, .BC_FIRST_FAIL), (0x8, .BC_FAIL_ADDR), (0xc, .BC_FAIL_FRAME_LO), (0x10, .BC_FAIL_FRAME_HI), (0x14, .BC_SLICES_DONE), (0x18, .BC_SLICES_FAILED), (0x1c, .BC_STARVED)]⟩,
  -- tile status (R414)
  ⟨.die, .die52, 0x1600100, [(0x800000, 4), (0x4, 52)],
   [(0x0, .BC_TILE_STATUS)]⟩,
  -- link (R372)
  ⟨.link, .none, 0x3000000, [(0x100, 32)],
   [(0x0, .ZL_CTRL), (0x4, .ZL_STATUS), (0x8, .ZL_PEER), (0xc, .ZL_FEC_CORR), (0x10, .ZL_CRC_ERR), (0x14, .ZL_RETRY), (0x18, .ZL_SKEW), (0x1c, .ZL_PROTO_ERR), (0x20, .ZL_DROP), (0x24, .ZL_CREDIT), (0x28, .ZL_PEER_FRAME_LO), (0x2c, .ZL_PEER_FRAME_HI)]⟩,
  -- links (R373)
  ⟨.hub, .none, 0x3004000, [],
   [(0x0, .ZL_NODE), (0x4, .ZL_TOPO), (0x8, .ZL_RESV), (0xc, .ZL_SUBST), (0x10, .ZL_SUBST_AT_LO), (0x14, .ZL_SUBST_AT_HI), (0x18, .ZL_SUBST_STATUS), (0x1c, .ZL_REJOIN), (0x20, .ZL_REJOIN_STATUS)]⟩,
  -- route (R374)
  ⟨.hub, .none, 0x3005000, [(0x4, 64)],
   [(0x0, .ZL_ROUTE)]⟩,
  -- rank map (R374)
  ⟨.hub, .rank, 0x3006000, [(0x100, 4), (0x4, 64)],
   [(0x0, .ZL_RANK)]⟩]

/-- The index and the offset in the block that a relative address gives, by the block's dimensions from the outermost. -/
def walkDims : List (Nat × Nat) → Nat → Nat → Option (Nat × Nat)
  | [], rel, idx => some (idx, rel)
  | (stride, count) :: ds, rel, idx =>
    if rel / stride < count then walkDims ds (rel % stride) (idx * count + rel / stride) else none

/-- The register at a BAR0 offset in one block. -/
def RegBlk.at (b : RegBlk) (off : Nat) : Option (RegName × Nat) :=
  if off < b.base then none else
  match walkDims b.dims (off - b.base) 0 with
  | some (idx, r) => (b.regs.lookup r).map fun n => (n, idx)
  | none => none

/-- The register at a BAR0 offset, by the first block that has it. -/
def regAt (off : Nat) : Option (RegName × Nat) := regBlks.findSome? (·.at off)

/-- The BAR0 offset of the block's index idx, from the innermost dimension outward. -/
def unwalk : List (Nat × Nat) → Nat → Nat
  | [], _ => 0
  | (stride, count) :: ds, idx =>
    let inner := (ds.map (·.2)).foldl (· * ·) 1
    stride * (idx / inner % count) + unwalk ds (idx % inner)

/-- The block that holds a register name. -/
def RegName.blk (n : RegName) : Option RegBlk := regBlks.find? fun b => b.regs.any fun r => r.2 = n

/-- The BAR0 offset of a register. -/
def RegName.addr (n : RegName) (idx : Nat) : Nat :=
  match n.blk with
  | some b => match b.regs.find? fun r => r.2 = n with
    | some (o, _) => b.base + unwalk b.dims idx + o
    | none => 0
  | none => 0

end Sys2Proof.Machine
end

