-- ==== Sys2Proof/Machine/State.lean ====
section
/-! DEFINITION. The state of the module as plain data, its stops, and the state after reset. -/

namespace Sys2Proof.Machine

/-- A sparse table: pairs of key and value, keys strictly rising. -/
structure Tbl (α : Type) where
  cells : List (Nat × α)
  deriving DecidableEq, Repr

/-- The empty table. -/
def Tbl.empty {α : Type} : Tbl α := ⟨[]⟩

/-- What the module sends outward at its ports, in the order it sends it. -/
inductive Out where
  /-- A memory write request of a function: a reply (R280) or data of HOST_OUT (R331). -/
  | hostWrite (fn : Nat) (addr : Nat) (data : List Byte)
  /-- An MSI-X message: address and data of the vector (R301). -/
  | msix (fn vec : Nat) (addr : DWord) (data : Word)
  /-- A completion with data for a register read. -/
  | completion (fn : Nat) (value : DWord) (len : Nat)
  /-- A completion with data for a BAR2 read; poisoned as R236 says. -/
  | dataCompletion (fn : Nat) (data : List Byte) (poisoned : Bool)
  /-- A completion with Unsupported Request (R240, R494). -/
  | unsupported (fn : Nat)
  /-- A completion with Completer Abort (R379, R384). -/
  | abortCompletion (fn : Nat)
  /-- A flit of a link, 256 bytes: header, payload, CRC and parity (R350, R351). -/
  | flit (link : Nat) (bytes : List Byte)
  /-- The training flits of a link, with what they carry (R347). -/
  | training (link : Nat) (id : PeerId)
  /-- An I3C response: status byte and data (R500), or the data of a common command code. -/
  | i3c (data : List Byte)
  /-- An I3C in-band interrupt with its mandatory data byte (R502). -/
  | inBand (data : Byte)
  /-- An SPDM response of a function's mailbox (R424). -/
  | spdm (fn : Nat) (data : List Byte)
  /-- Data of a test data register (R413, R504). -/
  | tdo (bits : Nat) (len : Nat)
  deriving DecidableEq, Repr

/-- The block's ports and the model's own counter of free values. `free` is the MODEL's field: opaque free values are drawn from it
(log entry 6). -/
structure Io where
  out : List Out
  free : Nat
  deriving DecidableEq, Repr

/-- A registered write waiting for step 5 of its sluice (R53). -/
structure RegWr where
  fn : Nat
  reg : RegName
  idx : Nat
  val : Word
  deriving DecidableEq, Repr

/-- A flag that hardware sets in the frame: the bits to set at the sluice after software's clears (R15). -/
structure FlagSet where
  reg : RegName
  idx : Nat
  bits : Word
  deriving DecidableEq, Repr

/-- The register store: values that differ from reset by key, staged writes, flags of the frame, held high words of 64-bit writes and latched
high words of 64-bit reads (R17). -/
structure Regs where
  vals : Tbl Word
  stage : List RegWr
  flags : List FlagSet
  held : Tbl Word
  latch : Tbl Word
  /-- Counters of confidential polders as at the last sluice whose frame is a multiple of 4,096 (R422). -/
  coarse : Tbl Word
  deriving DecidableEq, Repr

/-- A TX write held in a slot: the register and the value of its TX bits (R50). `refused`: the dike refuses it (R51). -/
structure TxWr where
  reg : RegName
  idx : Nat
  val : Word
  refused : Bool
  deriving DecidableEq, Repr

/-- The states of a configuration transaction slot (R50); closed carries the order in which closes were received (R51). -/
inductive SlotSt where
  | free | opened | closed (order : Nat)
  deriving DecidableEq, Repr

/-- A configuration transaction slot (R50 to R54). -/
structure CtSlot where
  st : SlotSt
  writes : List TxWr
  failed : Bool
  err : Nat
  deriving DecidableEq, Repr

/-- Configuration transactions: slots by function * 16 + slot, abandons staged for the sluice (R54), and the count of closes received. -/
structure Cts where
  slots : Tbl CtSlot
  abandons : List (Nat × Nat)
  closes : Nat
  deriving DecidableEq, Repr

/-- A weir signal staged for a sluice: the weir, the amount, the sequence number of the signalling command, 0 for none, and the engine that staged it,
if one of R42 did (R43, R55, R443); `src` is the source as a trace header codes it: DIE at bit 22, KIND at bit 16, UNIT (R442). -/
structure Sig where
  weir : Nat
  add : Nat
  seq : Nat
  eng : Option Engine := none
  src : Nat := 8 * 65536
  deriving DecidableEq, Repr

/-- Weir signals and clears staged in the frame (R55, R58, R290), the weirs that released at the sluice last taken (R447), and by weir the source of the signal
that brought its count to the level (R443). -/
structure Weirs where
  sigs : List Sig
  clears : List Nat
  released : List Nat
  by_ : Tbl Nat
  deriving DecidableEq, Repr

/-- The states of a command queue (R281). -/
inductive QState where
  | disabled | running | paused | error
  deriving DecidableEq, Repr

/-- CQ_CMD operations (R281). -/
inductive QOp where
  | enable | pause | resume | reset
  deriving DecidableEq, Repr

/-- A command queue's own state behind its registers (R281 to R285, R297 to R299, R310). -/
structure Queue where
  state : QState
  head : Nat
  tail : Nat
  cplHead : Nat
  cplTail : Nat
  /-- PHASE of the next reply (R281, R296). -/
  phase : Bool
  seq : Nat
  errStatus : Nat
  errSeq : Nat
  badDoorbell : Bool
  cplFull : Bool
  /-- RESET received, DISABLED at the first sluice with nothing in flight (R281). -/
  resetting : Bool
  /-- Slots from `head` on that acceptance has already taken, before CQ_HEAD moves past them (R286). -/
  taken : Nat
  deriving DecidableEq, Repr

/-- One unit of engine capacity that a command holds (R286). -/
inductive Cap where
  | fwd (tile : Nat) | rev (tile : Nat) | row (tile : Nat)
  | ce (die n : Nat) | me (die n : Nat)
  | fsq (die n : Nat)
  | hostIn | hostOut | update | importer
  | staging (pol obj : Nat)
  | step (pol : Nat)
  deriving DecidableEq, Repr

/-- A pending wait: weir and limit (R57, R289). -/
structure WaitOn where
  weir : Nat
  limit : Nat
  deriving DecidableEq, Repr

/-- Where a command stands: accepted, its checks passed, granted capacity for the frame that is running, executing, with its work retired into a step transaction
whose outcome decides it, or with its outcome decided and its reply not yet posted (R286, R290, R292). -/
inductive Phase where
  | accepted | ready | granted | running | held | decided
  deriving DecidableEq, Repr

/-- A masked write: an address, a value and the bits of the byte it writes. -/
structure WCell where
  addr : Nat
  val : Byte
  mask : Byte
  deriving DecidableEq, Repr

/-- What a reducer is asked to add (R230): the element's format by width and kind, and the contribution as an exact binary value
(`special` 1 NaN, 2 +infinity, 3 -infinity; otherwise sign, magnitude and exponent) or an integer. -/
structure Contrib where
  addr : Nat
  kind : Nat
  special : Nat
  neg : Bool
  mag : Nat
  exp : Int
  deriving DecidableEq, Repr

/-- A contribution to an accumulation region entry or a collector position, an exact value (R121, R146). -/
structure Deliver where
  at_ : Nat
  special : Nat
  neg : Bool
  mag : Nat
  exp : Int
  deriving DecidableEq, Repr

/-- A stored descriptor's 64 bytes with its bookkeeping: the frame it was created in, destroyed in (visible from the next), its object (R196 to R198). -/
structure Desc where
  words : List Word
  created : Nat
  obj : Nat
  stale : Bool
  deriving DecidableEq, Repr

/-- An allocated object (R215 to R217, R220). -/
structure Obj where
  base : Nat
  pages : Nat
  tier : Nat
  affinity : Nat
  readonly : Bool
  window : Bool
  anchor : Int
  /-- The first frame in which it is usable (R216). -/
  since : Nat
  deriving DecidableEq, Repr

/-- A page entry (R222); an unlisted page is not VALID. -/
structure PageEnt where
  tier : Nat
  migrating : Bool
  readonly : Bool
  cow : Bool
  retire : Bool
  obj : Nat
  frame : Nat
  deriving DecidableEq, Repr

/-- A memory controller: its zeroed free frames and its zeroing queue as ranges of frames, the frames for which it has zeroed the queue's head, whether the start
disabled it, and the frames of the patrol pass that are behind it (R218, R220, R237, R239, R389). -/
structure Ctl where
  free : List (Nat × Nat)
  zq : List (Nat × Nat)
  zdone : Nat
  disabled : Bool
  patrol : Nat
  deriving DecidableEq, Repr

/-- A page in migration: its polder and page, its destination, and how many of its 32 sub-blocks are AT_DEST (R223): they are copied in rising order; the
next is COPYING in the frame that stages its copy, and the others are AT_SOURCE. -/
structure Mig where
  pol : Nat
  page : Nat
  tier : Nat
  frame : Nat
  moved : Nat
  deriving DecidableEq, Repr

/-- A checkpoint being taken (R338, R394): polder, object, ranges (address, bytes), C, sub-blocks already copied (by their number in range order),
and the frame in which copying began. -/
structure Ckpt where
  pol : Nat
  obj : Nat
  ranges : List (Nat × Nat)
  at_ : Nat
  copied : List Nat
  /-- The frames over which the pending sub-blocks are copied (R394). -/
  span : Nat
  deriving DecidableEq, Repr

/-- A restore in progress (R396): polder, object, and sub-blocks copied so far. -/
structure Restore where
  pol : Nat
  obj : Nat
  copied : Nat
  began : Nat
  span : Nat
  deriving DecidableEq, Repr

/-- Device memory (08_memory_tiers.md): contents by physical byte address in canonical form, poisoned granules, page entries by polder and page,
objects by polder and number, controllers, the pages of each polder's system and recovery areas, and work in progress. -/
structure Mem where
  cells : List Host.Cell
  poison : List Nat
  pages : Tbl PageEnt
  objs : Tbl Obj
  ctls : Tbl Ctl
  sysArea : List (Nat × Nat × Nat)
  recovery : List (Nat × Nat × Nat)
  migs : List Mig
  ckpts : List Ckpt
  restores : List Restore
  deriving DecidableEq, Repr

/-- A loaded step program (R335, R336): header addresses of its programs in list order, base seed, result-buffer addresses of its buckets, slots, groups,
staging objects, and the frame schedule hash. `heads` are the headers as they were read, 16 words each (R319). -/
structure StepProg where
  progs : List Nat
  heads : List (List Nat)
  seed : Nat
  buckets : List Nat
  slots : List Nat
  groups : List Nat
  stages : List Nat
  hash : Nat
  deriving DecidableEq, Repr

/-- A breakpoint (R447, R452): the core by kind (0 HCP, 1 FSQ, 2 TSQ) and place, scope POLDER, condition WEIR, and the value. -/
structure Brk where
  core : Nat
  die : Nat
  tile : Nat
  index : Nat
  polder : Bool
  weir : Bool
  value : Nat
  deriving DecidableEq, Repr

/-- Where a tensor's bytes lie: device memory of a polder, or a tile's SRAM. -/
inductive Loc where
  | dev (p : Nat)
  | sram (t : Nat)
  deriving DecidableEq, Repr

/-- A descriptor's fields (R192). -/
structure Td where
  grid : Bool
  space : Nat
  index : Bool
  axis : Nat
  padv : Nat
  nullNeg : Bool
  writable : Bool
  cvc : Cvc
  aft : List Nat
  bef : List Nat
  ext : List Nat
  bank : Nat
  useSlot : Bool
  slot : Nat
  base : Nat
  stride : List Nat
  sbase : Nat
  deriving DecidableEq, Repr

/-- How a tensor's elements are encoded: its format, block size, rounding and subnormal mode, and the gradient slot it follows with the slot's mode
and base scale as latched (R68, R143, R160). -/
structure Enc where
  fmt : Fmt
  blk : Nat
  rnd : Bool
  sub : Bool
  slot : Option Nat
  delayed : Bool
  base : Nat
  deriving DecidableEq, Repr

/-- An operand: its handle, descriptor, place, region and encoding, and the offset of its TREF in the parameter block. -/
structure Opd where
  po : Nat
  handle : Nat
  td : Td
  loc : Loc
  off : List Nat
  ext : List Nat
  enc : Enc
  deriving DecidableEq, Repr

/-- Who a command's work is for: its polder, STEP, seed, place in the order of earliness, the frame program that gives it, if one does, and what the work starts from. -/
structure Ctx where
  pol : Nat
  fn : Nat
  step : Bool
  seed : Nat
  ord : Nat
  /-- The work takes its lanes from no step: a stand-alone command's draws start anew from its seed (R87). -/
  fresh : Bool
  prog : Option Runner
  /-- The draw states of the converting lanes at the start (R87). -/
  lanes : Tbl Nat
  /-- The descriptors that the work may name, where a RUN_PROGRAM latched them (R198, R320). -/
  handles : Option (List (Nat × Desc))
  /-- A number that tells the work from others: the MODEL's (log entry 6). -/
  work : Nat
  deriving DecidableEq, Repr

/-- The operands of a product. -/
structure FwdOpds where
  x : Opd
  w : Opd
  y : Option Opd
  bias : Option Opd
  save : Option Opd
  res : Option Opd
  deriving DecidableEq, Repr

/-- An effect that a command or an engine stages in a frame, applied at the frame's sluice (R32, R45). -/
inductive Eff where
  /-- A data write into a polder's device memory (R45 step 3). -/
  | mem (pol : Nat) (cells : List WCell)
  /-- Granules of a polder's memory written as poisoned (R331). -/
  | poison (pol : Nat) (granules : List Nat)
  /-- A write into a tile's SRAM. -/
  | sram (tile : Nat) (cells : List WCell)
  /-- A write into a tile's SRAM that commits with the polder's open step (R177). -/
  | sramStep (pol tile : Nat) (cells : List WCell)
  /-- A sub-block of a window fill: the source as committed at the sluice before (R233, R234). -/
  | copyRange (pol src dst n : Nat)
  /-- Pages enter migration with their destination frames (R223, R224); a sub-block of a page is copied. -/
  | migStart (pol : Nat) (l : List Mig)
  | migSub (pol page k : Nat)
  /-- A physical page takes RETIRE in the page entry that names it (R236). -/
  | retire (id : Nat)
  /-- Bytes of HOST_OUT or of a checkpoint's drain, by the command's queue and sequence number, from a device address to a host address (R331, R395). -/
  | toHost (pol fn q seq dev host n : Nat)
  /-- A chunk of an import, by the command and the chunk's number (R430); the record of an import's failure (R434). -/
  | importChunk (pol q seq i : Nat)
  | importFail (pol reason slot chunk : Nat)
  /-- Contributions to a polder's near-memory reducers (R230). -/
  | reduce (pol : Nat) (cs : List Contrib)
  /-- Poisoned data was consumed: the polder's open step is abandoned at the sluice (R236). -/
  | uncorr (pol : Nat)
  /-- Contributions of one product or row operation, by its work's number, to an accumulation region of a tile (R146). -/
  | acb (tile rgn work : Nat) (ds : List Deliver)
  /-- Deliveries to a collector: exact values at positions, or bytes at an offset, by the number of the delivering work and the place of its
  command in the order of earliness, if it has one (R120). -/
  | coll (n : Nat) (ds : List Deliver)
  | collBytes (n work : Nat) (ord : Option Nat) (at_ : Nat) (data : List Byte)
  /-- Output tiles of a forward product, by their numbers in the product's order, that start in the frame in which they are staged and drain `span` frames later: the product's
  context, block and operands as latched (R96, R103, R118). -/
  | fwdTile (c : Ctx) (ps : List Word) (o : FwdOpds) (ts : List Nat) (span : Nat)
  | collOpen (n pol mode : Nat)
  /-- A collector's contents go to an address of its polder, and it is freed (R122, R321). -/
  | collClose (n pol dest : Nat)
  /-- A per-channel entry: ten words, control, scale, tables (R104). -/
  | pcs (idx : Nat) (words : List Word)
  /-- A register's new value, and a saturating count. -/
  | reg (name : RegName) (idx : Nat) (v : Word)
  /-- Bits of a register take new values, its others stay (R328). -/
  | regBits (name : RegName) (idx : Nat) (mask v : Word)
  | count (name : RegName) (idx : Nat) (n : Nat)
  /-- A saturating count in a field. -/
  | countFld (f : Fld) (idx : Nat) (n : Nat)
  | flag (name : RegName) (idx : Nat) (bits : Word)
  | descCreate (pol h : Nat) (d : Desc)
  | descDestroy (pol h : Nat)
  /-- An allocation: the object, its pages' physical frames in order, and system-area pages that it adds (R216 to R219). -/
  | objAlloc (pol n : Nat) (o : Obj) (frames : List Nat) (sys : List (Nat × Nat))
  | objRelease (pol n : Nat)
  /-- A gradient slot's conversion counts: C_conv, C_flag, C_sat, and histogram bins (R166, R167). -/
  | slotCount (slot conv flag sat : Nat) (bins : List (Nat × Nat))
  /-- Flag bytes of a slot's flag array at an address: block, status and EXCESS, ORed in (R161). -/
  | slotMarks (pol addr : Nat) (marks : List (Nat × Nat × Nat))
  /-- The draw state of a converting lane after the draws of work that has begun: of the open step's lanes, or of those of a RUN_PROGRAM (R87). -/
  | lane (prog : Option Runner) (key state : Nat)
  /-- Index errors of a command (R203): die, transform, index handle, and (position, value as a 64-bit two's complement) of each. -/
  | indexErr (pol die xform handle : Nat) (errs : List (Nat × Nat))
  /-- Forward output tiles drained (R180). -/
  | tileSeq (tile n : Nat)
  /-- A shadow check of an output tile (R180, R181): 0 dropped, 1 agreed, 2 disagreed. -/
  | shadow (tile pol seq outcome : Nat)
  /-- One use of an accumulation region counted in DONE (R146). -/
  | acbUse (tile rgn : Nat)
  /-- A flushed region returns to IDLE (R148). -/
  | acbDone (tile rgn : Nat)
  /-- Rows that take entries of a staging object, in order (R341). -/
  | stageUse (pol obj : Nat) (rows : List Nat)
  /-- A step program replaces the polder's previous one (R336). -/
  | stepLoad (pol : Nat) (prog : StepProg)
  /-- The digests that REPLAY_DIAG and SEAL write are computed at their sluices; a seal ends (R433). -/
  | unseal (owner : Nat)
  /-- Events that a counter bank counts (R436, R437). -/
  | event (bank i n : Nat)
  /-- TRACE_CTRL: OP 0 to 3, the command's source code, and the configuration that CONFIGURE gives (R446). -/
  | trace (pol op src : Nat) (mode trig code mask base n pre : Nat)
  /-- BREAK_SET, none to remove (R452). BREAK_RESUME (R451). -/
  | brkSet (pol id : Nat) (b : Option Brk)
  | brkResume (pol ids : Nat) (single : Bool)
  deriving DecidableEq, Repr

/-- A staged effect with the rank of its source in R46, the engine that staged it, and the step it belongs to: its polder and whether its
visibility waits for the step's commit (R49). -/
structure Staged where
  rank : Nat
  eng : Option Engine
  step : Option Nat
  eff : Eff
  deriving DecidableEq, Repr

/-- The parts of a sluice's window between which its events stand: before step 7 of R45 (step 6, the commits of the sluice), before step 8 (the events that follow
weirs), and after the acceptance of step 8 (waits whose first limit is this sluice's, R289). -/
inductive WinPart where
  | commits | events | posted
  deriving DecidableEq, Repr

/-- A sluice that is being taken: its part, the units that made progress in its frame, the frame's trace operations, whether the module was aligned, and whether the
sluice is taken on an edge or after a lost one (R45, R59, R61). -/
structure Window where
  part : WinPart
  moved : List Nat
  ops : List Eff
  was : Bool
  edge : Bool
  lost : Bool
  /-- The writes of its steps 3 and 4, in their order (R46). -/
  writes : List Staged
  deriving DecidableEq, Repr

/-- Where FRAME_SYNC alignment stands (R59 to R61): running the frame, or its own count done and waiting for the edge. -/
structure Frames where
  /-- FC_FRAME_NUM (R65). -/
  num : Nat
  /-- FC_FRAME_LEN.LOG2 (R37). -/
  log2 : Nat
  /-- A committed length change: target frame and LOG2 (R39). -/
  change : Option (Nat × Nat)
  /-- Step 1 of the sluice is done and the edge is awaited, with the engines it found late (R59). -/
  waiting : Option (List Engine)
  /-- FRAME_SYNC_OUT held low (R59, R60). -/
  syncLow : Bool
  /-- The management controller's own frame count (R306). -/
  mgmt : Nat
  /-- Engines whose frame-done flag is clear because an access of theirs was refused in the frame (R320, R384). -/
  stuck : List Engine
  /-- The frame whose sluice was taken last; events at that sluice act in it until the next. None before the first sluice. -/
  last : Option Nat
  /-- The window of a sluice that stops for its events (log entry 5); none while a frame runs. -/
  window : Option Window
  /-- The module left the board's frame (R61), or a rejoin failed: only a rejoin aligns it again (R368). -/
  astray : Bool
  deriving DecidableEq, Repr

/-- A command in flight, from acceptance to its reply (R285 to R300), or a management packet (R305). -/
structure Cmd where
  mgmt : Bool
  /-- Queue, or function for a management packet. -/
  qn : Nat
  /-- CQ_SEQ at acceptance, or the packet's index. -/
  seq : Nat
  fn : Nat
  pol : Nat
  /-- Place in the order of earliness (R286): acceptance frame, processor, order of acceptance make it rise. -/
  ord : Nat
  accepted : Nat
  words : List Word
  slots : Nat
  waits : List WaitOn
  relAt : Nat
  phase : Phase
  first : Nat
  fin : Nat
  status : Nat
  detail : Nat
  result : DWord
  sr : Bool
  inexact : Bool
  replayed : Bool
  /-- Signals of the command's own parameters (SIGNAL), beside its header's. -/
  sigs : List Sig
  caps : List Cap
  /-- Effects still to be staged, each with the frame in which it is. -/
  land : List (Nat × Staged)
  /-- Its signals have been applied: its work retired while its step's outcome was open (R290, R292). -/
  told : Bool
  /-- What its operands fix of the engine's status: FA_ACTIVE.PCS_BANK, RA_ACTIVE.RATE2 (R123, R158). -/
  note : Nat
  deriving DecidableEq, Repr

/-- A management queue (R304, R305): its next packet to accept, the index after the last packet written, as 4-bit indices. -/
structure MQueue where
  head : Nat
  tail : Nat
  /-- PHASE of the replies of the pass that the head is in. -/
  phase : Bool
  deriving DecidableEq, Repr

/-- Command queues: ranges by function (FIRST, COUNT), queue states, where each processor's round robin stands, commands in flight,
the acceptance count behind earliness, management queues and the words of their slots and replies, and CQ_CMD operations staged. -/
structure Cqs where
  ranges : Tbl (Nat × Nat)
  queues : Tbl Queue
  rr : Tbl Nat
  cmds : List Cmd
  nextOrd : Nat
  mqs : Tbl MQueue
  mqWords : Tbl Word
  deriving DecidableEq, Repr

/-- An MSI-X vector's table entry (R301). -/
structure Vec where
  addr : DWord
  data : Word
  masked : Bool
  deriving DecidableEq, Repr

/-- A host access that the hub holds (R47, R379). -/
inductive HostAcc where
  | write (fn off len : Nat) (v : DWord)
  | read (fn off len : Nat)
  | write2 (fn off : Nat) (data : List Byte)
  | read2 (fn off len : Nat)
  deriving DecidableEq, Repr

/-- The host port: the link is up, functions whose Memory Space Enable, MSI-X Enable and Function Mask are set, vectors that differ from
reset by function * 2048 + vector, pending vectors, accesses held for the frame's sluice window, and accesses held by stopped dies. -/
structure Port8 where
  up : Bool
  memEn : List Nat
  msixEn : List Nat
  fmask : List Nat
  vecs : Tbl Vec
  pend : List Nat
  held : List HostAcc
  stuck : List (Nat × HostAcc)
  /-- Messages due at this sluice by function * 2048 + vector (R302). -/
  due : List Nat
  /-- The BARs that software assigned, by function * 3 + number. -/
  bars : Tbl DWord
  /-- Functions whose Function Level Reset takes effect on queues and slots at the coming sluice (R54, R496). -/
  flr : List Nat
  deriving DecidableEq, Repr

/-- A result collector (R120): its owner, mode, and contents: exact values by position, or bytes by offset in GATHER. -/
structure Coll where
  pol : Nat
  mode : Nat
  vals : Tbl Deliver
  bytes : List Host.Cell
  deriving DecidableEq, Repr

/-- Tile memories and what tiles keep: SRAM by tile, accumulator entries by tile * 65536 + entry (F32 codes), exact sums of regions before
rounding, collectors, tile sequence counts of shadow checks, and random states of converting lanes (R87, R120, R146, R180, R186). -/
structure Tiles where
  sram : Tbl (List Host.Cell)
  acb : Tbl Word
  colls : Tbl Coll
  seqs : Tbl Nat
  lanes : Tbl Nat
  deriving DecidableEq, Repr

/-- A gradient slot's step counts and histogram (R166, R167): C_conv, C_flag, C_sat, the 32 bins, and the step they count. -/
structure SlotStat where
  conv : Nat
  flag : Nat
  sat : Nat
  bins : List Nat
  step : Nat
  deriving DecidableEq, Repr

/-- A stage-2 contribution that is visible at a shard's owner (R252, R254): rank, first element in the shard, codes, and the sluice of its visibility. -/
structure Contribution where
  rank : Nat
  elem : Nat
  codes : List Nat
  at_ : Nat
  deriving DecidableEq, Repr

/-- A bucket of the loaded step program or of a REDUCE command (R244 to R253), with where its reduction stands. -/
structure Bucket where
  /-- Address of the result buffer. -/
  addr : Nat
  num : Nat
  bfmt : Nat
  /-- Buffer size in bytes. -/
  size : Nat
  weir : Nat
  /-- Sluice O + DUE. -/
  due : Nat
  part : Nat
  /-- Segments: group, elements, first element in the group (R246). -/
  segs : List (Nat × Nat × Nat)
  /-- 0 IDLE, 1 FILLING, 2 REDUCING, 3 DONE (R245 STATE). -/
  state : Nat
  cause : Nat
  failed : Bool
  final : Bool
  sat : Bool
  nonfinite : Bool
  contrib : Nat
  /-- The fill weir released the bucket at this sluice. -/
  filled : Bool
  /-- A clear of its fill weir ended its wait (R58). -/
  cut : Bool
  closed : Option Nat
  /-- The sluice at which stage 1 completes (within the bound of R250), and whether it has. -/
  s1at : Nat
  s1done : Bool
  /-- This polder's sum, codes in BFMT (R250). -/
  sum : List Nat
  got : List Contribution
  ownDone : Bool
  /-- Elements of the result buffer that are present: first element and count. -/
  present : List (Nat × Nat)
  finalAt : Option Nat
  /-- Pass one has taken it (R261). -/
  passOne : Bool
  /-- The REDUCE command that owns it, by queue and sequence number; none for a bucket of the step. -/
  owner : Option (Nat × Nat)
  deriving DecidableEq, Repr

/-- What runs steps in a polder: a STEP_RUN or REPLAY_DIAG command, or a loop (R337, R338). -/
inductive StepBy where
  | run (q seq : Nat)
  | diag (q seq : Nat) (dest : Nat)
  | loop
  deriving DecidableEq, Repr

/-- A running loop (R337): its command, first weir and number of weirs, steps to run (0: no limit), done weir, first batch identifier, steps
started, steps committed, whether the weir it waits on has released it, and the LOOP_STOP commands that wait for its end. -/
structure Loop where
  q : Nat
  seq : Nat
  weir0 : Nat
  nweirs : Nat
  steps : Nat
  doneWeir : Nat
  batch0 : Nat
  started : Nat
  committed : Nat
  released : Bool
  stop : List (Nat × Nat)
  deriving DecidableEq, Repr

/-- Where an open step stands: executing, its ballot formed, its vote held with a host verdict awaited, in pass two or maintenance, or waiting
for the peers' close words (R255 to R269). -/
inductive StepPhase where
  | executing | balloted | provisional | maintenance | passTwo | closing | replayWait
  deriving DecidableEq, Repr

/-- A ballot or close word received from a member: rank, word, and the frame from whose sluice it counts (R254, R255, R269). -/
structure Heard where
  rank : Nat
  word : Nat
  at_ : Nat
  deriving DecidableEq, Repr

/-- The exact norm accumulators of a step (R262), in multiples of 2^-298 with a sticky mark for a NaN or an infinity: NG and NW by group, and NC. -/
structure Norms where
  ng : Tbl (Nat × Bool)
  nw : Tbl (Nat × Bool)
  nc : Nat × Bool
  deriving DecidableEq, Repr

/-- The outcome of R169 for a slot: FMT, BASE, NARROW_RUN, delta, and whether BASE was clamped. -/
structure Selection where
  slot : Nat
  fmt : Nat
  base : Nat
  run : Nat
  delta : Int
  clamped : Bool
  deriving DecidableEq, Repr

/-- What an update of a group notices: the amax of |lr * d|, whether a scaled update saturated, and whether a result was not finite though every operand
was (R178, R266). -/
structure UpdSeen where
  amax : Val
  sat : Bool
  special : Bool
  deriving DecidableEq, Repr

/-- Where pass two stands: the progress record, which names the last completed element and sweep by their count, in the polder's system area (R264, R270); the frames
over which the rest is spread; the rows written, by the address in the table, the address of their previous values in the row staging, and their bytes (R267, R268); and by
group the accumulators ND of LAMB and what the updates noticed. -/
structure PassTwo where
  done : Nat
  left : Nat
  rows : List (Nat × Nat × Nat)
  nd : Tbl (Nat × Bool)
  seen : Tbl UpdSeen
  deriving DecidableEq, Repr

/-- The step of a polder, from its batch weir's release to its closing sluice (R49, R255 to R270). -/
structure Step where
  by_ : StepBy
  num : Nat
  batch : Nat
  seed : Nat
  attempt : Nat
  /-- The opening frame O. -/
  opened : Nat
  phase : StepPhase
  /-- Reason bits raised in this polder (R256). -/
  reasons : Nat
  /-- Abandoned before the vote by an overrun, a tile fault, poison or a reset: its staged work is gone. -/
  abandoned : Bool
  /-- Abandoned by an overrun or a reset: no maintenance follows (R171). -/
  plain : Bool
  /-- This polder's ballot (R256) and the sluice that formed it. -/
  ballotAt : Option Nat
  ballot : Nat
  /-- The group word from V on, and V. -/
  word : Nat
  voteAt : Option Nat
  outcome : Nat
  /-- The sluice after which the work of R258 runs: V, or the sluice at which the verdict applied. -/
  decidedAt : Nat
  ballots : List Heard
  closes : List Heard
  /-- The sluice at which the maintenance of a skip or a replay ends (within its bound). -/
  workEnd : Nat
  selected : Bool
  select : List Selection
  /-- Pass two, from V on. -/
  pass : PassTwo
  /-- The sluice at which this member's pass two completed. -/
  passTwoAt : Option Nat
  norms : Norms
  /-- The clipping factor of R263, an F32 code. -/
  clip : Nat
  indexErrors : Nat
  shadowBad : Bool
  /-- Programs of the list still to start or to finish, in order (R336). -/
  todo : List Nat
  /-- Slot entries at the attempt's opening: slot and its image word of R393. -/
  image : List (Nat × Nat)
  /-- Live register words to restore when a diagnostic replay closes (R398): GS_CTRL and GS_BASE by slot. -/
  restore : List (Nat × Word × Word)
  deriving DecidableEq, Repr

/-- Work that a frame program gave to an engine: its opcode, its block, what its operands fix of the engine's status, and its first and last frames. -/
structure Job where
  op : Nat
  ps : List Word
  note : Nat
  first : Nat
  last : Nat
  deriving DecidableEq, Repr

/-- A frame program that runs (R294, R320): its runner, dies, first frame, frames, code address, and the descriptors that it latched. -/
structure Prog where
  runner : Runner
  pol : Nat
  dies : List Nat
  first : Nat
  frames : Nat
  code : Nat
  step : Bool
  /-- The first COUNT handles of a RUN_PROGRAM's list with their descriptors as latched in frame e (R198, R320); none for a program of a step, which comes with no list (R336). -/
  handles : Option (List (Nat × Desc))
  /-- Frames by which halts have delayed it (R451). -/
  halted : Nat
  /-- The engines to which it has issued work. -/
  used : List Engine
  /-- Its work that has not retired (R290). -/
  jobs : List Job
  /-- Its frames are over and its program slots free, while work of its goes on (R294). -/
  ended : Bool
  /-- The draw states of a RUN_PROGRAM's own lanes (R87). -/
  lanes : Tbl Nat
  /-- Effects of its work that are staged in later frames. -/
  land : List (Nat × Staged)
  deriving DecidableEq, Repr

/-- A write that waits for the commit of a polder's open step (R34, R49): staged effects in order, and those of host-issued scatter-adds staged
behind the step. -/
structure StepStage where
  pol : Nat
  eff : Eff
  behind : Bool
  deriving DecidableEq, Repr

/-- The update engine and step state of the hub: slot counts, loaded programs, loops, steps and buckets by polder, running frame programs, staging rows in use
(polder * 65536 + object), effects staged behind a step, sealed ranges (polder, address, bytes, kind 0 a result's seal, 1 dense state, 2 tables and row
staging; owner), CKPT_TAKE commands that wait for a commit sluice (queue, sequence), step records written by polder (R397), and effects of work that spans
frames, each with the frame in which it is staged. -/
structure Update where
  stats : Tbl SlotStat
  progs : Tbl StepProg
  loops : Tbl Loop
  steps : Tbl Step
  buckets : Tbl (List Bucket)
  running : List Prog
  staging : Tbl (List Nat)
  behind : List StepStage
  seals : List (Nat × Nat × Nat × Nat × Nat)
  takes : List (Nat × Nat)
  records : Tbl Nat
  later : List (Nat × Staged)
  /-- By polder, the sluice at which the host's verdict applies (R259). -/
  verdictAt : Tbl Nat
  deriving DecidableEq, Repr

/-- A message received on a link and held until it is visible (R48, R353, R354). -/
structure Msg where
  vc : Nat
  kind : Nat
  src : Nat
  dst : Nat
  a : Nat
  b : Nat
  body : List Byte
  /-- The frame at whose sluice it becomes visible. -/
  at_ : Nat
  frame : Nat
  deriving DecidableEq, Repr

/-- The states of a link (R372). -/
inductive LinkSt where
  | disabled | training | up | retrain | down
  deriving DecidableEq, Repr

/-- A flit that has been sent and not acknowledged: channel, sequence number, frame tag, payload, and how often it was sent (R349, R358). -/
structure Flit where
  vc : Nat
  seq : Nat
  frame : Nat
  data : List Byte
  times : Nat
  deriving DecidableEq, Repr

/-- A link's transmitter (R351 to R358): the replay buffer, oldest flit first; the bytes of the frame's messages that no flit holds yet, by channel, each message's with
one more than its polder, 0 for a forwarded one; the polders whose step's messages the frame sends; what the next header returns - a NAK, credits by channel, anything at
all - and which of VC 2 and 3 is next. -/
structure LinkTx where
  replay : List Flit
  waits : List (List (Nat × List Byte))
  srcs : List Nat
  nak : Bool
  back : List Nat
  owes : Bool
  turn : Bool
  deriving DecidableEq, Repr

/-- A link's own state behind its registers (R347 to R359): state, cause when it left UP, trained and UP at the next sluice, whether it was DOWN or in
RETRAIN before, the next sequence number to send, to be acknowledged and expected, its transmitter, credits held by channel,
flits sent in this frame by channel, partial messages by channel (channel, frame tag, bytes), and messages held until they are visible. -/
structure LinkS where
  st : LinkSt
  cause : Nat
  rising : Bool
  wasDown : Bool
  sent : Nat
  acked : Nat
  expect : Nat
  tx : LinkTx
  credits : List Nat
  used : List Nat
  partials : List (Nat × Nat × List Byte)
  inbox : List Msg
  /-- One more than the frame in which it last left UP; 0 for never (R260). -/
  leftAt : Nat
  deriving DecidableEq, Repr

/-- Links by number (32 holds the module's own LOOP messages), messages that wait for their frame, where each route's round robin stands, the rejoin in
progress (link, frame armed, the peer's frame once read), and a substitution that waits for its sluice (R360 to R371). -/
structure Zl where
  links : Tbl LinkS
  sendq : List Msg
  rr : Tbl Nat
  rejoin : Option (Nat × Nat × Option Nat)
  subst : Bool
  deriving DecidableEq, Repr

/-- A unit's progress count, OWED bit, and sluices since the count last changed (R375, R376). -/
structure Unit' where
  count : Nat
  owed : Bool
  quiet : Nat
  /-- What its progress was last read from, where it is read from another count. -/
  mark : Nat
  deriving DecidableEq, Repr

/-- A reset in progress (R383, R384): kind, index, the sluice r at which it began, cause, and the management command that waits for it. -/
structure ResetS where
  kind : Nat
  index : Nat
  began : Nat
  cause : Nat
  cmds : List (Nat × Nat)
  deriving DecidableEq, Repr

/-- The copy of the start ledger in flash: the words of the ring, its position and the alternates of its last attempt (R390, R483). -/
structure Flash where
  words : Tbl Word
  pos : Nat
  alts : Nat
  deriving DecidableEq, Repr

/-- Reliability state (13_reliability_and_recovery.md): units, resets in progress and asked for, the ledger's position and alternates and its copy
in flash, snapshots' numbers and next slots, dies that are stopped or disabled, which tiles serve which numbers, and tests and restarts in progress. -/
structure Rel where
  units : Tbl Unit'
  resets : List ResetS
  asked : List ResetS
  /-- Domains whose start checks are over: kind, index and the physical tiles that failed; each is released at the coming sluice (R384). -/
  releases : List (Nat × Nat × List Nat)
  /-- Units found hung at this sluice, not yet handled. -/
  hung : List Nat
  ledgerPos : Nat
  alts : Nat
  flash : Flash
  /-- Snapshot number and next slot by polder. -/
  snaps : Tbl (Nat × Nat)
  /-- What the last start found, from which start fields are set again at a release (R16): the slot straps, and HC_TILES. -/
  slot : Nat
  tilesUp : Word
  /-- Dies stopped. -/
  stopped : List Nat
  dieDisabled : List Nat
  /-- Physical tile by die * 48 + logical number, and failed physical tiles by die * 52 + number. -/
  tileMap : Tbl Nat
  tileBad : List Nat
  /-- Spares under test, by die * 52 + number, and whether a logical tile waits for it. -/
  spareTest : List (Nat × Option Nat)
  /-- When the pass of a tile began (R408), by die * 52 + number. -/
  passStart : Tbl Nat
  /-- Tile faults of the frame: tiles, and whether a slice failed (R190, R411). -/
  faults : List (Nat × Bool)
  /-- Units that made progress in the frame, and units whose access into a stopped or resetting die has not retired, with the die (R375, R379); a unit's key
  is (kind * 4 + die) * 65536 + number. -/
  moved : List Nat
  stalled : List (Nat × Nat)
  /-- Dies restarting, each with the frame from which it counts again (R463). -/
  restarting : List (Nat × Nat)
  deriving DecidableEq, Repr

/-- A weight key slot (R426). -/
structure Key where
  id : Word
  key : List Byte
  deriving DecidableEq, Repr

/-- An SPDM session of a function: number, established, answered index 0xF0, and which generation of its keys is in force; the keys' bytes follow from the exchange,
which is open (R424, R426; log entry 9). -/
structure Session where
  fn : Nat
  num : Nat
  established : Bool
  measured : Bool
  keys : Nat
  deriving DecidableEq, Repr

/-- Security state (15_security_and_polders.md): key slots by polder * 16 + slot, key changes staged for the sluice, sessions, connections negotiated by function,
IDE streams secure, scan mode, polders' CONF bits and pending changes. -/
structure Sec where
  keys : Tbl Key
  stage : List (Nat × Option Key)
  sessions : List Session
  negotiated : List Nat
  ide : List Nat
  scan : Bool
  /-- Confidential mode asked for, by polder, at a coming sluice (R420). -/
  confAsk : List (Nat × Bool)
  /-- Imports in progress: queue, sequence, polder, slot, chunks written. -/
  imports : List (Nat × Nat × Nat × Nat × Nat)
  deriving DecidableEq, Repr

/-- A trace record before it is written (R442 to R444): cycle (0xFFFF for a sluice record), die, kind, unit, type, A to D. -/
structure Rec where
  type : Nat
  die : Nat
  kind : Nat
  unit : Nat
  cycle : Nat
  a : Nat
  b : Nat
  c : Nat
  d : Nat
  deriving DecidableEq, Repr

/-- The trace of a polder (R441 to R446): state as OB_TRACE_STATUS codes it; its configuration; the next record number; the start number; the first
record number not written once a trigger fixed the freeze; the frame whose records are being written, how many were, and how many were dropped; records of
the frame that wait for its sluice. -/
structure Trace where
  state : Nat
  mode : Nat
  trig : Nat
  code : Nat
  mask : Nat
  base : Nat
  n : Nat
  pre : Nat
  next : Nat
  start : Nat
  freeze : Option Nat
  frame : Nat
  used : Nat
  lost : Nat
  recs : List Rec
  /-- The frame in which a trigger last fired. -/
  fired : Option Nat
  deriving DecidableEq, Repr

/-- A halted core (R448): polder * 8 + breakpoint, the first frame in which it issues nothing, that of the other cores in POLDER scope, and the
breakpoint as it was. -/
structure Halt where
  key : Nat
  at_ : Nat
  others : Nat
  brk : Brk
  deriving DecidableEq, Repr

/-- A counter bank (R435 to R440): 32 counters, counts of the frame, two sample sets with their numbers and frames, samples taken, a clear armed, a sample asked for. -/
structure Bank where
  counts : List Nat
  frame : List (Nat × Nat)
  sets : List (List Nat × Nat × Nat × Bool)
  taken : Nat
  armed : Bool
  ask : Bool
  coarse : List Nat
  deriving DecidableEq, Repr

/-- Observability (16_observability.md): traces and counter banks, breakpoints by polder * 8 + number, halted cores, and the breakpoints whose weir's
release at the sluice last taken has been acted on (R447). -/
structure Obs where
  traces : Tbl Trace
  banks : Tbl Bank
  brks : Tbl Brk
  halted : List Halt
  hits : List Nat
  deriving DecidableEq, Repr

/-- Power and thermal state (17_clocks_power_thermal.md): P_pwr, T_hub, T_n, stack levels, caps set and asked for, last readings by sensor, means of windows,
a fast limit and thermal readings waiting for a sluice, and the coarsened power readings by sensor (R423). -/
structure Power where
  pPwr : Nat
  tHub : Nat
  tDie : List Nat
  level : List Nat
  capHost : Nat
  capBus : Nat
  askHost : Option Nat
  askBus : Option Nat
  readings : Tbl DWord
  pendMean : List Nat
  pendFast : Bool
  pendTherm : List (List (Nat × Int))
  coarse : Tbl DWord
  deriving DecidableEq, Repr

/-- Where the 48 V input stands (R478, R483). -/
inductive Volt where
  | absent | low | inRange
  deriving DecidableEq, Repr

/-- Pins and supplies (18_pins_and_electrical.md): P3V3_AUX present, P48V, PWR_EN, PWR_GOOD, PERST# asserted, straps as last read, rails in regulation (bit by rail), RAIL_FAULT lockout,
THERMTRIP# driven low, a shutdown in force, memory kept in self-refresh, fundamental reset of the port. -/
structure Pins where
  aux : Bool
  volt : Volt
  pwrEn : Bool
  pwrGood : Bool
  perst : Bool
  straps : Nat
  rails : Nat
  railFault : Bool
  thermTrip : Bool
  shutdown : Bool
  memKept : Bool
  resetDue : Bool
  deriving DecidableEq, Repr

/-- The I3C target (R498 to R503): its dynamic address, in-band interrupts enabled, maximum write and read lengths, alert byte and mask, from which MOD_ALERT# follows. -/
structure I3c where
  addr : Option Nat
  ibi : Bool
  mwl : Nat
  mrl : Nat
  alert : Nat
  mask : Nat
  deriving DecidableEq, Repr

/-- The TAP (R504, R505): the instruction in force, and the boundary register's cells. -/
structure Tap where
  ir : Nat
  boundary : BitVec 39
  deriving DecidableEq, Repr

/-- What the module is fused with (R308, R425, R434): serial, security version and fuse bits, vendor. -/
structure Fuses where
  serial : BitVec 128
  secver : Nat
  scanBlown : Bool
  jtagLocked : Bool
  deriving DecidableEq, Repr

/-- What the module's own clocks and reset domains hold: everything but the pins, the I3C target, the test port and the fuses, which the
auxiliary supply keeps on their own. -/
structure Mod where
  io : Io
  fc : Frames
  rf : Regs
  ct : Cts
  wr : Weirs
  cq : Cqs
  pci : Port8
  mem : Mem
  tile : Tiles
  /-- Stored descriptors by polder * 65536 + handle (R196, R197). -/
  td : Tbl Desc
  /-- Effects staged in the frame, in the order of staging. -/
  stg : List Staged
  ue : Update
  zl : Zl
  rel : Rel
  sec : Sec
  ob : Obs
  pwr : Power
  deriving DecidableEq, Repr

/-- The state of the block: the queue of waiting commands, the module, and what works from the auxiliary supply alone. -/
structure State where
  pending : List Instr
  m : Mod
  pins : Pins
  i3c : I3c
  tap : Tap
  fuse : Fuses
  deriving DecidableEq, Repr

/-- Why the machine stops. No step of this block faults: it has no stop of its own, and device memory is total (08 R215: an access outside every object is
answered, not stopped). The constructor exists for the interface; nothing raises it (safe). -/
inductive Fault where
  /-- Raised by nothing. -/
  | none
  deriving DecidableEq, Repr

/-- Why a step has no meaning. -/
inductive Refusal where
  /-- A row that has no meaning yet, by its mnemonic; raised by the dispatch alone (safe: the machine stops). -/
  | notModelled (mnemonic : String)
  /-- A row that names an internal step of the module that the state does not call for: the event cannot happen there (log entry 5; safe: the machine stops where the hardware has no such step). -/
  | notEnabled
  deriving DecidableEq, Repr

/-- The module right after reset, before any start (log entry 3). Register values are those of the reset column through the sparse store. -/
def Mod.reset : Mod where
  io := ⟨[], 0⟩
  fc := ⟨0, 12, none, none, false, 0, [], none, none, false⟩
  rf := ⟨.empty, [], [], .empty, .empty, .empty⟩
  ct := ⟨.empty, [], 0⟩
  wr := ⟨[], [], [], .empty⟩
  cq := ⟨.empty, .empty, .empty, [], 0, .empty, .empty⟩
  pci := ⟨false, [], [], [], .empty, [], [], [], [], .empty, []⟩
  mem := ⟨[], [], .empty, .empty, .empty, [], [], [], [], []⟩
  tile := ⟨.empty, .empty, .empty, .empty, .empty⟩
  td := .empty
  stg := []
  ue := ⟨.empty, .empty, .empty, .empty, .empty, [], .empty, [], [], [], .empty, [], .empty⟩
  zl := ⟨.empty, [], .empty, none, false⟩
  rel := ⟨.empty, [], [], [], [], 0, 0, ⟨.empty, 0, 0⟩, .empty, 0, 0, [], [], .empty, [], [], .empty, [], [], [], []⟩
  sec := ⟨.empty, [], [], [], [], false, [], []⟩
  ob := ⟨.empty, .empty, .empty, [], []⟩
  pwr := ⟨0, 0, [0, 0, 0, 0], [0, 0, 0, 0, 0, 0, 0, 0], 3200, 3200, none, none, .empty, [], false, [], .empty⟩

/-- The block as the model begins: auxiliary power absent, in reset, nothing started (log entry 3). -/
def State.reset : State where
  pending := []
  m := .reset
  pins := ⟨false, .absent, false, false, true, 15, 0, false, false, false, false, false⟩
  i3c := ⟨none, false, 32, 32, 0, 0⟩
  tap := ⟨1, 0⟩
  fuse := ⟨0, 0, false, false⟩

end Sys2Proof.Machine
end

