-- ==== Sys2Proof/Machine/Table.lean ====
section
/-! DEFINITION. Operations on sparse tables: reading, setting, removing, keys kept strictly rising. -/

namespace Sys2Proof.Machine

/-- Insert or replace a key in a sorted list of pairs. -/
def insertKey {α : Type} (k : Nat) (v : α) : List (Nat × α) → List (Nat × α)
  | [] => [(k, v)]
  | (k', v') :: rest =>
    if k < k' then (k, v) :: (k', v') :: rest
    else if k = k' then (k, v) :: rest
    else (k', v') :: insertKey k v rest

/-- Remove a key from a list of pairs. -/
def removeKey {α : Type} (k : Nat) (l : List (Nat × α)) : List (Nat × α) := l.filter fun c => c.1 != k

/-- The value of a key in a sorted list of pairs. -/
def lookupKey {α : Type} (k : Nat) : List (Nat × α) → Option α
  | [] => none
  | (k', v') :: rest => if k' = k then some v' else lookupKey k rest

/-- The entry of a table, if it is listed. -/
def Tbl.get {α : Type} (t : Tbl α) (k : Nat) : Option α := lookupKey k t.cells

/-- The entry of a table, or what an unlisted key stands for. -/
def Tbl.getD {α : Type} (t : Tbl α) (k : Nat) (d : α) : α := (t.get k).getD d

/-- The table with an entry set. -/
def Tbl.set {α : Type} (t : Tbl α) (k : Nat) (v : α) : Tbl α := ⟨insertKey k v t.cells⟩

/-- The table without an entry. -/
def Tbl.del {α : Type} (t : Tbl α) (k : Nat) : Tbl α := ⟨removeKey k t.cells⟩

/-- The table with the entries that a test keeps. -/
def Tbl.filter {α : Type} (t : Tbl α) (f : Nat → α → Bool) : Tbl α := ⟨t.cells.filter fun c => f c.1 c.2⟩

/-- The table with a function applied to every entry. -/
def Tbl.map {α : Type} (t : Tbl α) (f : Nat → α → α) : Tbl α := ⟨t.cells.map fun c => (c.1, f c.1 c.2)⟩

/-- Keys rise strictly from a bound on. -/
def keysRise {α : Type} : List (Nat × α) → Bool
  | [] => true
  | [_] => true
  | (k, _) :: (k', v') :: rest => decide (k < k') && keysRise ((k', v') :: rest)

/-- The table is in its canonical form: keys strictly rising. -/
def Tbl.wf {α : Type} (t : Tbl α) : Bool := keysRise t.cells

/-- Insert or remove a byte in a memory list: a zero byte is not listed, for an unlisted address reads 0. -/
def putByte (cells : List Host.Cell) (a : Nat) (b : Byte) : List Host.Cell :=
  if b = 0 then removeKey a cells else insertKey a b cells

/-- The byte at an address of a memory list; an unlisted address reads 0 (frames are zeroed before use, R220; tile memories are zeroed by their
start test, R402). -/
def getByte (cells : List Host.Cell) (a : Nat) : Byte := (lookupKey a cells).getD 0

/-- The bytes from an address on. -/
def getBytes (cells : List Host.Cell) (a : Nat) : Nat → List Byte
  | 0 => []
  | n + 1 => getByte cells a :: getBytes cells (a + 1) n

/-- Apply a masked write. -/
def putCell (cells : List Host.Cell) (w : WCell) : List Host.Cell :=
  putByte cells w.addr ((getByte cells w.addr &&& ~~~w.mask) ||| (w.val &&& w.mask))

/-- A memory list in canonical form: addresses strictly rising, no zero byte listed. -/
def Memory.wf (cells : List Host.Cell) : Bool := keysRise cells && cells.all fun c => c.2 != 0

/-- The little-endian number of some bytes (R8). -/
def leNat : List Byte → Nat
  | [] => 0
  | b :: rest => b.toNat + 256 * leNat rest

/-- The n little-endian bytes of a number (R8). -/
def leBytes (v : Nat) : Nat → List Byte
  | 0 => []
  | n + 1 => BitVec.ofNat 8 v :: leBytes (v / 256) n

/-- Bits hi down to lo of a number. -/
def bits (v hi lo : Nat) : Nat := v / 2 ^ lo % 2 ^ (hi - lo + 1)

/-- The whole bytes of data from an address, as unmasked writes. -/
def wcells (addr : Nat) : List Byte → List WCell
  | [] => []
  | b :: rest => ⟨addr, b, 0xFF#8⟩ :: wcells (addr + 1) rest

/-- The quotient rounded up. -/
def ceilDiv (a b : Nat) : Nat := (a + b - 1) / b

/-- Count up, saturating at 0xFFFF_FFFF. -/
def satCount (v n : Nat) : Nat := min (v + n) 0xFFFFFFFF

/-- Whether a list of numbers has a number. -/
def has (l : List Nat) (n : Nat) : Bool := l.any (· == n)

/-- Add a number to a list that holds it at most once. -/
def addOnce (l : List Nat) (n : Nat) : List Nat := if has l n then l else l ++ [n]

/-- Replace the nth entry of a list. -/
def setNth {α : Type} : List α → Nat → α → List α
  | [], _, _ => []
  | _ :: rest, 0, v => v :: rest
  | x :: rest, n + 1, v => x :: setNth rest n v

/-- Keep the first of equal numbers. -/
def dedup : List Nat → List Nat
  | [] => []
  | x :: rest => x :: (dedup rest).filter (· != x)

/-- Stable insertion by a key. -/
def insertBy {α : Type} (key : α → Nat) (x : α) : List α → List α
  | [] => [x]
  | y :: rest => if key x < key y then x :: y :: rest else y :: insertBy key x rest

/-- Stable sort by a key. -/
def sortBy {α : Type} (key : α → Nat) (l : List α) : List α := l.foldl (fun acc x => insertBy key x acc) []

end Sys2Proof.Machine
end

