-- ==== Sys2Proof/Machine/Regs.lean ====
section
/-! DEFINITION. The register store: reading and writing registers and fields, flags and counters, polders and dies (00_scope.md R13 to R17, 01 R36). -/

namespace Sys2Proof.Machine

/-- The key of a register in the store. -/
def regKey (r : RegName) (idx : Nat) : Nat := idx * 256 + r.num

/-- The register store with a register set; a register at its reset value is not listed. -/
def Regs.put (rf : Regs) (r : RegName) (idx : Nat) (v : Word) : Regs :=
  { rf with vals := if v = r.desc.reset then rf.vals.del (regKey r idx) else rf.vals.set (regKey r idx) v }

/-- A register's stored value. -/
def Regs.get (rf : Regs) (r : RegName) (idx : Nat) : Word := rf.vals.getD (regKey r idx) r.desc.reset

/-- A register's stored value. -/
def Mod.rd (s : Mod) (r : RegName) (idx : Nat) : Word := s.rf.get r idx

/-- The state with a register's stored value set. -/
def Mod.put (s : Mod) (r : RegName) (idx : Nat) (v : Word) : Mod := { s with rf := s.rf.put r idx v }

/-- The mask of a field. -/
def Fld.mask (f : Fld) : Word := BitVec.ofNat 32 ((2 ^ (f.hi - f.lo + 1) - 1) * 2 ^ f.lo)

/-- A field of a stored register, as a number. -/
def Mod.fld (s : Mod) (f : Fld) (idx : Nat) : Nat := bits (s.rd f.reg idx).toNat f.hi f.lo

/-- A field of a stored register, as a condition. -/
def Mod.bit (s : Mod) (f : Fld) (idx : Nat) : Bool := s.fld f idx != 0

/-- The state with a field of a stored register set. -/
def Mod.setFld (s : Mod) (f : Fld) (idx v : Nat) : Mod :=
  s.put f.reg idx ((s.rd f.reg idx &&& ~~~f.mask) ||| (BitVec.ofNat 32 (v * 2 ^ f.lo) &&& f.mask))

/-- Set a flag field now: at a sluice, after the software clears of its frame (R15). -/
def Mod.raiseNow (s : Mod) (f : Fld) (idx : Nat) : Mod := s.put f.reg idx (s.rd f.reg idx ||| f.mask)

/-- Record that hardware sets flag bits in this frame; they are set at its sluice, after software's clears (R15, R32). -/
def Mod.raiseBits (s : Mod) (r : RegName) (idx : Nat) (b : Word) : Mod :=
  if b = 0 then s else { s with rf := { s.rf with flags := s.rf.flags ++ [⟨r, idx, b⟩] } }

/-- Record that hardware sets a flag in this frame. -/
def Mod.raise (s : Mod) (f : Fld) (idx : Nat) : Mod := s.raiseBits f.reg idx f.mask

/-- Count up a saturating counter register. -/
def Mod.countReg (s : Mod) (r : RegName) (idx n : Nat) : Mod :=
  s.put r idx (BitVec.ofNat 32 (satCount (s.rd r idx).toNat n))

/-- Count up a saturating field. -/
def Mod.bumpFld (s : Mod) (f : Fld) (idx n : Nat) : Mod := s.setFld f idx (min (2 ^ (f.hi + 1 - f.lo) - 1) (s.fld f idx + n))

/-- Set a pair of registers to a 64-bit value, low word first (R17). -/
def Mod.putPair (s : Mod) (lo hi : RegName) (idx v : Nat) : Mod :=
  (s.put lo idx (BitVec.ofNat 32 v)).put hi idx (BitVec.ofNat 32 (v / 2 ^ 32))

/-- The 64-bit value of a pair. -/
def Mod.pair (s : Mod) (lo hi : RegName) (idx : Nat) : Nat := (s.rd lo idx).toNat + 2 ^ 32 * (s.rd hi idx).toNat

/-- The number of polders: SP_LAYOUT.COUNT (R36, R416). -/
def Mod.polders (s : Mod) : Nat := s.fld .SP_LAYOUT_COUNT 0

/-- The polder of a compute die (R36). -/
def Mod.dieOf (s : Mod) (die : Nat) : Nat := if s.polders = 4 then die else if s.polders = 2 then die / 2 else 0

/-- The compute dies of a polder, in increasing number, less the dies that a start disabled (R36, R389). -/
def Mod.diesOf (s : Mod) (p : Nat) : List Nat := [0, 1, 2, 3].filter fun d => s.dieOf d == p && !has s.rel.dieDisabled d

/-- The polder that a function is bound to (R417). -/
def Mod.polderOf (s : Mod) (fn : Nat) : Nat := s.fld .SP_FUNC_BIND_POLDER fn

/-- Whether a polder is in confidential mode (R420). -/
def Mod.conf (s : Mod) (p : Nat) : Bool := s.bit .SP_CONF_CONF p

/-- Whether any polder is confidential (R423). -/
def Mod.anyConf (s : Mod) : Bool := [0, 1, 2, 3].any fun p => s.conf p

/-- The active frame length: a committed change holds from its target frame on (R39). -/
def Mod.log2 (s : Mod) : Nat :=
  match s.fc.change with
  | some (at_, k) => if at_ ≤ s.fc.num + (if s.fc.window.isSome then 1 else 0) then k else s.fc.log2
  | none => s.fc.log2

/-- The frame budget b of R38: 2^k - 128 array cycles. -/
def Mod.budget (s : Mod) : Nat := 2 ^ s.log2 - 128

/-- Send something outward. -/
def Mod.emit (s : Mod) (o : Out) : Mod := { s with io := { s.io with out := s.io.out ++ [o] } }

/-- A fresh open number and the state with the model's counter moved on (log entry 6). -/
def Mod.fresh (s : Mod) (f : Nat → Nat) : Nat × Mod := (f s.io.free, { s with io := { s.io with free := s.io.free + 1 } })

/-- The range of queues of a function: FIRST and COUNT (R278). -/
def Mod.range (s : Mod) (fn : Nat) : Nat × Nat := s.cq.ranges.getD fn (0, 0)

/-- The function that owns a queue, if any (R278). -/
def Mod.queueOwner (s : Mod) (q : Nat) : Option Nat :=
  [0, 1, 2, 3, 4, 5, 6, 7].find? fun f => decide ((s.range f).1 ≤ q ∧ q < (s.range f).1 + (s.range f).2)

/-- A queue right after reset: DISABLED, empty, PHASE 1 first (R281, R310). -/
def Queue.fresh : Queue := ⟨.disabled, 0, 0, 0, 0, true, 0, 0, 0, false, false, false, 0⟩

/-- A command queue. -/
def Mod.queue (s : Mod) (q : Nat) : Queue := s.cq.queues.getD q Queue.fresh

/-- The state with a command queue set. -/
def Mod.setQueue (s : Mod) (q : Nat) (v : Queue) : Mod :=
  { s with cq := { s.cq with queues := if v = Queue.fresh then s.cq.queues.del q else s.cq.queues.set q v } }

/-- The commands of a queue that are in flight (R285). -/
def Mod.inflight (s : Mod) (q : Nat) : Nat := (s.cq.cmds.filter fun c => !c.mgmt && c.qn == q).length

/-- The polder that a register belongs to, by its block's owner and its index; none for a module-wide register (R418). -/
def Mod.regPolder (s : Mod) (own : RegOwn) (idx : Nat) : Option Nat :=
  match own with
  | .none => none
  | .func => some (s.polderOf idx)
  | .polder => some idx
  | .queue => none
  | .weir => some (s.fld .WEIR_CTRL_POLDER idx)
  | .group => some (s.fld .UE_GROUP_CTRL_POLDER idx)
  | .slot => some (s.fld .GS_CTRL_POLDER idx)
  | .bank => some (if idx < 4 then s.dieOf idx else idx - 4)
  | .dieNo => some (s.dieOf idx)
  | .die4 => some (s.dieOf (idx / 4))
  | .die52 => some (s.dieOf (idx / 52))
  | .tile => some (s.dieOf (idx / 48))
  | .tile16 => some (s.dieOf (idx / (48 * 16)))
  | .tile256 => some (s.dieOf (idx / (48 * 256)))
  | .tile2048 => some (s.dieOf (idx / (48 * 2048)))
  | .rank => some (idx / 64)

/-- The owner of a register's index, by its block. -/
def RegName.own (r : RegName) : RegOwn :=
  match r with
  | .SP_FUNC_BIND => .none
  | .MC_TILE_FAILED_LO | .MC_TILE_FAILED_HI | .MC_DIE_STEP => .none
  | _ => match r.blk with
    | some b => b.own
    | none => .none

/-- Whether the dike, or the ownership of queues (R278), keeps a function from a register (R418). -/
def Mod.refused (s : Mod) (fn : Nat) (r : RegName) (idx : Nat) : Bool :=
  match r.own with
  | .queue => s.queueOwner idx != some fn
  | own => match s.regPolder own idx with
    | some p => p != s.polderOf fn
    | none => false

/-- The field of MC_TILE_FAILED of a logical tile. -/
def tileFailed (l : Nat) : RegName × Nat := if l < 32 then (.MC_TILE_FAILED_LO, l) else (.MC_TILE_FAILED_HI, l - 32)

/-- Whether a logical tile is marked in MC_TILE_FAILED. -/
def Mod.tileMarked (s : Mod) (t : Nat) : Bool := let (r, b) := tileFailed (t % 48); (s.rd r (t / 48)).toNat.testBit b

end Sys2Proof.Machine
end

