-- ==== Sys2Proof/Machine/Ops.lean ====
section
/-! DEFINITION. Device memory and tile SRAM: translation, reading, allocation and release of pages, the reducers, staging of effects and
their application at a sluice (08_memory_tiers.md, 02 R45 and R46). -/

namespace Sys2Proof.Machine

/-- The key of a page entry: polder and page number. -/
def pageKey (p page : Nat) : Nat := p * 2 ^ 27 + page

/-- The key of an object or a descriptor: polder and number. -/
def objKey (p n : Nat) : Nat := p * 65536 + n

/-- The page entry that maps a device address of a polder; addresses have 48 bits (R215, R221, R222). -/
def Mod.page (s : Mod) (p addr : Nat) : Option PageEnt := if addr < 2 ^ 48 then s.mem.pages.get (pageKey p (addr / 2 ^ 21)) else none

/-- The physical page of an entry: its tier and its FRAME field. -/
def PageEnt.id (e : PageEnt) : Nat := e.tier * 2 ^ 22 + e.frame

/-- The physical page that serves a device address: the entry's, or for a sub-block that has moved its destination's (R223). -/
def Mod.physPage (s : Mod) (p addr : Nat) : Option Nat :=
  (s.page p addr).map fun e =>
    if e.migrating then
      match s.mem.migs.find? fun g => g.pol == p && g.page == addr / 2 ^ 21 with
      | some g => if addr / 65536 % 32 < g.moved then g.tier * 2 ^ 22 + g.frame else e.id
      | none => e.id
    else e.id

/-- The physical byte address of a device address of a polder. -/
def Mod.phys (s : Mod) (p addr : Nat) : Option Nat := (s.physPage p addr).map fun id => id * 2 ^ 21 + addr % 2 ^ 21

/-- A byte of device memory as committed; a byte that no page maps reads 0 and is never used: commands check first (R215). -/
def Mod.getB (s : Mod) (p addr : Nat) : Byte :=
  match s.phys p addr with
  | some a => getByte s.mem.cells a
  | none => 0

/-- Bytes of device memory as committed. -/
def Mod.getBs (s : Mod) (p addr : Nat) : Nat → List Byte
  | 0 => []
  | n + 1 => s.getB p addr :: s.getBs p (addr + 1) n

/-- A little-endian number in device memory. -/
def Mod.getN (s : Mod) (p addr n : Nat) : Nat := leNat (s.getBs p addr n)

/-- A polder's object by number (R216). -/
def Mod.obj (s : Mod) (p n : Nat) : Option Obj := s.mem.objs.get (objKey p n)

/-- The objects of a polder, with their numbers. -/
def Mod.objsOf (s : Mod) (p : Nat) : List (Nat × Obj) :=
  (s.mem.objs.cells.filter fun c => c.1 / 65536 == p).map fun c => (c.1 % 65536, c.2)

/-- Whether an object holds a range of addresses. -/
def Obj.holds (o : Obj) (addr n : Nat) : Bool := decide (o.base ≤ addr ∧ addr + n ≤ o.base + o.pages * 2 ^ 21)

/-- The object that holds a whole range, if one does. -/
def Mod.objHolding (s : Mod) (p addr n : Nat) : Option (Nat × Obj) := (s.objsOf p).find? fun o => o.2.holds addr n

/-- Whether every byte of a range lies in objects of the polder (R215, R243). -/
def Mod.mapped (s : Mod) (p addr n : Nat) : Bool :=
  n == 0 || (List.range ((addr + n - 1) / 2 ^ 21 - addr / 2 ^ 21 + 1)).all fun k => (s.page p (addr + k * 2 ^ 21)).isSome

/-- Whether a range touches a read-only object, WINDOW objects included (R507). -/
def Mod.readonly (s : Mod) (p addr n : Nat) : Bool :=
  n != 0 && (s.objsOf p).any fun o => o.2.readonly && decide (o.2.base < addr + n ∧ addr < o.2.base + o.2.pages * 2 ^ 21)

/-- Whether two ranges of bytes meet. -/
def meets (a n b m : Nat) : Bool := decide (0 < n ∧ 0 < m ∧ a < b + m ∧ b < a + n)

/-- Whether a range holds a poisoned granule (R236). -/
def Mod.poisoned (s : Mod) (p addr n : Nat) : Bool :=
  !s.mem.poison.isEmpty && (List.range ((addr + n - 1) / 32 - addr / 32 + 1)).any fun k =>
    match s.phys p ((addr / 32 + k) * 32) with
    | some a => has s.mem.poison (a / 32)
    | none => false

/-- A byte of a tile's SRAM as committed (R186). -/
def Mod.sramB (s : Mod) (t addr : Nat) : Byte := getByte (s.tile.sram.getD t []) addr

/-- A byte at a place, as committed. -/
def Mod.locB (s : Mod) (l : Loc) (addr : Nat) : Byte :=
  match l with
  | .dev p => s.getB p addr
  | .sram t => s.sramB t addr

/-- A little-endian number at a place. -/
def Mod.locN (s : Mod) (l : Loc) (addr : Nat) : Nat → Nat
  | 0 => 0
  | n + 1 => (s.locB l addr).toNat + 256 * s.locN l (addr + 1) n

/-- A masked write at a place, as an effect. -/
def Loc.eff (l : Loc) (cells : List WCell) : Eff :=
  match l with
  | .dev p => .mem p cells
  | .sram t => .sram t cells

/-! ## Ranks of R46 -/

/-- The rank of a tile's engines in R46. -/
def rankTile (t : Nat) : Nat := t
/-- The rank of a copy engine in R46. -/
def rankCe (die n : Nat) : Nat := 200 + die * 4 + n
/-- The rank of a migration engine in R46. -/
def rankMe (die n : Nat) : Nat := 220 + die * 2 + n
/-- The rank of result collector drains in R46. -/
def rankColl : Nat := 240
/-- The rank of bucket results in R46. -/
def rankBucket : Nat := 241
/-- The rank of the update engine in R46. -/
def rankUe : Nat := 242
/-- The rank of the import engine in R46. -/
def rankImport : Nat := 243
/-- The rank of HOST_IN in R46. -/
def rankHostIn : Nat := 244
/-- The rank of a command's result write in R46: after every engine, by the command's earliness. -/
def rankResult (ord : Nat) : Nat := 2 ^ 40 + ord
/-- The rank of host writes through BAR2 in R46. -/
def rankHost : Nat := 2 ^ 80
/-- The rank of what a link delivers, applied in step 4 of R45. -/
def rankLink (l : Nat) : Nat := 2 ^ 81 + l

/-- Stage an effect in this frame. -/
def Mod.stage (s : Mod) (rank : Nat) (e : Eff) : Mod := { s with stg := s.stg ++ [⟨rank, none, none, e⟩] }

/-- Count at the frame's sluice, after a clear of the counter in the frame (R182, R210, R242, R372). -/
def Mod.countLater (s : Mod) (r : RegName) (idx n : Nat) : Mod := s.stage 0 (.count r idx n)

/-- Count in a field at the frame's sluice (R28). -/
def Mod.countFldLater (s : Mod) (f : Fld) (idx n : Nat) : Mod := s.stage 0 (.countFld f idx n)

/-- Stage effects in this frame. -/
def Mod.stageAll (s : Mod) (l : List Staged) : Mod := { s with stg := s.stg ++ l }

/-! ## Controllers, frames and pages -/

/-- Whether a controller is an HBM controller; controllers are numbered die * 14 + n, HBM 0 and 1, LPDDR 2 to 13 (R212, R375). -/
def ctlHbm (c : Nat) : Bool := decide (c % 14 < 2)

/-- The tier and FRAME field of a controller's frame f (R222). -/
def ctlFrame (c f : Nat) : Nat × Nat :=
  if ctlHbm c then (0, (c / 14 * 2 + c % 14) * 65536 + f) else (1, (c / 14 * 12 + (c % 14 - 2)) * 65536 + f)

/-- The controller of a physical page, and its frame in the controller. -/
def pageCtl (tier frame : Nat) : Nat × Nat :=
  let u := frame / 65536
  if tier = 0 then (u / 2 * 14 + u % 2, frame % 65536) else (u / 12 * 14 + 2 + u % 12, frame % 65536)

/-- A controller with nothing free, as before its first start. -/
def Ctl.none : Ctl := ⟨[], [], 0, false, 0⟩

/-- A memory controller. -/
def Mem.ctl (m : Mem) (c : Nat) : Ctl := m.ctls.getD c .none

/-- The controllers of a tier on the dies of an affinity mask (0: every die of the polder), in order (R218). -/
def Mod.ctlList (s : Mod) (p tier aff : Nat) : List Nat :=
  ((s.diesOf p).filter fun d => aff == 0 || aff.testBit d).flatMap fun d =>
    ((if tier = 0 then [0, 1] else [2, 3, 4, 5, 6, 7, 8, 9, 10, 11, 12, 13]).map fun k => d * 14 + k).filter fun c => !(s.mem.ctl c).disabled

/-- Take the lowest frame of a list of ranges. -/
def popRange : List (Nat × Nat) → Option (Nat × List (Nat × Nat))
  | [] => none
  | (_, 0) :: rest => popRange rest
  | (a, n + 1) :: rest => some (a, if n = 0 then rest else (a + 1, n) :: rest)

/-- Whether a compute die's clock is stopped or the die is in reset (R379, R384, R463). -/
def Mod.dieDown (s : Mod) (d : Nat) : Bool :=
  has s.rel.stopped d || s.rel.resets.any fun r => (r.kind == 1 && r.index == d) || (r.kind == 4 && r.index == s.dieOf d)

/-- The die whose clock is stopped, or that is in reset, on whose controllers a page of a range lies, if there is one (R379). -/
def Mod.downAt (s : Mod) (p addr n : Nat) : Option Nat :=
  if n = 0 ∨ (s.rel.stopped.isEmpty ∧ s.rel.resets.isEmpty) then none
  else (List.range ((addr + n - 1) / 2 ^ 21 - addr / 2 ^ 21 + 1)).findSome? fun k =>
    match s.page p (addr + k * 2 ^ 21) with
    | some e => (e.id :: ((s.mem.migs.filter fun g => g.pol == p && g.page == (addr + k * 2 ^ 21) / 2 ^ 21).map fun g => g.tier * 2 ^ 22 + g.frame)).findSome? fun id =>
      let d := (pageCtl (id / 2 ^ 22) (id % 2 ^ 22)).1 / 14
      if s.dieDown d then some d else none
    | none => none

/-- Put a frame back into a rising list of ranges. -/
def pushRange (f : Nat) : List (Nat × Nat) → List (Nat × Nat)
  | [] => [(f, 1)]
  | (a, n) :: rest =>
    if f + 1 = a then (f, n + 1) :: rest
    else if f < a then (f, 1) :: (a, n) :: rest
    else if a + n = f then
      match rest with
      | (b, m) :: rest' => if b = f + 1 then (a, n + 1 + m) :: rest' else (a, n + 1) :: rest
      | [] => [(a, n + 1)]
    else (a, n) :: pushRange f rest

/-- The number of frames in ranges. -/
def rangeCount (l : List (Nat × Nat)) : Nat := (l.map (·.2)).sum

/-- The lowest zeroed frame of a controller, taken. -/
def Mem.takeFrame (m : Mem) (c : Nat) : Option (Nat × Mem) :=
  match popRange (m.ctl c).free with
  | some (f, rest) => some ((ctlFrame c f).1 * 2 ^ 22 + (ctlFrame c f).2, { m with ctls := m.ctls.set c { m.ctl c with free := rest } })
  | none => none

/-- Place n pages from page k of object j on: physical pages in order (R218); none where a controller has no zeroed frame. -/
def Mem.place (m : Mem) (cs : List Nat) (j k : Nat) : Nat → Option (List Nat × Mem)
  | 0 => some ([], m)
  | n + 1 => match cs[(k + j) % cs.length]? with
    | none => none
    | some c => match m.takeFrame c with
      | none => none
      | some (f, m') => match m'.place cs j (k + 1) n with
        | none => none
        | some (fs, m'') => some (f :: fs, m'')

/-- A page's bytes become zero; contents of a frame are zeroed before the frame is allocated again (R220). -/
def Mem.zeroPage (m : Mem) (id : Nat) : Mem :=
  { m with cells := m.cells.filter (fun c => c.1 / 2 ^ 21 != id), poison := m.poison.filter fun g => g / 65536 != id }

/-- A frame enters its controller's zeroing queue (R220); a retired frame leaves service (R237). -/
def Mod.queueZero (s : Mod) (id : Nat) (retired : Bool) : Mod :=
  let (c, f) := pageCtl (id / 2 ^ 22) (id % 2 ^ 22)
  let s := { s with mem := s.mem.zeroPage id }
  if retired then s.countReg .MT_RETIRED 0 1
  else
    let ct := s.mem.ctl c
    let ct := { ct with zq := ct.zq ++ [(f, 1)] }
    { s with mem := { s.mem with ctls := s.mem.ctls.set c ct } }

/-- Frames that one page's zeroing takes on a controller (R220). -/
def Mod.zeroFrames (s : Mod) (c : Nat) : Nat := ceilDiv ((if ctlHbm c then 2048 else 65536) * 64) s.budget

/-- The pages that count against a polder's quota in a tier (R219): pages of live objects, destinations of migrations, the system area, and the
recovery area (R381). -/
def Mod.used (s : Mod) (p tier : Nat) : Nat :=
  (s.mem.pages.cells.filter fun c => c.1 / 2 ^ 27 == p && c.2.tier == tier).length
    + (s.mem.migs.filter fun m => m.pol == p && m.tier == tier).length
    + (s.mem.sysArea.filter fun a => a.1 == p && tier == 0).length
    + (s.mem.recovery.filter fun a => a.1 == p && tier == 1).length

/-- A polder's quota in a tier. -/
def Mod.quota (s : Mod) (p tier : Nat) : Nat := (s.rd (if tier = 0 then .MT_QUOTA_HBM else .MT_QUOTA_LP) p).toNat

/-- The 16 GiB regions in which a polder has pages (R219). -/
def Mod.regions (s : Mod) (p : Nat) : List Nat :=
  dedup ((s.mem.pages.cells.filter fun c => c.1 / 2 ^ 27 == p).map fun c => c.1 % 2 ^ 27 / 8192)

/-- Pages of a system area with n leaf tables: a 128 KiB root, 64 KiB leaves and the 4 MiB descriptor table, in whole pages (R219). -/
def sysPages (leaves : Nat) : Nat := ceilDiv (131072 + 4194304 + leaves * 65536) (2 ^ 21)

/-- Grow or keep a system area for the regions in use (R219): the pages added, as physical pages; the status on failure. `used` pages count against the polder's HBM quota. -/
def Mod.sysGrow (s : Mod) (p : Nat) (leaves used : Nat) : Except Nat (List Nat × Mem) :=
  let have_ := (s.mem.sysArea.filter fun a => a.1 == p).length
  let need := sysPages leaves
  if need ≤ have_ then .ok ([], s.mem)
  else if s.quota p 0 < used + (need - have_) then .error 0x54
  else match s.mem.place (s.ctlList p 0 0) 0 have_ (need - have_) with
    | some r => .ok r
    | none => .error 0x55

/-! ## Reducers (R230, R231) -/

/-- The element formats of the reducers: 0 F32, 1 W16, 2 I32, 3 I64. -/
def contribBytes (kind : Nat) : Nat := if kind = 1 then 2 else if kind = 3 then 8 else 4

/-- A contribution placed in a 96-bit window of anchor a: the multiple of 2^a, and whether it was clamped and rounded (R231). -/
def placeWin (a : Int) (neg : Bool) (m : Nat) (e : Int) : Int × Bool × Bool :=
  if m = 0 then (0, false, false)
  else if dyLe 1 (a + 95) m e then (if neg then -(2 ^ 95 - 1 : Int) else 2 ^ 95 - 1, true, false)
  else if a ≤ e then (let n : Int := (m * 2 ^ (e - a).toNat : Nat); if neg then -n else n, false, false)
  else
    let sh := (a - e).toNat
    let q := m / 2 ^ sh
    let r := m % 2 ^ sh
    let q := if 2 ^ sh < 2 * r ∨ (2 * r = 2 ^ sh ∧ q % 2 = 1) then q + 1 else q
    (if neg then -(q : Int) else (q : Int), false, r != 0)

/-- The value of a contribution. -/
def Contrib.val (c : Contrib) : Val :=
  if c.special = 1 then .nan else if c.special = 2 then .inf false else if c.special = 3 then .inf true else .fin c.neg c.mag c.exp

/-- A contribution to an address from an exact value. -/
def Contrib.of (addr kind : Nat) (v : Val) : Contrib :=
  match v with
  | .nan => ⟨addr, kind, 1, false, 0, 0⟩
  | .inf s => ⟨addr, kind, if s then 3 else 2, false, 0, 0⟩
  | .fin s m e => ⟨addr, kind, 0, s, m, e⟩

/-- What a reducer makes of an element: its new code, and the flags WIN_LOW, WIN_HIGH, SPECIAL, INT_OVF as bits 0 to 3 (R230, R231). -/
def reduceElem (anchor : Int) (kind old : Nat) (cs : List Contrib) : Nat × Nat :=
  if kind ≤ 1 then
    let f : Fmt := if kind = 0 then .f32 else .w16
    let o := f.decode old
    let vs := o :: cs.map Contrib.val
    let placed := cs.map fun c => if c.special = 0 then placeWin anchor c.neg c.mag c.exp else (0, false, false)
    let fl := (if placed.any (·.2.2) then 1 else 0) + (if placed.any (·.2.1) then 2 else 0)
    let r : Val :=
      if vs.any (·.isNan) || (vs.any (· == .inf false) && vs.any (· == .inf true)) then .nan
      else if vs.any (· == .inf false) then .inf false
      else if vs.any (· == .inf true) then .inf true
      else o.add (.ofInt (placed.map (·.1)).sum anchor)
    let code := (narrow f false none r).1
    (code, fl + (if (f.decode code).isFin then 0 else 4))
  else
    let w := if kind = 2 then 32 else 64
    let sum := (cs.map fun c => (Val.fin c.neg c.mag 0).int 0).sum + (Val.ofSigned w old).int 0
    let lo : Int := -(2 ^ (w - 1) : Nat)
    let hi : Int := (2 ^ (w - 1) : Nat) - 1
    let r := max lo (min hi sum)
    ((r % (2 ^ w : Nat)).toNat, if r = sum then 0 else 8)

/-- The reducer's anchor at an address: the object's (R216). -/
def Mod.anchorAt (s : Mod) (p addr : Nat) : Int :=
  match s.objHolding p addr 1 with
  | some (_, o) => o.anchor
  | none => 0

/-- One masked write through a polder's page table; a write where no page is mapped is dropped. -/
def Mod.putOne (s : Mod) (p : Nat) (m : List Host.Cell) (w : WCell) : List Host.Cell :=
  match s.phys p w.addr with
  | some a => putCell m { w with addr := a }
  | none => m

/-- Apply masked writes to a polder's memory. -/
def Mod.putMem (s : Mod) (p : Nat) (cells : List WCell) : Mod :=
  { s with mem := { s.mem with cells := cells.foldl (s.putOne p) s.mem.cells } }

/-- Apply every contribution of a frame to one element (R230 to R232): its new code, and flags of MT_NMR_STATUS. -/
def Mod.reduceAt (s : Mod) (p addr : Nat) (cs : List Contrib) : Mod × Bool :=
  match cs with
  | [] => (s, false)
  | c :: _ =>
    let n := contribBytes c.kind
    let (code, fl) := reduceElem (s.anchorAt p addr) c.kind (s.getN p addr n) cs
    ((s.putMem p (wcells addr (leBytes code n))).raiseBits .MT_NMR_STATUS p (BitVec.ofNat 32 fl), fl.testBit 2)

/-- The addresses that contributions of a polder name, and each with its contributions in turn. -/
def Mod.reduceAll (s : Mod) (p : Nat) (cs : List Contrib) : Mod × List Nat :=
  (dedup (cs.map (·.addr))).foldl (fun (acc : Mod × List Nat) a =>
    let r := acc.1.reduceAt p a (cs.filter fun c => c.addr == a)
    (r.1, if r.2 then acc.2 ++ [a] else acc.2)) (s, [])

/-- The 32-byte granules that masked writes touch. -/
def granules (cells : List WCell) : List Nat := dedup (cells.map fun w => w.addr / 32)

/-- The object's descriptors become stale (R198), and its pages leave (R220). -/
def Mod.releaseObj (s : Mod) (p n : Nat) : Mod :=
  match s.obj p n with
  | none => s
  | some o =>
    let mine := s.mem.pages.cells.filter fun c => c.1 / 2 ^ 27 == p && c.2.obj == n
    let s := { s with mem := { s.mem with pages := s.mem.pages.filter (fun k e => !(k / 2 ^ 27 == p && e.obj == n)), objs := s.mem.objs.del (objKey p n) } }
    let s := mine.foldl (fun s c => s.queueZero c.2.id c.2.retire) s
    let s := { s with td := s.td.map fun k d => if k / 65536 == p && (d.words.isEmpty || meetsObj o d) then { d with stale := true } else d }
    -- system-area pages that hold no leaf table in use (R219)
    let area := s.mem.sysArea.filter fun a => a.1 == p
    let keep := sysPages (max 1 (s.regions p).length)
    let drop := (area.drop (max keep 3))
    let s := { s with mem := { s.mem with sysArea := s.mem.sysArea.filter fun a => !(drop.any fun d => d == a) } }
    drop.foldl (fun s a => s.queueZero a.2.2 false) s
where
  /-- Whether a descriptor's footprint or scale array lies in an object: their first bytes do (a creation checks that each lies in one object, R196); an empty tensor
  has neither (R193). -/
  meetsObj (o : Obj) (d : Desc) : Bool :=
    let w (i : Nat) := (d.words.getD i 0).toNat
    bits (w 0) 26 25 == 0 && w 2 != 0 && w 3 + bits (w 5) 31 24 != 0 && bits (w 4) 15 0 != 0 && bits (w 4) 31 16 != 0 && (o.holds (w 6 + 2 ^ 32 * bits (w 7) 15 0) 1 || (w 14 + 2 ^ 32 * bits (w 15) 15 0 != 0 && o.holds (w 14 + 2 ^ 32 * bits (w 15) 15 0) 1))

end Sys2Proof.Machine
end

