-- ==== Sys2Proof/Machine/Flags.lean ====
section
/-! DEFINITION. Flags: conversion flag words (R92), accumulator flags (R108, R123, R158), block status (R93, R165), alert causes (R303). -/

namespace Sys2Proof.Machine

/-- Conversion flags go to a register's low byte (R92); stochastic rounding is recorded for the polder's step as well (R86). -/
def Mod.cvFlags (s : Mod) (r : RegName) (idx : Nat) (f : CvFlags) : Mod :=
  let s := s.raiseBits r idx (f.setWidth 32)
  if f &&& cvSRUSED = 0 then s else s.raise .FC_DET_STATUS_SR_USED 0

/-- A cause bit of a polder's alert register is set; its message follows at the sluice (R302, R303). -/
def Mod.alert (s : Mod) (f : Fld) (p : Nat) : Mod := s.raise f p

/-- An alert in every polder. -/
def Mod.alertAll (s : Mod) (f : Fld) : Mod := (List.range s.polders).foldl (fun s p => s.alert f p) s

/-- What a long accumulator of R108 noticed: WIN_LOW, WIN_HIGH; ACC_INEXACT where either changed a contribution; how many contributions changed (R436). -/
structure AccFlags where
  low : Bool
  high : Bool
  special : Bool
  n : Nat
  deriving DecidableEq, Repr

/-- No flag. -/
def AccFlags.none : AccFlags := ⟨false, false, false, 0⟩

/-- The flags of both. -/
def AccFlags.or (a b : AccFlags) : AccFlags := ⟨a.low || b.low, a.high || b.high, a.special || b.special, a.n + b.n⟩

/-- Whether ACC_INEXACT is set (R108). -/
def AccFlags.inexact (a : AccFlags) : Bool := a.low || a.high

/-- The status bits that FA_STATUS and DU_ROW_STATUS take: ACC_INEXACT 0, WIN_HIGH 1, WIN_LOW 2, SPECIAL 3 (R123, R158). -/
def AccFlags.bits (a : AccFlags) : Word :=
  BitVec.ofNat 32 ((if a.inexact then 1 else 0) + (if a.high then 2 else 0) + (if a.low then 4 else 0) + (if a.special then 8 else 0))

/-- A contribution placed in the 192-bit window of R108: the multiple of 2^-96, and what it set. -/
def placeAcc (v : Val) : Int × AccFlags :=
  match v with
  | .fin neg m e =>
    if m = 0 then (0, .none)
    else if dyLe 1 95 m e then (if neg then -(2 ^ 191 - 1 : Int) else 2 ^ 191 - 1, ⟨false, true, false, 1⟩)
    else if -96 ≤ e then (let n : Int := (m * 2 ^ (e + 96).toNat : Nat); (if neg then -n else n, .none))
    else
      let sh := (-96 - e).toNat
      let q := m / 2 ^ sh
      let r := m % 2 ^ sh
      let q := if 2 ^ sh < 2 * r ∨ (2 * r = 2 ^ sh ∧ q % 2 = 1) then q + 1 else q
      (if neg then -(q : Int) else (q : Int), ⟨r != 0, false, false, if r = 0 then 0 else 1⟩)
  | _ => (0, .none)

/-- A long accumulator: its total in multiples of 2^-96, its sticky bits NAN, PINF, NINF (R110), and what it noticed. -/
structure Acc where
  total : Int
  nan : Bool
  pinf : Bool
  ninf : Bool
  fl : AccFlags
  deriving DecidableEq, Repr

/-- An accumulator at its start. -/
def Acc.zero : Acc := ⟨0, false, false, false, .none⟩

/-- A contribution enters an accumulator (R108, R110). -/
def Acc.add (a : Acc) (v : Val) : Acc :=
  match v with
  | .nan => { a with nan := true }
  | .inf s => if s then { a with ninf := true } else { a with pinf := true }
  | .fin _ _ _ => match placeAcc v with
    | (n, f) => { a with total := a.total + n, fl := a.fl.or f }

/-- The resolved total: NaN, an infinity, or the exact finite total (R110). -/
def Acc.val (a : Acc) : Val :=
  if a.nan || (a.pinf && a.ninf) then .nan
  else if a.pinf then .inf false
  else if a.ninf then .inf true
  else .ofInt a.total (-96)

/-- The exact sum of values in a long accumulator (R153 xsum). -/
def xsum (vs : List Val) : Acc := vs.foldl Acc.add .zero

/-- The largest magnitude finite for both signs, TOP (06 format constants). -/
def Fmt.top : Fmt → Nat × Int
  | .w8 => (5, 13) | f => f.maxFinite false

/-- The exponent of the top binade, HTOP. -/
def Fmt.htop : Fmt → Int
  | .n4 => 0 | .n6 => 8 | .n8 => 4 | .w8 => 15 | .w12 => 31 | .w16 => 63 | _ => 127

/-- The histogram bin width. -/
def Fmt.binW : Fmt → Nat
  | .w12 => 2 | .w16 => 4 | _ => 1

/-- RANGE of the W formats: binades from the smallest subnormal to HTOP. -/
def Fmt.range : Fmt → Int
  | .w8 => 32 | .w12 => 66 | _ => 133

/-- ceil(log2(m * 2^e / (m' * 2^e'))) for positive magnitudes. -/
def ceilLog2Ratio (m : Nat) (e : Int) (m' : Nat) (e' : Int) : Int :=
  let k : Int := (Nat.log2 m : Int) + e - (Nat.log2 m' : Int) - e'
  -- the ratio lies in (2^(k-1), 2^(k+1))
  if dyLe m e m' (e' + k - 1) then k - 1 else if dyLe m e m' (e' + k) then k else k + 1

/-- floor(log2) of a positive magnitude. -/
def floorLog2 (m : Nat) (e : Int) : Int := (Nat.log2 m : Int) + e

/-- The amax of values (R83): the maximum magnitude, NaN skipped; whether a NaN was. -/
def amax (vs : List Val) : Val × Bool :=
  vs.foldl (fun (a, n) v => if v.isNan then (a, true) else (a.max v.abs, n)) (.zero, false)

/-- Current scaling (R163): the scale of a block from its amax, and whether it was clamped high or low. -/
def currentScale (f : Fmt) (a : Val) : Nat × Bool × Bool :=
  match a with
  | .nan => (127, false, false)
  | .inf _ => (254, false, false)
  | .fin _ m e =>
    if m = 0 then (127, false, false)
    else
      let s := 127 + ceilLog2Ratio m e f.top.1 f.top.2
      if 254 < s then (254, true, false) else if s < 0 then (0, false, true) else (s.toNat, false, false)

/-- A block's status (R93): bit 0 SAT, 1 ALLSAT, 2 ZERO, 3 NAN, from each element's source value, code and saturation. -/
def blockStatus (f : Fmt) (els : List (Val × Nat × Bool)) : Nat :=
  let sat := els.any (·.2.2)
  let allsat := !els.isEmpty && els.all (·.2.2)
  let zero := els.all (fun x => f.isZeroCode x.2.1) && els.any (fun x => !x.1.isZero)
  let nan := els.any (·.1.isNan)
  (if sat then 1 else 0) + (if allsat then 2 else 0) + (if zero then 4 else 0) + (if nan then 8 else 0)

/-- EXCESS of a block that set SAT or ZERO (R165), from its amax in code space. -/
def blockExcess (f : Fmt) (sub : Bool) (status : Nat) (ac : Val) : Nat :=
  match ac with
  | .fin _ m e =>
    if status.testBit 0 then (min 15 (max 1 (ceilLog2Ratio m e f.top.1 f.top.2))).toNat
    else if m = 0 then 0
    else
      let p : Nat × Int := if sub || f = .n4 then (1, f.minExp) else (1, f.minExp - (f.layout.2.1 : Int))
      (max 0 (min 15 (ceilLog2Ratio p.1 p.2 m e))).toNat
  | _ => if status.testBit 0 then 15 else 0

/-- A flag byte of R161 with one more encoding's status and EXCESS: bits ORed, EXCESS at its maximum. -/
def flagByteOr (old status excess : Nat) : Nat :=
  let ex := if status % 8 &&& 5 = 0 then old / 16 else max (old / 16) excess
  ex * 16 + (old % 16 ||| status)

/-- The histogram bin of a value (R167). -/
def histBin (f : Fmt) (sb : Nat) (x : Val) : Nat :=
  match x with
  | .fin _ m e =>
    if m = 0 then 0
    else (max 1 (min 30 ((floorLog2 m e - ((sb : Int) - 127) - f.htop) / (f.binW : Int) + 30))).toNat
  | _ => 31

end Sys2Proof.Machine
end

