-- ==== Sys2Proof/Machine/Operands.lean ====
section
/-! DEFINITION. Operands: parameter blocks, tensor references (R316), descriptors (R192), regions (R199 to R201), reading and writing
elements, encodings with their scales and draws, and the checks of R508. -/

namespace Sys2Proof.Machine

/-- A check's outcome: a value, or the status and DETAIL that end the command (R288, R508, R296). -/
abbrev Chk (α : Type) := Except (Nat × Nat) α

/-- DETAIL of a check that concerns no one parameter (R296). -/
def noDetail : Nat := 0xFF

/-- DETAIL of a parameter at an offset of the parameter block (R296, R312). -/
def detailAt (off : Nat) : Nat := 16 + off / 4

/-- Fail a check unless a condition holds. -/
def ensure (c : Bool) (status detail : Nat) : Chk Unit := if c then .ok () else .error (status, detail)

/-- The first failure of a list of checks. -/
def allChk : List (Chk Unit) → Chk Unit
  | [] => .ok ()
  | c :: rest => match c with
    | .ok _ => allChk rest
    | .error e => .error e

/-- A 32-bit word of a parameter block, by byte offset. -/
def pw (ps : List Word) (off : Nat) : Nat := (ps.getD (off / 4) 0).toNat

/-- A 64-bit field of a parameter block. -/
def pq (ps : List Word) (off : Nat) : Nat := pw ps off + 2 ^ 32 * pw ps (off + 4)

/-- A tensor reference (R316). -/
structure Tref where
  po : Nat
  handle : Nat
  whole : Bool
  off : List Nat
  ext : List Nat
  deriving DecidableEq, Repr

/-- The tensor reference at an offset of a parameter block. -/
def tref (ps : List Word) (o : Nat) : Tref :=
  let w (k : Nat) := pw ps (o + 4 * k)
  { po := o, handle := w 0 % 65536, whole := (w 0).testBit 16
    off := [w 1, w 3 + 2 ^ 32 * bits (w 5) 7 0, bits (w 6) 15 0, bits (w 7) 15 0]
    ext := [w 2, w 4 + 2 ^ 32 * bits (w 5) 23 16, bits (w 6) 31 16, bits (w 7) 31 16] }

/-- The RSV fields of a tensor reference are 0, and with WHOLE every OFF and EXT is (R312, R316): the first offending word. -/
def trefRsv (ps : List Word) (o : Nat) : Option Nat :=
  let w (k : Nat) := pw ps (o + 4 * k)
  if w 0 / 2 ^ 17 ≠ 0 then some o
  else ([1, 2, 3, 4, 5, 6, 7].find? fun k => ((w 0).testBit 16 && w k != 0) || (k == 5 && w 5 &&& 0xFF00FF00 != 0)).map fun k => o + 4 * k

/-- The fields of a descriptor's 64 bytes. -/
def Td.of (d : List Word) : Td :=
  let w (k : Nat) := (d.getD k 0).toNat
  { grid := (w 0).testBit 27, space := bits (w 0) 26 25, index := (w 0).testBit 24, axis := bits (w 0) 23 22, padv := bits (w 0) 21 20,
    nullNeg := (w 0).testBit 19, writable := (w 0).testBit 28, cvc := Cvc.ofNat (bits (w 0) 15 0),
    aft := [bits (w 1) 15 8, bits (w 1) 31 24, 0, 0], bef := [bits (w 1) 7 0, bits (w 1) 23 16, 0, 0],
    ext := [w 2, w 3 + 2 ^ 32 * bits (w 5) 31 24, bits (w 4) 15 0, bits (w 4) 31 16],
    bank := bits (w 5) 14 14, useSlot := (w 5).testBit 12, slot := bits (w 5) 11 0,
    base := w 6 + 2 ^ 32 * bits (w 7) 15 0,
    stride := [0, w 8 + 2 ^ 32 * bits (w 9) 15 0, w 10 + 2 ^ 32 * bits (w 11) 15 0, w 12 + 2 ^ 32 * bits (w 13) 15 0],
    sbase := w 14 + 2 ^ 32 * bits (w 15) 15 0 }

/-- The nth of four. -/
def at4 (l : List Nat) (d : Nat) : Nat := l.getD d 0

/-- The logical extent of a dimension (R199). -/
def Td.logical (t : Td) (d : Nat) : Nat := at4 t.bef d + at4 t.ext d + at4 t.aft d

/-- Whether a tensor is empty (R193). -/
def Td.empty (t : Td) : Bool := t.ext.any (· == 0)

/-- Row length in bytes for a format (R193). -/
def Td.rowBytes (t : Td) (f : Fmt) : Nat := ceilDiv (at4 t.ext 0) f.unitElems * f.unitBytes

/-- Length of the footprint in bytes (R193). -/
def Td.footLen (t : Td) (f : Fmt) : Nat :=
  if t.empty then 0
  else (at4 t.ext 1 - 1) * at4 t.stride 1 + (at4 t.ext 2 - 1) * at4 t.stride 2 + (at4 t.ext 3 - 1) * at4 t.stride 3 + t.rowBytes f

/-- The reduced extents of R194 for a block size. -/
def Td.reduced (t : Td) (b : Nat) (d : Nat) : Nat := if d = t.axis then ceilDiv (at4 t.ext d) b else at4 t.ext d

/-- Bytes of the scale array: one per block (R194). -/
def Td.scaleLen (t : Td) (b : Nat) : Nat :=
  if b = 0 ∨ t.empty then 0 else t.reduced b 0 * t.reduced b 1 * t.reduced b 2 * t.reduced b 3

/-- Coordinates in the four dimensions. -/
abbrev Co := Nat × Nat × Nat × Nat

/-- A coordinate by dimension. -/
def Co.get (c : Co) (d : Nat) : Nat := if d = 0 then c.1 else if d = 1 then c.2.1 else if d = 2 then c.2.2.1 else c.2.2.2

/-- The block number of a stored element (R194). -/
def Td.block (t : Td) (b : Nat) (c : Co) : Nat :=
  let j (d : Nat) := if d = t.axis then c.get d / b else c.get d
  j 0 + t.reduced b 0 * (j 1 + t.reduced b 1 * (j 2 + t.reduced b 2 * j 3))

/-- The byte address of the unit that holds a stored element, and the bit of the element in the unit (R80, R193). -/
def Td.unitAt (t : Td) (f : Fmt) (c : Co) : Nat × Nat :=
  (t.base + c.2.1 * at4 t.stride 1 + c.2.2.1 * at4 t.stride 2 + c.2.2.2 * at4 t.stride 3 + c.1 / f.unitElems * f.unitBytes,
   c.1 % f.unitElems * f.width)

/-- The encoding that a gradient slot gives (R143, R160, R183). -/
def Mod.slotEnc (s : Mod) (n : Nat) : Enc :=
  let f := (Fmt.ofCode (s.fld .GS_CTRL_FMT n)).getD .w16
  { fmt := f, blk := if f.allowsBlock then blkSize (s.fld .GS_CTRL_BLK n) else 0, rnd := s.bit .GS_CTRL_RND n, sub := s.bit .GS_CTRL_SUB n,
    slot := some n, delayed := !s.bit .GS_CTRL_MODE n, base := s.fld .GS_BASE_BASE n }

/-- The encoding of a descriptor: its CVC's, or its slot's where it follows one (R143; log entry 20). -/
def Mod.encOf (s : Mod) (t : Td) : Enc :=
  if t.useSlot then s.slotEnc t.slot
  else { fmt := (Fmt.ofCode t.cvc.fmt).getD .f32, blk := blkSize t.cvc.blk, rnd := t.cvc.rnd, sub := t.cvc.sub, slot := none, delayed := false, base := 127 }

/-! ## Checks of R508 -/

/-- The descriptor that a handle names for work: one that a RUN_PROGRAM latched, which stays whatever becomes of the handle, or a live one that is not stale (R198, R320). -/
def Mod.descOf (s : Mod) (c : Ctx) (h : Nat) : Option Desc :=
  match c.handles with
  | some l => l.lookup h
  | none => match s.td.get (objKey c.pol h) with
    | some d => if d.stale then none else some d
    | none => none

/-- Step 1 of R508: the operand that a tensor reference names; none for handle 0 where the operand may be absent.
A tensor in the SRAM of a tile marked in MC_TILE_FAILED fails with TILE_FAULT (R392). -/
def Mod.operand (s : Mod) (c : Ctx) (tile : Nat) (ps : List Word) (o : Nat) (required : Bool) : Chk (Option Opd) :=
  let r := tref ps o
  if r.handle = 0 then (if required then .error (0x10, detailAt o) else .ok none)
  else match s.descOf c r.handle with
    | none => .error (0x10, detailAt o)
    | some d =>
      if (Td.of d.words).space = 1 ∧ s.tileMarked tile then .error (0xF9, noDetail)
      else
        let t := Td.of d.words
        let whole := [t.logical 0, t.logical 1, t.logical 2, t.logical 3]
        .ok (some { po := o, handle := r.handle, td := t, loc := if t.space = 1 then .sram tile else .dev c.pol,
                    off := if r.whole then [0, 0, 0, 0] else r.off, ext := if r.whole then whole else r.ext, enc := s.encOf t })

/-- Step 2 of R508: the region lies within the logical extent (R201). -/
def Opd.bounds (o : Opd) : Chk Unit :=
  ensure ([0, 1, 2, 3].all fun d => decide (at4 o.off d + at4 o.ext d ≤ o.td.logical d)) 0x12 (detailAt o.po)

/-- A slot is enabled and of the polder (R162); the caller adds what the operation may write. -/
def Mod.slotUsable (s : Mod) (p n : Nat) : Bool := s.bit .GS_CTRL_ENABLE n && s.fld .GS_CTRL_POLDER n == p

/-- Step 3 of R508 for an operand that follows a gradient slot. -/
def Mod.slotChk (s : Mod) (c : Ctx) (o : Opd) : Chk Unit :=
  match o.enc.slot with
  | some n => ensure (s.slotUsable c.pol n) 0x30 (detailAt o.po)
  | none => .ok ()

/-- Step 5 of R508: the descriptor is writable (R195). -/
def Opd.writable (o : Opd) : Chk Unit := ensure o.td.writable 0x14 (detailAt o.po)

/-- Whether the region or the tensor is empty (R201). -/
def Opd.isEmpty (o : Opd) : Bool := o.td.empty || o.ext.any (· == 0)

/-- Elements of the region. -/
def Opd.count (o : Opd) : Nat := at4 o.ext 0 * at4 o.ext 1 * at4 o.ext 2 * at4 o.ext 3

/-- The region's ith coordinate in linear order, dimension 0 fastest. -/
def Opd.co (o : Opd) (i : Nat) : Co :=
  let e0 := at4 o.ext 0
  let e1 := at4 o.ext 1
  let e2 := at4 o.ext 2
  (i % e0, i / e0 % e1, i / (e0 * e1) % e2, i / (e0 * e1 * e2))

/-- The stored coordinates of a region coordinate; none at a padding position (R199). -/
def Opd.stored (o : Opd) (c : Co) : Option Co :=
  let l0 := at4 o.off 0 + c.1
  let l1 := at4 o.off 1 + c.2.1
  let b0 := at4 o.td.bef 0
  let b1 := at4 o.td.bef 1
  if b0 ≤ l0 ∧ l0 < b0 + at4 o.td.ext 0 ∧ b1 ≤ l1 ∧ l1 < b1 + at4 o.td.ext 1 then
    some (l0 - b0, l1 - b1, at4 o.off 2 + c.2.2.1, at4 o.off 3 + c.2.2.2)
  else none

/-- Whether the region covers wholly every destination block that it touches along the block axis (R506). -/
def Opd.wholeBlocks (o : Opd) : Bool :=
  o.enc.blk == 0 ||
  let d := o.td.axis
  let b := o.enc.blk
  let lo := at4 o.off d - at4 o.td.bef d
  let hi := min (at4 o.off d + at4 o.ext d - at4 o.td.bef d) (at4 o.td.ext d)
  decide (lo % b = 0 ∨ at4 o.off d ≤ at4 o.td.bef d ∨ at4 o.td.ext d ≤ lo) && (decide (hi % b = 0) || hi == at4 o.td.ext d)

/-- Step 4 of R508 for a destination: whole blocks (R506), and no read-only object (R507). -/
def Mod.destPlace (s : Mod) (o : Opd) : Chk Unit :=
  match o.loc with
  | .sram _ => ensure o.wholeBlocks 0x14 (detailAt o.po)
  | .dev p => do
    ensure o.wholeBlocks 0x14 (detailAt o.po)
    ensure (!s.readonly p o.td.base (o.td.footLen o.enc.fmt) && !s.readonly p o.td.sbase (o.td.scaleLen o.enc.blk)) 0x14 (detailAt o.po)

/-- Every tensor of a tile opcode lies in tile SRAM (R317). -/
def Opd.inTile (o : Opd) : Chk Unit := ensure (o.td.space == 1) 0x14 (detailAt o.po)

/-! ## Reading -/

/-- The code of a stored element. -/
def Mod.codeAt (s : Mod) (o : Opd) (c : Co) : Nat :=
  let (a, b) := o.td.unitAt o.enc.fmt c
  s.locN o.loc a o.enc.fmt.unitBytes / 2 ^ b % 2 ^ o.enc.fmt.width

/-- The S8 scale of a stored element; 127 where the tensor is unscaled. -/
def Mod.scaleAt (s : Mod) (o : Opd) (c : Co) : Nat :=
  if o.enc.blk = 0 then 127 else (s.locB o.loc (o.td.sbase + o.td.block o.enc.blk c)).toNat

/-- The padding value (R192 PADV). -/
def Td.pad (t : Td) : Val := if t.padv = 1 then .inf true else .zero

/-- The flags of R92 for a special source element. -/
def Val.seen (x : Val) : CvFlags := if x.isNan then cvNANIN else if x.isInf then cvINFIN else 0

/-- The exact value of a region's element, with its scale (R77), and its flags as a source read with a subnormal mode (R76, R84, R92). -/
def Mod.elemVal (s : Mod) (o : Opd) (sub : Bool) (c : Co) : Val × CvFlags :=
  match o.stored c with
  | none => (o.td.pad, 0)
  | some st =>
    let k := s.codeAt o st
    let sc := s.scaleAt o st
    if o.enc.fmt.isFloat then
      match o.enc.fmt.source sub k with
      | (v, f) => if o.enc.blk ≠ 0 ∧ sc = 255 then (.nan, cvNANIN)
        else (v.scale ((sc : Int) - 127), f)
    else (o.enc.fmt.decode k, 0)

/-- An element of the region, decoded to F32 (R91, R152), with the flags of R92: F32 is the identity, which takes no flag and keeps subnormals (R75, R88); another exact pair
stays exact; a block-scaled code narrows, to nearest even and with SUB = 0 (DESIGN CHOICE, log entry 90). Padding sets no flag (R199). -/
def Mod.elemF32 (s : Mod) (o : Opd) (c : Co) : Nat × CvFlags :=
  match o.stored c with
  | none => (o.td.pad.toF32, 0)
  | some st =>
    if o.enc.fmt = .f32 then (s.codeAt o st, 0) else
    match s.elemVal o o.enc.sub c with
    | (v, f) => if o.enc.blk = 0 then (v.toF32, f ||| v.seen) else
      match narrow .f32 false none v with
      | (k, g) => (k, f ||| g)

/-- Whether the region of an operand in device memory holds a poisoned granule (R236). -/
def Mod.opdPoison (s : Mod) (o : Opd) : Bool :=
  !s.mem.poison.isEmpty &&
  match o.loc with
  | .sram _ => false
  | .dev p => (List.range (at4 o.ext 1 * at4 o.ext 2 * at4 o.ext 3)).any fun i =>
    let c : Co := (0, i % at4 o.ext 1, i / at4 o.ext 1 % at4 o.ext 2, i / (at4 o.ext 1 * at4 o.ext 2))
    match o.stored (max c.1 (at4 o.td.bef 0 - at4 o.off 0), c.2) with
    | some st => s.poisoned p (o.td.unitAt o.enc.fmt st).1 (ceilDiv (at4 o.ext 0) o.enc.fmt.unitElems * o.enc.fmt.unitBytes + o.enc.fmt.unitBytes)
        || (o.enc.blk != 0 && s.poisoned p (o.td.sbase + o.td.block o.enc.blk st) 1)
    | none => false

/-! ## Writing -/

/-- Masked writes of a value of n bytes under a bit mask. -/
def maskCells (addr v m : Nat) : Nat → List WCell
  | 0 => []
  | n + 1 =>
    let rest := maskCells (addr + 1) (v / 256) (m / 256) n
    if m % 256 = 0 then rest else ⟨addr, BitVec.ofNat 8 v, BitVec.ofNat 8 m⟩ :: rest

/-- The write of a code at a stored element; one in the last unit of a row clears the positions of the unit beyond EXT0 (R195). -/
def Opd.cellsAt (o : Opd) (c : Co) (code : Nat) : List WCell :=
  let f := o.enc.fmt
  let (a, b) := o.td.unitAt f c
  let last := at4 o.td.ext 0 - 1
  let tail := if c.1 / f.unitElems = last / f.unitElems then 2 ^ (f.unitBytes * 8) - 2 ^ (f.width * (last % f.unitElems + 1)) else 0
  let mask := (2 ^ f.width - 1) * 2 ^ b + tail
  maskCells a (code * 2 ^ b) mask f.unitBytes

/-- The write of a block's scale. -/
def Opd.scaleCell (o : Opd) (blk sc : Nat) : WCell := ⟨o.td.sbase + blk, BitVec.ofNat 8 sc, 0xFF#8⟩

/-- What a converting unit produces: writes at the destination, flags, lane states (R87), block counts (R182), clamps, and a slot's counts and bins (R166, R167),
flag bytes (R161); draws and flushed elements (R436). -/
structure Conv where
  cells : List WCell
  fl : CvFlags
  lanes : Tbl Nat
  seed : Nat
  sat : Nat
  zero : Nat
  hi : Bool
  lo : Bool
  cConv : Nat
  cFlag : Nat
  cSat : Nat
  bins : List (Nat × Nat)
  marks : List (Nat × Nat × Nat)
  srs : Nat
  flushes : Nat
  deriving DecidableEq, Repr

/-- A converter at its start, with its lanes as the work found them (R87). -/
def Conv.start (c : Ctx) : Conv := ⟨[], 0, c.lanes, c.seed, 0, 0, false, false, 0, 0, 0, [], [], 0, 0⟩

/-- One draw on a lane of a unit (R87). -/
def Conv.draw (v : Conv) (unit lane : Nat) : Nat × Conv :=
  let k := unit * 256 + lane
  match Machine.draw (v.lanes.getD k (laneSeed v.seed unit lane)) with
  | (g, r) => (r, { v with lanes := v.lanes.set k g })

/-- Count a histogram bin. -/
def binAdd (bins : List (Nat × Nat)) (b : Nat) : List (Nat × Nat) :=
  match bins with
  | [] => [(b, 1)]
  | (k, n) :: rest => if k = b then (k, n + 1) :: rest else (k, n) :: binAdd rest b

/-- One narrowing conversion with its draw: the code, whether it saturated, and the converter after it (R86, R90). A padding position's value sets no flag as a source (R199). -/
def Conv.narrow (v : Conv) (e : Enc) (unit lane : Nat) (x : Val) (pad : Bool) : Nat × Bool × Conv :=
  let (r, v) := if e.rnd then (let d := v.draw unit lane; (some d.1, d.2)) else (none, v)
  match Machine.narrow e.fmt e.sub r x with
  | (k, f) => let f := if pad then f &&& ~~~(cvNANIN ||| cvINFIN) else f; (k, f &&& cvSAT != 0, { v with fl := v.fl ||| f, srs := v.srs + (if e.rnd then 1 else 0), flushes := v.flushes + (if f &&& cvFLUSH = 0 then 0 else 1) })

/-- One element to convert: its lane, its stored destination coordinate (none at padding: skipped), its exact value, whether its source
format is exact into the destination (R88) so that it takes no draw and sets no flag but those of R92 for special source elements, and the draws that another output of the same element takes on
the lane before and after. `raw` is the code of an identity (R88), copied as it is. `pad` marks the value of a source's padding position, which is not binned and sets no flag as a
source (R199). -/
structure Item where
  lane : Nat
  dst : Option Co
  x : Val
  exact : Bool
  pre : Nat := 0
  post : Nat := 0
  raw : Option Nat := none
  pad : Bool := false
  deriving DecidableEq, Repr

/-- The flags of R92 for a special source element that an exact conversion reads; an identity sets none (R88). -/
def Item.seen (it : Item) : CvFlags := if it.raw.isSome || it.pad then 0 else it.x.seen

/-- The scale of a block that is encoded: current scaling over the block's values (R163), or the slot's base plus the block's offset as committed (R160, R161). -/
def Mod.blockScale (s : Mod) (c : Ctx) (e : Enc) (b : Nat) (xs : List Val) : Nat × Bool × Bool :=
  if e.delayed then
    let n := e.slot.getD 0
    let o := (s.getB c.pol (s.pair .GS_OFS_ADDR_LO .GS_OFS_ADDR_HI n + b)).toInt
    let sc : Int := (e.base : Int) + o
    (s8Clamp sc, decide (254 < sc), decide (sc < 0))
  else currentScale e.fmt (amax xs).1

/-- Draws on a lane that belong to another output. -/
def Conv.skip (v : Conv) (unit lane : Nat) : Nat → Conv
  | 0 => v
  | n + 1 => (v.draw unit lane).2.skip unit lane n

/-- Convert items in their order into an unscaled destination. -/
def Conv.plain (v : Conv) (o : Opd) (unit : Nat) (items : List Item) : Conv :=
  items.foldl (fun v it => match it.dst with
    | none => v.skip unit it.lane (it.pre + it.post)
    | some st =>
      let v := if o.enc.slot.isSome && !it.pad then { v with bins := binAdd v.bins (histBin o.enc.fmt 127 it.x) } else v
      let v := v.skip unit it.lane it.pre
      let v := if it.exact then { v with cells := v.cells ++ o.cellsAt st (it.raw.getD (exactConvert o.enc.fmt it.x)), fl := v.fl ||| it.seen }
        else match v.narrow o.enc unit it.lane it.x it.pad with
          | (k, sat, v) => { v with cells := v.cells ++ o.cellsAt st k, cSat := v.cSat + (if sat && o.enc.slot.isSome then 1 else 0) }
      v.skip unit it.lane it.post) v

/-- Convert items in their order into a block-scaled destination: every block takes its scale, its status and its flag byte from its own elements (R93, R160 to R167). -/
def Mod.convBlocks (s : Mod) (c : Ctx) (v : Conv) (o : Opd) (unit : Nat) (items : List Item) : Conv :=
  let bOf (st : Co) := o.td.block o.enc.blk st
  let blocks := dedup (items.filterMap fun it => it.dst.map bOf)
  let scales := blocks.map fun b => (b, s.blockScale c o.enc b (items.filterMap fun it => match it.dst with
    | some st => if bOf st = b then some it.x else none
    | none => none))
  let scaleOf (b : Nat) := ((scales.lookup b).getD (127, false, false)).1
  let v := { v with hi := v.hi || scales.any (·.2.2.1), lo := v.lo || scales.any (·.2.2.2), cells := v.cells ++ scales.map fun x => o.scaleCell x.1 x.2.1,
                    fl := if items.any (fun it => it.dst.isSome && it.x.isNan) then v.fl ||| cvNANIN else v.fl }
  let r := items.foldl (fun (acc : Conv × List (Nat × Val × Nat × Bool)) it => match it.dst with
    | none => (acc.1.skip unit it.lane (it.pre + it.post), acc.2)
    | some st =>
      let b := bOf st
      let v := if o.enc.slot.isSome && !it.pad then { acc.1 with bins := binAdd acc.1.bins (histBin o.enc.fmt (scaleOf b) it.x) } else acc.1
      match (v.skip unit it.lane it.pre).narrow o.enc unit it.lane (it.x.scale (127 - (scaleOf b : Int))) it.pad with
      | (k, sat, v) => ({ v with cells := v.cells ++ o.cellsAt st k }.skip unit it.lane it.post, acc.2 ++ [(b, it.x, k, sat)])) (v, [])
  blocks.foldl (fun v b =>
    let els := r.2.filterMap fun e => if e.1 = b then some e.2 else none
    let st := blockStatus o.enc.fmt els
    let ex := blockExcess o.enc.fmt o.enc.sub st ((amax (els.map (·.1))).1.scale (127 - (scaleOf b : Int)))
    { v with sat := v.sat + st % 2, zero := v.zero + st / 4 % 2, cConv := v.cConv + 1, cFlag := v.cFlag + (if st % 8 &&& 5 = 0 then 0 else 1),
             cSat := v.cSat + st % 2, marks := if st = 0 then v.marks else v.marks ++ [(b, st, ex)] }) r.1

/-- Convert items into a destination in its encoding. -/
def Mod.convert (s : Mod) (c : Ctx) (v : Conv) (o : Opd) (unit : Nat) (items : List Item) : Conv :=
  if o.enc.blk = 0 then v.plain o unit items else s.convBlocks c v o unit items

/-- A slot's effects of an encoding, whatever its mode: counts, bins, and flag bytes ORed as committed with the frame's earlier ones (R161, R166). -/
def Mod.slotEffs (s : Mod) (c : Ctx) (o : Opd) (v : Conv) : List Eff :=
  match o.enc.slot with
  | none => []
  | some n =>
    let fa := s.pair .GS_FLAG_ADDR_LO .GS_FLAG_ADDR_HI n
    [.slotCount n v.cConv v.cFlag v.cSat v.bins, .slotMarks c.pol fa v.marks]

/-- What a die's counters take of a conversion (R436). -/
def Conv.events (v : Conv) (die : Nat) : List Eff :=
  [(15, v.srs), (16, v.flushes)].filterMap fun x => if x.2 = 0 then none else some (.event die x.1 x.2)

/-- The lanes' states after the draws of work, where they go on: those of the open step, or of the RUN_PROGRAM whose work it is; a packet's work is all of its command (R87). -/
def Conv.laneEffs (v : Conv) (c : Ctx) : List Eff :=
  if c.fresh && c.prog.isNone then [] else
  (v.lanes.cells.filter fun l => c.lanes.get l.1 != some l.2).map fun l => .lane (if c.fresh then c.prog else none) l.1 l.2

/-- The state with masked writes applied at a place at once: a scratch state to read an output back from. -/
def Mod.putLoc (s : Mod) (l : Loc) (cells : List WCell) : Mod :=
  match l with
  | .dev p => s.putMem p cells
  | .sram t => { s with tile := { s.tile with sram := s.tile.sram.set t (cells.foldl putCell (s.tile.sram.getD t [])) } }

end Sys2Proof.Machine
end

