-- ==== Sys2Proof/Machine/Copy.lean ====
section
/-! DEFINITION. Copying in device memory, and the copy-first rule of checkpoints (08 R223, 13 R393, R394). -/

namespace Sys2Proof.Machine

/-- Poison of a range of a polder's granules moves with a copy: the granules of the destination (R236). -/
def Mod.poisonRange (s : Mod) (p src dst n : Nat) : List Nat :=
  if s.mem.poison.isEmpty then [] else
  (List.range (n / 32)).filterMap fun k => match s.phys p (src + 32 * k), s.phys p (dst + 32 * k) with
    | some a, some b => if has s.mem.poison (a / 32) then some (b / 32) else none
    | _, _ => none

/-- Granules take poison. -/
def Mod.addPoison (s : Mod) (gs : List Nat) : Mod := { s with mem := { s.mem with poison := gs.foldl addOnce s.mem.poison } }

/-- The state with bytes of a polder's memory copied, poison included: no write under R46 (R223, R236). -/
def Mod.copyBytes (s : Mod) (p src dst n : Nat) : Mod := (s.putMem p (wcells dst (s.getBs p src n))).addPoison (s.poisonRange p src dst n)

/-- The 64 KiB sub-blocks of a checkpoint's ranges in range order, by their addresses (R393). -/
def Ckpt.subs (k : Ckpt) : List Nat := k.ranges.flatMap fun r => (List.range (r.2 / 65536)).map fun j => r.1 + 65536 * j

/-- A word of a checkpoint's head, 64 bits (R393). -/
def Mod.putHead (s : Mod) (p obj off v : Nat) : Mod :=
  match s.obj p obj with
  | some o => s.putMem p (wcells (o.base + off) (leBytes v 8))
  | none => s

/-- The sub-blocks among some that are still pending. -/
def Ckpt.pendingOf (k : Ckpt) (is : List Nat) : List Nat := let n := k.subs.length; (dedup is).filter fun i => !has k.copied i && decide (i < n)

/-- Sub-blocks of a checkpoint are no longer pending (R394). -/
def Mod.markSubs (s : Mod) (k : Ckpt) (is : List Nat) : Mod :=
  let mark (x : Ckpt) : Ckpt := if x.pol = k.pol ∧ x.obj = k.obj then { x with copied := x.copied ++ is } else x
  { s with mem := { s.mem with ckpts := s.mem.ckpts.map mark } }

/-- Sub-blocks of a checkpoint are copied, and COPIED with them (R394). -/
def Mod.copySubs (s : Mod) (k : Ckpt) (is : List Nat) : Mod :=
  let subs := k.subs
  let is := k.pendingOf is
  match s.obj k.pol k.obj with
  | none => s
  | some o =>
    if is.isEmpty then s else
    let s := is.foldl (fun s i => s.copyBytes k.pol (subs.getD i 0) (o.base + 65536 + 65536 * i) 65536) s
    (s.putHead k.pol k.obj 0x20 (65536 * (k.copied.length + is.length))).markSubs k is

/-- The copies of a sluice as writes of a migration engine: those that a checkpoint's pace asks for, and those of pending sub-blocks that are about to be written, which
are copied first (R46, R394). -/
def Mod.ckptCopies (s : Mod) (k : Ckpt) (is : List Nat) : Mod × List Staged :=
  let subs := k.subs
  let is := k.pendingOf is
  match s.obj k.pol k.obj with
  | none => (s, [])
  | some o =>
    if is.isEmpty then (s, []) else
    let rank := rankMe (((s.diesOf k.pol).head?).getD 0) 0
    (s.markSubs k is, (is.map fun i => ⟨rank, none, none, .copyRange k.pol (subs.getD i 0) (o.base + 65536 + 65536 * i) 65536⟩)
      ++ [⟨rank, none, none, .mem k.pol (wcells (o.base + 0x20) (leBytes (65536 * (k.copied.length + is.length)) 8))⟩])

/-- Pending sub-blocks that addresses touch are copied before the new values are applied (R394). -/
def Mod.saveFirst (s : Mod) (p : Nat) (addrs : List Nat) : Mod :=
  s.mem.ckpts.foldl (fun s k =>
    if k.pol ≠ p then s else
    s.copySubs k ((k.subs.zipIdx.filter fun x => addrs.any fun a => a / 65536 == x.1 / 65536).map (·.2))) s

/-- Masked writes at a sluice that is being taken: checkpoints first. A granule written whole loses its poison (log entry 25). -/
def Mod.writeNow (s : Mod) (p : Nat) (cells : List WCell) : Mod :=
  let s := s.saveFirst p (dedup (cells.map fun w => w.addr / 65536 * 65536))
  let s := s.putMem p cells
  if s.mem.poison.isEmpty then s else
  let whole := (granules cells).filter fun g => (List.range 32).all fun i => cells.any fun w => w.addr == 32 * g + i && w.mask == 0xFF#8
  let ids := whole.filterMap fun g => (s.phys p (32 * g)).map (· / 32)
  { s with mem := { s.mem with poison := s.mem.poison.filter fun g => !has ids g } }

/-- Sub-blocks that a checkpoint copies in a frame on its own pace: spread evenly over its frames (R394; log entry 19). -/
def Ckpt.paced (k : Ckpt) (f : Nat) : List Nat := List.range (k.subs.length * (f - k.at_) / max 1 k.span)

/-! ## Writes in the order of R46 -/

/-- What writes a granule in step 3 or 4: the place as a key, and the source's rank (R46). -/
def Staged.touches (e : Staged) : List (Nat × Nat) :=
  match e.eff with
  | .mem p cells => (granules cells).map fun g => (p * 2 ^ 60 + g, e.rank)
  | .poison p gs => gs.map fun g => (p * 2 ^ 60 + g, e.rank)
  | .sram t cells => (granules cells).map fun g => ((t + 8) * 2 ^ 60 + g, e.rank)
  | _ => []

/-- The ranges of a polder's memory that an effect writes or adds to: polder, address, bytes. -/
def Staged.places (e : Staged) : List (Nat × Nat × Nat) :=
  match e.eff with
  | .mem p cells => cells.map fun w => (p, w.addr, 1)
  | .poison p gs => gs.map fun g => (p, 32 * g, 32)
  | .copyRange p _ dst n => [(p, dst, n)]
  | .reduce p cs => cs.map fun c => (p, c.addr, contribBytes c.kind)
  | _ => []

/-- Granules of a polder's memory become poisoned. -/
def Mod.putPoison (s : Mod) (p : Nat) (gs : List Nat) : Mod :=
  (s.saveFirst p (gs.map (32 * ·))).addPoison (gs.filterMap fun g => (s.phys p (32 * g)).map (· / 32))

/-- One write of step 3 or 4. -/
def Mod.applyWrite (s : Mod) (e : Staged) : Mod :=
  match e.eff with
  | .mem p cells => s.writeNow p cells
  | .poison p gs => s.putPoison p gs
  | .sram t cells => s.putLoc (.sram t) cells
  | _ => s

/-- A write that the events of the sluice bring after its steps 3 and 4 takes its place in the order of R46: writes of later sources stay over it. -/
def Mod.writeLate (s : Mod) (e : Staged) : Mod :=
  let writes := (s.fc.window.map Window.writes).getD []
  let mine := e.touches
  let s := if (writes.flatMap Staged.touches).any fun x => mine.any fun y => x.1 == y.1 && x.2 != y.2 then s.raise .FC_DET_STATUS_WRITE_CONFLICT 0 else s
  let at_ := (e.places).map fun x => (x.1, x.2.1)
  (writes.filter fun w => decide (e.rank < w.rank)).foldl (fun s w => match w.eff with
    | .mem p cells => let later := cells.filter fun c => at_.any (· == (p, c.addr)); if later.isEmpty then s else s.writeNow p later
    | _ => s) (s.applyWrite e)

end Sys2Proof.Machine
end

