-- ==== Sys2Proof/Config.lean ====
section
/-! DEFINITION. What the spec leaves open or an implementation fixes, as constants without a body: no proof can see their values. -/

namespace Sys2Proof

/-- A fresh open number, by the model's counter (log entry 6): durations within a stated bound, and other values that the spec leaves open. -/
opaque Config.freeNat : Nat → Nat

/-- How long a piece of work takes, before it is taken within its bound: open, by what the work is and where in its step it starts (R62; log entry 6). -/
opaque Config.span : List Nat → Nat

/-- The fixed functions of the drain that the spec gives only within 2 ulps (R116): function number and input bits (F32) to an F32 code (log entry 8). -/
opaque Config.drainFn : Nat → Nat → Nat

/-- The derivatives of R141 that the spec gives within 2 ulps (log entry 8). -/
opaque Config.drainDeriv : Nat → Nat → Nat

/-- The exponential of R153, within 2 ulps (log entry 8). -/
opaque Config.expFn : Nat → Nat

/-- The reciprocal square root of R153, within 1 ulp (log entry 8). -/
opaque Config.rsqrtFn : Nat → Nat

/-- The ECDSA P-384 signature with the seal key over a digest, R then S (log entry 9). -/
opaque Config.sealSign : BitVec 384 → BitVec 768

/-- The SPDM response of the module: message code, request, and a fresh number (log entry 9). -/
opaque Config.spdmResponse : Nat → List Byte → Nat → List Byte

/-- Whether the requester's FINISH, KEY_UPDATE or session message verifies (log entry 9). -/
opaque Config.spdmVerifies : Nat → List Byte → Nat → Bool

/-- SHA-384 measurements of the firmware images 1 to 4 (R424, R425; log entry 9). -/
opaque Config.firmware : Nat → BitVec 384

/-- Identities assigned outside the spec: the JEDEC identity of the IDCODE (R504), the I3C manufacturer and device characteristics (R498; log entry 48). -/
opaque Config.identity : Nat → Nat

/-- The Reed-Solomon parity of a flit's bytes 0 to 243, whose field and generator polynomials the spec does not give (R350; log entry 31). -/
opaque Config.linkParity : List Byte → BitVec 96

/-- The Vendor ID of the configuration headers, which is fused and which the spec does not give (R493; log entry 86). -/
opaque Config.vendorId : BitVec 16

end Sys2Proof
end

