-- ==== Sys2Proof/Machine/Exec.lean ====
section
/-! DEFINITION. How a command runs: its packet's fields (R287), its place among the commands in flight, status classes (R298, R311), and the
plan of an engine's work, run from a packet or from a frame program (R286, R290, R293, R508). -/

namespace Sys2Proof.Machine

/-! ## Packets and status codes -/

/-- The class of a status (R298, R311): 0 S, 1 W, 2 E, 3 C, 4 A. -/
def statusClass (st : Nat) : Nat :=
  if st = 0x00 ∨ st = 0x01 then 0
  else if st = 0x13 ∨ st = 0x26 ∨ st = 0x31 ∨ st = 0x33 ∨ st = 0x57 then 1
  else if st = 0x06 then 3
  else if st = 0x07 ∨ st = 0x27 ∨ st = 0x28 ∨ st = 0x29 then 4
  else 2

/-- A word of a packet. -/
def Cmd.w (c : Cmd) (i : Nat) : Nat := (c.words.getD i 0).toNat

/-- PK_OPCODE.OPCODE (R287). -/
def Cmd.opcode (c : Cmd) : Nat := c.w 0 % 65536

/-- PK_OPCODE.ORDER. -/
def Cmd.order (c : Cmd) : Bool := (c.w 0).testBit 31

/-- PK_OPCODE.IRQ. -/
def Cmd.irq (c : Cmd) : Bool := (c.w 0).testBit 30

/-- PK_OPCODE.STEP. -/
def Cmd.step (c : Cmd) : Bool := (c.w 0).testBit 29

/-- PK_LEN.LEN. -/
def Cmd.len (c : Cmd) : Nat := c.w 1 % 512

/-- The parameter block of a packet. -/
def Cmd.params (c : Cmd) : List Word := c.words.drop 16

/-- The command of a queue with a sequence number. -/
def Mod.cmd (s : Mod) (c : CmdId) : Option Cmd := s.cq.cmds.find? fun x => !x.mgmt && x.qn == c.q.val && x.seq == c.seq.toNat

/-- The management packet of a function's slot index. -/
def Mod.mgmtCmd (s : Mod) (f : Fin 8) (k : Fin 16) : Option Cmd := s.cq.cmds.find? fun x => x.mgmt && x.qn == f.val && x.seq == k.val

/-- Whether two commands are the same one. -/
def Cmd.same (a b : Cmd) : Bool := a.mgmt == b.mgmt && a.qn == b.qn && a.seq == b.seq

/-- The state with a command changed. -/
def Mod.setCmd (s : Mod) (c : Cmd) : Mod := { s with cq := { s.cq with cmds := s.cq.cmds.map fun x => if x.same c then c else x } }

/-- A command's outcome is decided in this frame: it completes at the frame's sluice (R290). -/
def Mod.finish (s : Mod) (c : Cmd) (status detail : Nat) : Mod :=
  s.setCmd { c with phase := .decided, status := status, detail := detail, fin := s.fc.num, first := if c.first = 0 then 0 else c.first }

/-- A polder's open step. -/
def Mod.stepOf (s : Mod) (p : Nat) : Option Step := s.ue.steps.get p

/-- Whether a polder has an open step transaction, before its outcome is decided to abandon it (R49). -/
def Mod.stepOpen (s : Mod) (p : Nat) : Bool :=
  match s.stepOf p with
  | some st => st.phase != .replayWait && !st.abandoned
  | none => false

/-- The lanes of the open steps, or of a RUN_PROGRAM, with the draws of work that began in this frame (R87). -/
def Mod.lanesOf (s : Mod) (r : Option Runner) (t : Tbl Nat) : Tbl Nat :=
  s.stg.foldl (fun t e => match e.eff with
    | .lane q k v => if q = r then t.set k v else t
    | _ => t) t

/-- The words of a frame program's header as the check of its RUN_PROGRAM read them, behind the parameter block (R319). -/
def Cmd.header (c : Cmd) : List Nat := ((c.words.drop (16 + c.len / 4)).take 16).map (·.toNat)

/-- The context of a command's work: the seed is the step's with STEP set, PK_SEED otherwise (R87, R287). -/
def Mod.ctxOf (s : Mod) (c : Cmd) : Ctx :=
  { pol := c.pol, fn := c.fn, step := c.step, ord := c.ord, fresh := !c.step, prog := none, handles := none, work := s.io.free
    lanes := if c.step then s.lanesOf none s.tile.lanes else .empty
    seed := match c.step, s.stepOf c.pol with
      | true, some st => st.seed
      | _, _ => c.w 11 }

/-! ## Frame programs -/

/-- The running frame program of a runner. -/
def Mod.prog (s : Mod) (r : Runner) : Option Prog := s.ue.running.find? fun p => p.runner == r

/-- Effects that are staged in later frames without a packet of their own: those of programs and of row messages. -/
def Mod.landing (s : Mod) : List (Nat × Staged) := s.ue.later ++ s.ue.running.flatMap (·.land)

/-- The last frame of a program's own frames and of its work (R290, R451). -/
def Prog.last (p : Prog) : Nat := p.jobs.foldl (fun a j => max a j.last) (p.first + p.frames + p.halted - 1)

/-- The context of work that a frame program issues: it names the descriptors that its RUN_PROGRAM latched (R198, R320); a program of a step, which has no list of them, the live
ones (DESIGN CHOICE, log entry 91). -/
def Mod.progCtx (s : Mod) (p : Prog) : Ctx :=
  { pol := p.pol, fn := 0, step := p.step, fresh := !p.step, prog := some p.runner, handles := p.handles, work := s.io.free
    lanes := if p.step then s.lanesOf none s.tile.lanes else s.lanesOf (some p.runner) p.lanes
    ord := match p.runner with
      | .cmd c => match s.cmd c with
        | some x => x.ord
        | none => 0
      | .step _ _ => 0
    seed := match p.step, s.stepOf p.pol, p.runner with
      | true, some st, _ => st.seed
      | _, _, .cmd c => match s.cmd c with
        | some x => x.w 11
        | none => 0
      | _, _, _ => 0 }

/-- Whether a halt keeps a program's cores from issuing in frame f: those of the named core's die, and in POLDER scope all; a step program that ran when the
condition was met goes on (R448, R450). -/
def Halt.stops (h : Halt) (p : Prog) (f : Nat) : Bool :=
  h.key / 8 == p.pol && !(p.step && decide (p.first ≤ h.at_))
    && ((h.brk.core != 0 && has p.dies h.brk.die && decide (h.at_ ≤ f)) || (h.brk.polder && decide (h.others ≤ f)))

/-- Whether a program's cores are halted by a breakpoint in this frame (R448). -/
def Mod.halted (s : Mod) (p : Prog) : Bool := s.ob.halted.any fun h => h.stops p s.fc.num

/-! ## Plans -/

/-- What an engine's work does once its checks have passed: the source's rank (R46), its engine (R42), the effects of its last frame, its bound in
frames, what the reply says, and effects spread evenly over its frames (log entry 19). -/
structure Plan where
  rank : Nat
  eng : Option Engine
  effs : List Eff
  bound : Nat
  result : Nat
  status : Nat
  sr : Bool
  inexact : Bool
  units : List Eff := []
  /-- Effects of its first frame. -/
  now : List Eff := []
  /-- What its operands fix of the engine's status (R123, R158), or the tiles that it reads (R190). -/
  note : Nat := 0
  /-- The frames that the engine's rate needs (R331, R333). -/
  least : Nat := 1
  deriving DecidableEq, Repr

/-- Tiles as a plan notes them, and as they are read back: at most four. -/
def noteTiles (ts : List Nat) : Nat := (dedup ts).foldr (fun t a => a * 256 + t + 1) 0

/-- The tiles of a note. -/
def notedTiles (n : Nat) : List Nat := ([0, 1, 2, 3].map fun i => n / 256 ^ i % 256).filterMap fun x => if x = 0 then none else some (x - 1)

/-- The tiles in whose SRAM operands lie. -/
def tilesOf (os : List Opd) : List Nat :=
  os.filterMap fun o => match o.loc with
    | .sram t => some t
    | .dev _ => none

/-- A plan without work: OK_EMPTY (R201), with the effects that still happen. -/
def Plan.empty (effs : List Eff) : Plan := { rank := 0, eng := none, effs := effs, bound := 1, result := 0, status := 0x01, sr := false, inexact := false }

/-- A plan that ends OK. -/
def Plan.ok (rank : Nat) (eng : Option Engine) (effs : List Eff) (bound : Nat) : Plan :=
  { rank := rank, eng := eng, effs := effs, bound := bound, result := 0, status := 0x00, sr := false, inexact := false }

/-- An effect of a plan, staged. -/
def Plan.one (p : Plan) (c : Ctx) (e : Eff) : Staged := ⟨p.rank, p.eng, if c.step then some c.pol else none, e⟩

/-- An effect with the frames from its start to its end, where it has both. -/
def Eff.spread (e : Eff) (span : Nat) : Eff :=
  match e with
  | .fwdTile c ps o ts _ => .fwdTile c ps o ts span
  | e => e

/-- The effects of a plan that runs for m frames from frame f, each with its frame: those of its first frame in frame f, unit i of n in frame
f + i * m / n, the rest in the last. -/
def Plan.staged (p : Plan) (c : Ctx) (f m : Nat) : List (Nat × Staged) :=
  (p.now.map fun e => (f, p.one c e)) ++ (p.units.zipIdx.map fun u => (f + u.2 * m / p.units.length, p.one c (u.1.spread ((u.2 + 1) * m / p.units.length - u.2 * m / p.units.length - 1)))) ++
     (p.effs.map fun e => (f + (m - 1), p.one c e))

/-- The frames that work within a bound takes: an open number from 1 to the bound, the same for the same work (R62; log entry 6). -/
def spanOf (bound : Nat) (key : List Nat) : Nat := if bound ≤ 1 then 1 else 1 + Config.span (bound :: key) % bound

/-- The frames that a plan takes: those that its rate needs, and an open number more within its bound. -/
def Plan.span (p : Plan) (key : List Nat) : Nat := p.least - 1 + spanOf (p.bound + 1 - p.least) key

/-- Where work starts: the frame of its attempt of the step for a step's work, so that a replay repeats it (R62), else the frame. -/
def Mod.placeOf (s : Mod) (step : Bool) (p : Nat) : List Nat :=
  match step, s.ue.steps.get p with
  | true, some st => [1, s.fc.num - st.opened]
  | _, _ => [0, s.fc.num]

/-- B of R315: the frames that x array cycles occupy. -/
def Mod.framesFor (s : Mod) (x : Nat) : Nat := ceilDiv x s.budget

/-- Whether a command's work belongs to a step transaction that is no longer open (R292). -/
def Mod.closedTo (s : Mod) (c : Cmd) : Bool := c.step && !s.stepOpen c.pol

/-- A command executes its plan for m frames from this one on; it completes in the last of them (log entry 7). A STEP command whose step is no longer open
completes with STEP_CLOSED. -/
def Mod.landIn (s : Mod) (c : Cmd) (p : Plan) (m : Nat) : Mod :=
  if s.closedTo c then s.finish c 0x05 noDetail else
  let l : List (Nat × Staged) := p.staged (s.ctxOf c) s.fc.num m
  let c := { c with first := s.fc.num, fin := s.fc.num + (m - 1), phase := .running, status := p.status, detail := noDetail,
                    result := BitVec.ofNat 64 p.result, sr := p.sr, inexact := p.inexact, note := p.note, land := l.filter fun e : Nat × Staged => decide (s.fc.num < e.1) }
  (s.setCmd c).stageAll ((l.filter fun e : Nat × Staged => decide (e.1 ≤ s.fc.num)).map (·.2))

/-- A packet's command runs its plan in its first executing frame: a failed check completes it at this frame's sluice with no work done (R508). -/
def Mod.runPlan (s : Mod) (c : Cmd) (p : Chk Plan) : Mod :=
  if s.closedTo c then s.finish c 0x05 noDetail else
  match p with
  | .error (st, d) => s.finish c st d
  | .ok p => s.landIn c p (p.span (s.placeOf c.step c.pol ++ c.words.map (·.toNat)))

/-- The compute die of an engine of a die. -/
def Engine.die? : Engine → Option Nat
  | .tsq d _ | .fsq d _ | .ce d _ | .me d _ | .nmr d _ => some d.val
  | .ue | .link _ => none

/-- The key of a unit of R375: its kind, die and number. -/
def unitKey (kind die n : Nat) : Nat := (kind * 4 + die) * 65536 + n

/-- The unit that an engine is (R375). -/
def unitOf : Engine → Nat
  | .tsq d t => unitKey 0 d.val t.val
  | .fsq d n => unitKey 1 d.val n.val
  | .ce d n => unitKey 2 d.val n.val
  | .me d n => unitKey 3 d.val n.val
  | .nmr d n => unitKey 4 d.val n.val
  | .ue => unitKey 5 0 0
  | .link l => unitKey 6 0 l.val

/-- A tile by index as its sequencer's engine. -/
def tsqOf (t : Nat) : Engine := .tsq ⟨t / 48 % 4, Nat.mod_lt _ (by decide)⟩ ⟨t % 48, Nat.mod_lt _ (by decide)⟩

/-- A copy engine by index as an engine. -/
def ceOf (e : Nat) : Engine := .ce ⟨e / 4 % 4, Nat.mod_lt _ (by decide)⟩ ⟨e % 4, Nat.mod_lt _ (by decide)⟩

/-- A migration engine as an engine. -/
def meEng (m : Nat × Nat) : Engine := .me ⟨m.1 % 4, Nat.mod_lt _ (by decide)⟩ ⟨m.2 % 2, Nat.mod_lt _ (by decide)⟩

/-- The engine whose capacity a command holds (R286). -/
def Cap.engine : Cap → Option Engine
  | .fwd t | .rev t | .row t => some (tsqOf t)
  | .ce d n => some (ceOf (d * 4 + n))
  | .me d n => some (meEng (d, n))
  | .fsq d n => some (.fsq ⟨d % 4, Nat.mod_lt _ (by decide)⟩ ⟨n % 4, Nat.mod_lt _ (by decide)⟩)
  | .update => some .ue
  | _ => none

/-- The unit at which work without an engine of its own waits: the host transfer engine for HOST_IN, HOST_OUT and CKPT_DRAIN, else the queue's command
processor (R331, R375). -/
def Cmd.stallKey (c : Cmd) : Nat :=
  if c.opcode = 0x4008 then unitKey 8 0 1 else if c.opcode = 0x4009 ∨ c.opcode = 0x6005 then unitKey 8 0 2 else unitKey 7 0 (c.qn % 4)

/-- What a check answers, in place of a status code, where an access into stopped die d would not complete (R379). -/
def stallCode (d : Nat) : Nat := 256 + d

/-- Whether a check ended work with a status. -/
def refusedBy {α : Type} (st : Nat) (p : Chk α) : Bool :=
  match p with
  | .error (x, _) => x == st
  | .ok _ => false

/-- Whether a plan's checks met such an access: its die. -/
def stalls (p : Chk Plan) : Option Nat :=
  match p with
  | .error (st, _) => if 256 ≤ st then some (st - 256) else none
  | .ok _ => none

/-- An access of a command's engine does not complete: the engine's frame-done flag stays clear, and it overruns (R379); work without such an engine waits. -/
def Mod.stall (s : Mod) (c : Cmd) (eng : Option Engine) (die : Nat) : Mod :=
  let s := s.setCmd { c with phase := .running, first := s.fc.num, fin := 2 ^ 80, status := 0, detail := noDetail }
  match eng.orElse fun _ => c.caps.findSome? Cap.engine with
  | some e => { s with fc := { s.fc with stuck := s.fc.stuck ++ [e] }, rel := { s.rel with stalled := s.rel.stalled ++ [(unitOf e, die)] } }
  | none => { s with rel := { s.rel with stalled := s.rel.stalled ++ [(c.stallKey, die)] } }

/-- A failed check ends its command, or, where it met an access that does not complete, leaves it waiting (R379, R508). -/
def Mod.failAt (s : Mod) (c : Cmd) (st d : Nat) : Mod := if 256 ≤ st then s.stall c none (st - 256) else s.finish c st d

/-- The state with a RUN_PROGRAM's command told of work of its program: it executes at least until the work's last frame, and its reply shows what the work noted (R290, R295, R296). -/
def Mod.tellCmd (s : Mod) (r : Runner) (last : Nat) (sr inexact : Bool) : Mod :=
  match r with
  | .cmd i => match s.cmd i with
    | some x => s.setCmd { x with fin := max x.fin last, sr := x.sr || sr, inexact := x.inexact || inexact }
    | none => s
  | .step _ _ => s

/-- Work of a frame program: its effects are staged in their frames, and the program is at work until its last (R290, R295). An engine whose work is refused, or that the program's
dies do not hold, stops with its frame-done flag clear (R320). `op` is the work's opcode, `ps` its block. -/
def Mod.runProg (s : Mod) (pr : Prog) (op : Nat) (eng : Option Engine) (ps : List Word) (p : Chk Plan) : Mod :=
  let outside := match eng.bind Engine.die? with
    | some d => !has pr.dies d
    | none => false
  match p, outside with
  | .ok p, false =>
    let m := p.span (s.placeOf pr.step pr.pol ++ ps.map (·.toNat))
    let l : List (Nat × Staged) := p.staged (s.progCtx pr) s.fc.num m
    let job : Job := ⟨op, ps, p.note, s.fc.num, s.fc.num + (m - 1)⟩
    let after := l.filter fun e : Nat × Staged => decide (s.fc.num < e.1)
    let note (q : Prog) : Prog := if q.runner ≠ pr.runner then q else
      { q with used := q.used ++ (eng.toList.filter fun e => !q.used.any (· == e)), jobs := q.jobs ++ [job], land := q.land ++ after }
    let s := s.tellCmd pr.runner job.last p.sr p.inexact
    let s := { s with ue := { s.ue with running := s.ue.running.map note } }
    s.stageAll ((l.filter fun e : Nat × Staged => decide (e.1 ≤ s.fc.num)).map (·.2))
  | p, _ =>
    let s := if refusedBy 0x50 p then s.countLater .SP_DIKE_DENIED pr.pol 1 else s
    match eng with
    | some e =>
      let note (q : Prog) : Prog := if q.runner = pr.runner then { q with used := q.used ++ [e] } else q
      let owe := match stalls p with
        | some d => [(unitOf e, d)]
        | none => []
      { s with fc := { s.fc with stuck := s.fc.stuck ++ [e] }, ue := { s.ue with running := s.ue.running.map note }, rel := { s.rel with stalled := s.rel.stalled ++ owe } }
    | none => s

/-- Whether the module runs: its start reached READY, neither the hub nor the module is in reset, and it is not in scan mode (R306, R389, R412). -/
def Mod.running (s : Mod) : Bool := s.bit .MC_START_STATUS_DONE 0 && !s.sec.scan && !s.rel.resets.any fun r => r.kind == 2 || r.kind == 5

/-- Whether the frame's own work may act: no sluice is being taken, and none is awaited, while which the arrays are idle (R45, R59). -/
def Mod.inFrame (s : Mod) : Bool := s.fc.window.isNone && s.fc.waiting.isNone

/-- The sluice whose step 6 is being taken, for the events that stand there. -/
def Mod.sluiceA (s : Mod) : Option Nat :=
  match s.fc.window with
  | some w => if w.part = .commits then some s.fc.num else none
  | none => none

/-- The sluice whose steps 1 to 7 are done, for the events that follow the weirs. -/
def Mod.sluiceB (s : Mod) : Option Nat :=
  match s.fc.window with
  | some w => if w.part = .events then some s.fc.num else none
  | none => none

/-- Whether a command is granted for this frame and its packet's opcode is the row's (R286). -/
def Mod.granted (s : Mod) (c : CmdId) (op : Nat) : Bool :=
  s.inFrame && match s.cmd c with
    | some x => x.phase == .granted && x.opcode == op
    | none => false

/-- Whether no earlier command of these opcodes is still to act in this frame: allocations are made in the order of earliness (R286; log entry 5). -/
def Mod.inTurn (s : Mod) (c : CmdId) (ops : List Nat) : Bool :=
  match s.cmd c with
  | none => false
  | some x => !s.cq.cmds.any fun y => y.phase == .granted && has ops y.opcode && decide (y.ord < x.ord)

/-- Whether work may run now: a granted command of the opcode, or a running, not halted program in one of its frames (R294). -/
def Mod.workReady (s : Mod) (w : Work) (op : Nat) : Bool :=
  match w with
  | .packet c => s.granted c op
  | .program r _ => s.inFrame && match s.prog r with
    | some p => decide (p.first ≤ s.fc.num ∧ s.fc.num < p.first + p.frames + p.halted) && !s.halted p
    | none => false

/-- Whether engine work of allocations may act: a packet's in turn. -/
def Mod.workTurn (s : Mod) (w : Work) (ops : List Nat) : Bool :=
  match w with
  | .packet c => s.inTurn c ops
  | .program _ _ => true

/-- The model's counter of open numbers moves on: what a plan drew from it stays its own (log entry 6). -/
def Mod.bump (s : Mod) : Mod := { s with io := { s.io with free := s.io.free + 1 } }

/-- Whether an engine is the sequencer of a logical tile that no physical tile answers for (R392, R409). -/
def Mod.onFailed (s : Mod) (eng : Option Engine) : Bool :=
  match eng with
  | some (.tsq d t) => s.tileMarked (d.val * 48 + t.val)
  | _ => false

/-- A frame program names such a tile: its command completes with TILE_FAULT and the program stops (R392); one of a step stops as its engine does. -/
def Mod.failProg (s : Mod) (p : Prog) (eng : Option Engine) : Mod :=
  match p.runner with
  | .cmd i => match s.cmd i with
    | some x => { s.finish x 0xF9 noDetail with ue := { s.ue with running := s.ue.running.filter fun r => decide (r.runner ≠ p.runner) } }
    | none => s
  | .step _ _ => s.runProg p 0 eng [] (.error (0xF9, noDetail))

/-- Run engine work of an opcode: its plan is made in the work's context from its parameter block; a program's block is checked as a packet's is (R288). -/
def Mod.runWork (s : Mod) (op : Nat) (w : Work) (blk : Mod → Nat → List Word → Chk Unit) (plan : Mod → Ctx → List Word → Chk Plan)
    (eng : List Word → Option Engine) : Mod :=
  match w with
  | .packet c => match s.cmd c with
    | some x =>
      if s.onFailed (eng x.params) then s.finish x 0xF9 noDetail else
      match stalls (plan s (s.ctxOf x) x.params) with
      | some d => s.stall x (eng x.params) d
      | none => s.bump.runPlan x (plan s (s.ctxOf x) x.params)
    | none => s
  | .program r ps => match s.prog r with
    | some p =>
      if s.onFailed (eng ps) then s.failProg p (eng ps)
      else s.bump.runProg p op (eng ps) ps (do blk s p.pol ps; plan s (s.progCtx p) ps)
    | none => s

/-- Run a packet-only command. -/
def Mod.runCmd (s : Mod) (c : CmdId) (plan : Mod → Ctx → List Word → Chk Plan) : Mod :=
  match s.cmd c with
  | some x => match stalls (plan s (s.ctxOf x) x.params) with
    | some d => s.stall x none d
    | none => s.bump.runPlan x (plan s (s.ctxOf x) x.params)
  | none => s

/-- The answer of a row: a next module state where the row may happen, a refusal by name where it cannot (log entry 5). -/
def State.when (s : State) (b : Bool) (m : Mod) : Host.Outcome State Fault Refusal :=
  if b then .next { s with m := m } else .refused .notEnabled

/-- The answer of a row that always happens. -/
def State.go (s : State) (m : Mod) : Host.Outcome State Fault Refusal := .next { s with m := m }

/-! ## Fields that many opcodes share -/

/-- DIE and TILE of a control word as a tile index (R317). -/
def ctrlTile (w : Nat) : Nat := bits w 31 30 * 48 + bits w 29 24

/-- DIE and CE of a control word as a copy engine (R330, R339). -/
def ctrlCe (w : Nat) : Nat := bits w 31 30 * 4 + bits w 29 28

/-- The enabled count of a die's logical tiles (HC_TILES). -/
def Mod.tilesOn (s : Mod) (die : Nat) : Nat := bits (s.rd .HC_TILES 0).toNat (die * 8 + 7) (die * 8)

/-- Whether a range meets a range sealed against a use (R268, R433): a result's seal (kind 0) against writes; the open step's seals on dense state (1) and
on tables and row staging (2) against reads and writes, the latter not against embedding commands, which R34 serves. -/
def Mod.sealed (s : Mod) (p addr n : Nat) (write emb : Bool) : Bool :=
  s.ue.seals.any fun x => x.1 == p && meets x.2.1 x.2.2.1 addr n && (if x.2.2.2.1 = 0 then write else x.2.2.2.1 == 1 || !emb)

/-- A range that an access of a command reaches in live domains alone (R379). -/
def Mod.reachChk (s : Mod) (p addr n : Nat) : Chk Unit :=
  match s.downAt p addr n with
  | some d => .error (stallCode d, noDetail)
  | none => .ok ()

/-- A destination range that a command is given by address: mapped (R243), else ADDR_UNMAPPED; not read-only (R507), else LAYOUT_INVALID; not sealed
(R268, R433), else STATE_SEALED. -/
def Mod.destChk (s : Mod) (p addr n off : Nat) : Chk Unit := do
  ensure (s.mapped p addr n) 0x16 (detailAt off)
  ensure (!s.readonly p addr n) 0x14 (detailAt off)
  ensure (!s.sealed p addr n true false) 0x36 (detailAt off)
  s.reachChk p addr n

/-- A source range that a command is given by address: mapped, and not sealed against reads. -/
def Mod.srcChk (s : Mod) (p addr n off : Nat) : Chk Unit := do
  ensure (s.mapped p addr n) 0x16 (detailAt off)
  ensure (!s.sealed p addr n false false) 0x36 (detailAt off)
  s.reachChk p addr n

/-- The ranges of bytes of an operand's region: its rows' units, and the scales of its blocks. -/
def Opd.ranges (o : Opd) : List (Nat × Nat) :=
  (List.range (at4 o.ext 1 * at4 o.ext 2 * at4 o.ext 3)).flatMap fun i =>
    let c : Co := (at4 o.td.bef 0 - at4 o.off 0, i % at4 o.ext 1, i / at4 o.ext 1 % at4 o.ext 2, i / (at4 o.ext 1 * at4 o.ext 2))
    match o.stored c with
    | none => []
    | some st =>
      let n := min (at4 o.ext 0 - c.1) (at4 o.td.ext 0 - st.1)
      ((o.td.unitAt o.enc.fmt st).1, ceilDiv (st.1 % o.enc.fmt.unitElems + n) o.enc.fmt.unitElems * o.enc.fmt.unitBytes)
        :: (if o.enc.blk = 0 then [] else (List.range (if o.td.axis = 0 then ceilDiv (st.1 % o.enc.blk + n) o.enc.blk else n)).map fun k =>
            (o.td.sbase + o.td.block o.enc.blk (if o.td.axis = 0 then st.1 + k * o.enc.blk else st.1 + k, st.2), 1))

/-- An operand whose region touches a sealed range of its polder's device memory fails with STATE_SEALED (R268, R433). -/
def Mod.opdSeal (s : Mod) (o : Opd) (write emb : Bool) : Chk Unit :=
  if s.ue.seals.isEmpty ∧ s.rel.stopped.isEmpty ∧ s.rel.resets.isEmpty then .ok () else
  match o.loc with
  | .sram _ => .ok ()
  | .dev p => do
    ensure (!o.ranges.any fun r => s.sealed p r.1 r.2 write emb) 0x36 (detailAt o.po)
    match o.ranges.findSome? fun r => s.downAt p r.1 r.2 with
    | some d => .error (stallCode d, noDetail)
    | none => .ok ()

/-! ## Quotas with accepted migrations (R224) -/

/-- The pages of a migration's parameters that would move: page numbers within the object, not yet in the target tier. -/
def Mod.migPages (s : Mod) (p : Nat) (ps : List Word) : List Nat :=
  let n := pw ps 0 % 65536
  let tier := bits (pw ps 0) 16 16
  match s.obj p n with
  | none => []
  | some o => (List.range (min (pw ps 8) (o.pages - pw ps 4))).filterMap fun k =>
    match s.mem.pages.get (pageKey p (o.base / 2 ^ 21 + pw ps 4 + k)) with
    | some e => if e.tier = tier then none else some (pw ps 4 + k)
    | none => none

/-- Destination pages of accepted migrations that have not begun, but for those of the command of this place in earliness: they count from the sluice of
acceptance (R224; log entry 27). -/
def Mod.migReserved (s : Mod) (p tier ord : Nat) : Nat :=
  (s.cq.cmds.map fun c =>
    if c.opcode = 0x4006 ∧ c.pol = p ∧ c.ord ≠ ord ∧ (c.phase = .accepted ∨ c.phase = .ready ∨ c.phase = .granted) ∧ bits (c.w 16) 16 16 = tier
    then (s.migPages p c.params).length else 0).sum

/-- The pages counted under R219 in a tier; a command's own reservation left out. -/
def Mod.usedPages (s : Mod) (p tier ord : Nat) : Nat := s.used p tier + s.migReserved p tier ord

/-! ## Checks of a parameter block (R312) -/

/-- An RSV field of a parameter block: a word with a mask of bits that must be 0, a device address whose bits [63:48] must be 0, or a tensor reference. -/
inductive Rsv where
  | w (off mask : Nat)
  | addr (off : Nat)
  | t (off : Nat)
  deriving DecidableEq, Repr

/-- The first RSV field, in the order listed, that is not 0 fails with PARAM_INVALID at its word. -/
def rsvChk (ps : List Word) (l : List Rsv) : Chk Unit :=
  match l.findSome? (fun r => match r with
    | .w o m => if pw ps o &&& m = 0 then none else some o
    | .addr o => if pw ps (o + 4) / 65536 = 0 then none else some (o + 4)
    | .t o => trefRsv ps o) with
  | some o => .error (0x04, detailAt o)
  | none => .ok ()

/-- LEN against the opcode's table; the failing field lies in PK_LEN. -/
def lenChk (ps : List Word) (n : Nat) : Chk Unit := ensure (ps.length * 4 == n) 0x04 1

/-- LEN of a list opcode: lo to hi in steps. -/
def lenRange (ps : List Word) (lo hi step : Nat) : Chk Unit :=
  ensure (decide (lo ≤ ps.length * 4 ∧ ps.length * 4 ≤ hi) && (ps.length * 4 - lo) % step == 0) 0x04 1

/-- DIE of the control word at an offset against the polder (R317). -/
def Mod.dieChk (s : Mod) (pol : Nat) (ps : List Word) (off : Nat) : Chk Unit := ensure (s.dieOf (bits (pw ps off) 31 30) == pol) 0x50 (detailAt off)

/-- DIE and TILE of the control word at an offset (R317); a tile marked in MC_TILE_FAILED fails with TILE_FAULT (R392). -/
def Mod.tileChk (s : Mod) (pol : Nat) (ps : List Word) (off : Nat) : Chk Unit := do
  s.dieChk pol ps off
  ensure (decide (bits (pw ps off) 29 24 < s.tilesOn (bits (pw ps off) 31 30))) 0x04 (detailAt off)
  ensure (!s.tileMarked (ctrlTile (pw ps off))) 0xF9 noDetail

/-! ## Effects that many opcodes share -/

/-- Flag bits, as an effect. -/
def flagEff (r : RegName) (idx : Nat) (b : Word) : List Eff := if b = 0 then [] else [.flag r idx b]

/-- Conversion flags at a unit's register (R92), and the note that stochastic rounding was used (R86). -/
def cvEff (r : RegName) (idx : Nat) (f : CvFlags) : List Eff :=
  flagEff r idx (f.setWidth 32) ++ (if f &&& cvSRUSED = 0 then [] else [.flag .FC_DET_STATUS 0 1#32])

/-- Accumulator flags at a tile's register (R108, R123, R158), and the contributions that changed (R436). -/
def accEff (r : RegName) (idx : Nat) (a : AccFlags) : List Eff :=
  flagEff r idx a.bits ++ (if a.inexact then [.flag .FC_DET_STATUS 0 2#32] else []) ++ if a.n = 0 then [] else [.event (idx / 48) 17 a.n]

/-- The die counter of block encodings into a format (R436). -/
def blkCounter (f : Fmt) : Option Nat :=
  match f with
  | .n4 => some 8
  | .n6 => some 9
  | .n8 => some 10
  | .w8 => some 11
  | .w12 => some 12
  | _ => none

/-- Counts of block encodings that set SAT and ZERO, and clamps of scales, at a tile (R160, R166, R436). -/
def blkEff (tile : Nat) (o : Opd) (v : Conv) : List Eff :=
  (match blkCounter o.enc.fmt with
    | some i => if v.cConv = 0 then [] else [.event (tile / 48) i v.cConv]
    | none => [])
    ++ ([(13, v.sat), (14, v.zero)].filterMap fun x => if x.2 = 0 then none else some (.event (tile / 48) x.1 x.2)) ++
  (if v.sat = 0 then [] else [.count .ST_BLK_SAT tile v.sat]) ++ (if v.zero = 0 then [] else [.count .ST_BLK_ZERO tile v.zero])
    ++ flagEff .ST_STATUS tile (BitVec.ofNat 32 ((if v.hi then 2 else 0) + (if v.lo then 4 else 0)))

/-- A value delivered to a position (R120, R146). -/
def Deliver.of (at_ : Nat) (v : Val) : Deliver :=
  match v with
  | .nan => ⟨at_, 1, false, 0, 0⟩
  | .inf s => ⟨at_, if s then 3 else 2, false, 0, 0⟩
  | .fin s m e => ⟨at_, 0, s, m, e⟩

/-- The value of a delivery. -/
def Deliver.val (d : Deliver) : Val :=
  if d.special = 1 then .nan else if d.special = 2 then .inf false else if d.special = 3 then .inf true else .fin d.neg d.mag d.exp

/-- Work that consumes poisoned data: no output, MEM_UNCORR, and the open step abandoned at the sluice (R236). -/
def poisonPlan (c : Ctx) : Plan := { Plan.ok 0 none [.uncorr c.pol] 1 with status := 0xF8 }

/-! ## Traffic and capacity (R225, R315) -/

/-- The migration reserve of a polder in sixty-fourths (R241). -/
def Mod.reserve (s : Mod) (p : Nat) : Nat :=
  let r := s.fld .MT_MIG_CTRL_RESERVE p
  if r = 0 then 1 else min r 32

/-- What one access costs a controller in 240ths of a cycle (R225): kind 0 a line, 1 a granule on the narrow path, 2 a line partly written, 3 a granule of contributions. -/
def accessCost (hbm : Bool) (kind : Nat) : Nat :=
  match kind with
  | 0 => if hbm then 15 else 480
  | 1 => if hbm then 24 else 640
  | 2 => if hbm then 30 else 960
  | _ => if hbm then 48 else 1280

/-- The reading of a range, as traffic: its kind, first byte and length. -/
def readTraffic (a n : Nat) : List (Nat × Nat × Nat) := if n = 0 then [] else [(0, a, n)]

/-- The writing of a range, as traffic: whole lines, and the lines at its ends that it writes in part (R229). -/
def writeTraffic (a n : Nat) : List (Nat × Nat × Nat) :=
  let lo := ceilDiv a 64 * 64
  let hi := (a + n) / 64 * 64
  if n = 0 then []
  else if hi < lo then [(2, a, n)]
  else (if a < lo then [(2, a, 1)] else []) ++ (if lo < hi then [(0, lo, hi - lo)] else []) ++ (if hi < a + n then [(2, hi, 1)] else [])

/-- The cost of a piece of traffic by controller: its accesses page by page. -/
def Mod.costOf (s : Mod) (p : Nat) (t : Nat × Nat × Nat) : List (Nat × Nat) :=
  let (kind, a, n) := t
  let u := if kind = 0 ∨ kind = 2 then 64 else 32
  if n = 0 then [] else
  (List.range ((a + n - 1) / 2 ^ 21 - a / 2 ^ 21 + 1)).filterMap fun k =>
    let lo := max a ((a / 2 ^ 21 + k) * 2 ^ 21)
    let hi := min (a + n) ((a / 2 ^ 21 + k + 1) * 2 ^ 21)
    (s.physPage p lo).map fun id => let c := (pageCtl (id / 2 ^ 22) (id % 2 ^ 22)).1; (c, accessCost (ctlHbm c) kind * ((hi - 1) / u - lo / u + 1))

/-- The capacity that frame programs leave a polder's controllers in a frame: with none on its dies the scheduled capacity of R225, else an open part of it (R315; log entry 6). -/
def Mod.freeCap (s : Mod) (p : Nat) : Nat :=
  let cap := max 1 (s.budget * (62 - s.reserve p) / 64)
  if s.ue.running.any fun r => r.pol == p then 1 + Config.span [9, s.fc.num, p] % cap else cap

/-- Q of R315 for a polder's traffic: the largest over controllers of cost over free capacity, in frames. -/
def Mod.qFrames (s : Mod) (p : Nat) (traffic : List (Nat × Nat × Nat)) : Nat :=
  let costs := traffic.flatMap (s.costOf p)
  let all := (dedup (costs.map (·.1))).map fun c => ((costs.filter fun x => x.1 == c).map (·.2)).sum
  all.foldl (fun m x => max m (ceilDiv x (240 * s.freeCap p))) 0

/-- The traffic of an operand's region, read or written; none in a tile's SRAM. -/
def Opd.traffic (o : Opd) (write : Bool) : List (Nat × Nat × Nat) :=
  match o.loc with
  | .sram _ => []
  | .dev _ => o.ranges.flatMap fun r => if write then writeTraffic r.1 r.2 else readTraffic r.1 r.2

/-- Result bytes written to device memory by a command (R46, last of the hub's writers). -/
def resultPlan (c : Ctx) (addr : Nat) (data : List Byte) : Plan := .ok (rankResult c.ord) none [.mem c.pol (wcells addr data)] 1


end Sys2Proof.Machine
end

