-- ==== Sys2Proof/Machine/Groups.lean ====
section
/-! DEFINITION. Parameter groups and step state: the state block of a group (R274), what a loaded step program makes step state (R336), and GROUP_INIT (R333). -/

namespace Sys2Proof.Machine

/-- A parameter group's entry (R273). -/
structure Group where
  num : Nat
  enable : Bool
  rule : Nat
  pol : Nat
  clipIn : Bool
  ubrine : Bool
  master : Bool
  ufmt : Fmt
  wfmt : Fmt
  margin : Nat
  lrx : Int
  lr : Nat
  wd : Nat
  beta1 : Nat
  beta2 : Nat
  eps : Nat
  gscale : Nat
  b1pow : Nat
  b2pow : Nat
  base : Nat
  count : Nat
  width : Nat
  deriving DecidableEq, Repr

/-- A group's row rule, ROW_ADAGRAD or ROW_SGD. -/
def Group.isRow (g : Group) : Bool := g.rule == 4 || g.rule == 5

/-- An 8-bit two's-complement field. -/
def signed8 (v : Nat) : Int := if v < 128 then v else (v : Int) - 256

/-- A group's entry from the register values that a function gives: the active ones, or those of a configuration transaction. -/
def groupOf (num : Nat) (r : RegName → Nat) : Group :=
  let c := r .UE_GROUP_CTRL
  { num := num, enable := c.testBit 31, rule := bits c 27 24, pol := bits c 23 22, clipIn := c.testBit 21, ubrine := c.testBit 20, master := c.testBit 19
    ufmt := if bits c 15 12 = 5 then .w12 else .w16, wfmt := if bits c 11 8 = 7 then .f32 else .w16, margin := bits c 7 4
    lrx := signed8 (bits (r .UE_GROUP_LRX) 7 0), lr := r .UE_GROUP_LR, wd := r .UE_GROUP_WD, beta1 := r .UE_GROUP_BETA1, beta2 := r .UE_GROUP_BETA2
    eps := r .UE_GROUP_EPS, gscale := r .UE_GROUP_GSCALE, b1pow := r .UE_GROUP_B1POW, b2pow := r .UE_GROUP_B2POW
    base := r .UE_GROUP_BASE_LO + 2 ^ 32 * bits (r .UE_GROUP_BASE_HI) 15 0
    count := r .UE_GROUP_COUNT_LO + 2 ^ 32 * bits (r .UE_GROUP_COUNT_HI) 7 0, width := bits (r .UE_GROUP_COUNT_HI) 31 16 }

/-- A group's active entry. -/
def Mod.group (s : Mod) (g : Nat) : Group := groupOf g fun r => (s.rd r g).toNat

/-- Elements of a group: its count, or rows times width with a row rule. -/
def Group.elems (g : Group) : Nat := if g.isRow then g.count * g.width else g.count

/-- Whether BETA1 is not zero. -/
def Group.hasBeta1 (g : Group) : Bool := !(f32Val g.beta1).isZero

/-- The arrays of a state block that are present, in order (R274): 0 stored weight, 1 master, 2 m, 3 v, 4 row state h, 5 update brine; with bytes. -/
def Group.arrays (g : Group) : List (Nat × Nat) :=
  let wb := if g.isRow then 2 else g.wfmt.unitBytes
  [(0, wb * g.elems)] ++ (if g.master then [(1, 4 * g.elems)] else [])
    ++ (if (g.rule == 1 && g.hasBeta1) || g.rule == 2 || g.rule == 3 then [(2, 4 * g.elems)] else [])
    ++ (if g.rule == 2 || g.rule == 3 then [(3, 4 * g.elems)] else []) ++ (if g.rule == 4 then [(4, 4 * g.count)] else [])
    ++ (if g.ubrine then [(5, 2 * g.elems)] else [])

/-- The arrays with their addresses: each starts at the next 64-byte boundary after the one before. -/
def Group.layout (g : Group) : List (Nat × Nat × Nat) :=
  (g.arrays.foldl (fun (acc : List (Nat × Nat × Nat) × Nat) a =>
    let at_ := ceilDiv acc.2 64 * 64
    (acc.1 ++ [(a.1, at_, a.2)], at_ + a.2)) ([], g.base)).1

/-- The address of an array, where it is present. -/
def Group.array? (g : Group) (k : Nat) : Option Nat := (g.layout.find? fun a => a.1 == k).map (·.2.1)

/-- The bytes of a state block. -/
def Group.blockLen (g : Group) : Nat := g.layout.foldl (fun n a => max n (a.2.1 + a.2.2 - g.base)) 0

/-- Whether a group is enabled and of the polder (R247). -/
def Mod.groupUsable (s : Mod) (p g : Nat) : Bool := (s.group g).enable && (s.group g).pol == p

/-- The ranges of a polder's device memory that its loaded step program makes step state: state blocks, OFS and flag arrays, staging objects (R336). -/
def Mod.stepRanges (s : Mod) (p : Nat) : List (Nat × Nat) :=
  match s.ue.progs.get p with
  | none => []
  | some sp =>
    (sp.groups.map fun g => ((s.group g).base, (s.group g).blockLen))
      ++ (sp.slots.flatMap fun n =>
        [(s.pair .GS_OFS_ADDR_LO .GS_OFS_ADDR_HI n, s.fld .GS_BLOCKS_BLOCKS n), (s.pair .GS_FLAG_ADDR_LO .GS_FLAG_ADDR_HI n, s.fld .GS_BLOCKS_BLOCKS n)])
      ++ sp.stages.filterMap fun o => (s.obj p o).map fun x => (x.base, x.pages * 2 ^ 21)

/-- Whether a range meets the step state of a polder's loaded step program. -/
def Mod.isStepState (s : Mod) (p addr n : Nat) : Bool := (s.stepRanges p).any fun r => meets r.1 r.2 addr n

/-- Whether an open step names a group (R275). -/
def Mod.groupHeld (s : Mod) (p g : Nat) : Bool :=
  s.stepOpen p && match s.ue.progs.get p with
    | some sp => has sp.groups g
    | none => false

/-- GROUP_INIT: GROUP. -/
def blkGroupInit (_ : Mod) (_ : Nat) (ps : List Word) : Chk Unit := do
  lenChk ps 4
  rsvChk ps [.w 0 0xFFFFF000]

/-- The initial contents of elements lo to hi - 1 of a group's arrays, and of the rows that end there (R333): master the stored weight decoded, the rest +0. -/
def Mod.groupFirst (s : Mod) (g : Group) (lo hi : Nat) : List WCell :=
  g.layout.flatMap fun a =>
    if a.1 = 0 then []
    else if a.1 = 1 then (List.range (hi - lo)).flatMap fun i =>
      let w := s.getN g.pol (g.base + (lo + i) * g.wfmt.unitBytes) g.wfmt.unitBytes
      wcells (a.2.1 + 4 * (lo + i)) (leBytes (g.wfmt.decode w).toF32 4)
    else
      let (l, h, b) : Nat × Nat × Nat := if a.1 = 4 then (ceilDiv lo g.width, ceilDiv hi g.width, 4) else (lo, hi, if a.1 = 5 then 2 else 4)
      wcells (a.2.1 + b * l) (List.replicate (b * (h - l)) 0)

/-- GROUP_INIT: the group is usable, no open step holds it; it runs at 256 elements a cycle and commits frame by frame (R333). -/
def planGroupInit (s : Mod) (c : Ctx) (ps : List Word) : Chk Plan := do
  let n := pw ps 0
  let g := s.group n
  ensure (s.groupUsable c.pol n) 0x34 (detailAt 0)
  ensure (!s.groupHeld c.pol n) 0x22 (detailAt 0)
  s.destChk c.pol g.base g.blockLen 0
  if g.master && s.poisoned c.pol g.base (g.elems * g.wfmt.unitBytes) then return poisonPlan c
  let per := 256 * s.budget
  let k := ceilDiv g.elems per
  .ok { Plan.ok rankUe (some .ue) [.reg .UE_GROUP_B1POW n 0x3F800000#32, .reg .UE_GROUP_B2POW n 0x3F800000#32, .reg .UE_GROUP_STEPS n 0#32,
            .reg .UE_GROUP_LRX n 0#32] (1 + max k (s.qFrames c.pol (g.layout.flatMap fun a => if a.1 = 0 then (if g.master then readTraffic a.2.1 a.2.2 else []) else writeTraffic a.2.1 a.2.2))) with
          least := max 1 k
          units := (List.range k).map fun i => .mem c.pol (s.groupFirst g (i * per) (min g.elems ((i + 1) * per))) }

/-- GROUP_INIT (R333). -/
def execGroupInit (c : CmdId) (s : State) : Host.Outcome State Fault Refusal := s.when (s.m.granted c 0x5001) (s.m.runCmd c planGroupInit)

end Sys2Proof.Machine
end

