-- ==== Sys2Proof/Machine/Objects.lean ====
section
/-! DEFINITION. Objects, migration, window fills, the host transfer engine and the import engine (08_memory_tiers.md R215 to R234, R330, R331, R428 to R430). -/

namespace Sys2Proof.Machine

/-! ## How allocations and migrations take effect -/

/-- A frame leaves a rising list of ranges. -/
def dropRange (f : Nat) : List (Nat × Nat) → List (Nat × Nat)
  | [] => []
  | (a, n) :: rest =>
    if f < a ∨ a + n ≤ f then (a, n) :: dropRange f rest
    else (if a < f then [(a, f - a)] else []) ++ (if f + 1 < a + n then [(f + 1, a + n - f - 1)] else []) ++ rest

/-- Physical pages leave their controllers' free lists. -/
def Mem.takePages (m : Mem) (ids : List Nat) : Mem :=
  ids.foldl (fun m id =>
    let (c, f) := pageCtl (id / 2 ^ 22) (id % 2 ^ 22)
    { m with ctls := m.ctls.set c { m.ctl c with free := dropRange f (m.ctl c).free } }) m

/-- An allocation takes effect (R216 to R219): the object, its page entries, and system-area pages that it adds. -/
def Mod.putObj (s : Mod) (p n : Nat) (o : Obj) (frames : List Nat) (sys : List (Nat × Nat)) : Mod :=
  let m := s.mem.takePages (frames ++ sys.map (·.2))
  let pages := frames.zipIdx.foldl (fun t f => t.set (pageKey p (o.base / 2 ^ 21 + f.2)) ⟨f.1 / 2 ^ 22, false, o.readonly, false, false, n, f.1 % 2 ^ 22⟩) m.pages
  { s with mem := { m with pages := pages, objs := m.objs.set (objKey p n) o, sysArea := m.sysArea ++ sys.map fun x => (p, x.1, x.2) } }

/-- Pages enter migration: their destination frames are taken and count (R223, R224). -/
def Mod.putMigs (s : Mod) (p : Nat) (l : List Mig) : Mod :=
  let m := s.mem.takePages (l.map fun g => g.tier * 2 ^ 22 + g.frame)
  { s with mem := { m with migs := m.migs ++ l
                           pages := l.foldl (fun t g => match t.get (pageKey p g.page) with
                             | some e => t.set (pageKey p g.page) { e with migrating := true }
                             | none => t) m.pages } }

/-- A 64 KiB sub-block's bytes and poison are copied to another physical page, in place of what it holds (R223, R236). -/
def Mem.copySub (m : Mem) (src dst k : Nat) : Mem :=
  let mine : List Host.Cell := m.cells.filter fun c : Host.Cell => c.1 / 65536 == src * 32 + k
  let gone (n b : Nat) : Bool := b / n == dst * 32 + k
  let clear : List Host.Cell := m.cells.filter fun c : Host.Cell => !gone 65536 c.1
  { m with cells := mine.foldl (fun (l : List Host.Cell) (c : Host.Cell) => putByte l (dst * 2 ^ 21 + c.1 % 2 ^ 21) c.2) clear
           poison := m.poison.filter (fun g => !gone 2048 g) ++ (m.poison.filter fun g => g / 2048 == src * 32 + k).map fun g => dst * 65536 + g % 65536 }

/-- A sub-block is copied and becomes AT_DEST (R223): what the frame writes to it goes to the destination. -/
def Mod.landSub (s : Mod) (p page k : Nat) : Mod :=
  match s.mem.migs.find? (fun g => g.pol == p && g.page == page), s.mem.pages.get (pageKey p page) with
  | some g, some e =>
    let m := s.mem.copySub e.id (g.tier * 2 ^ 22 + g.frame) k
    { s with mem := { m with migs := m.migs.map fun x => if x.pol = p ∧ x.page = page then { x with moved := k + 1 } else x } }
  | _, _ => s

/-- Every sub-block of a page is AT_DEST: its entry takes the destination frame, and the source frame enters the zeroing queue, or leaves service where it
was marked RETIRE (R223, R237). -/
def Mod.landMig (s : Mod) (p page : Nat) : Mod :=
  match s.mem.migs.find? (fun g => g.pol == p && g.page == page), s.mem.pages.get (pageKey p page) with
  | some g, some e =>
    if g.moved < 32 then s else
    let m := s.mem
    let s := { s with mem := { m with migs := m.migs.filter (fun x => !(x.pol == p && x.page == page))
                                      pages := m.pages.set (pageKey p page) { e with tier := g.tier, frame := g.frame, migrating := false, retire := false } } }
    s.queueZero e.id e.retire
  | _, _ => s

/-- Memory without a migration: the sub-blocks that had moved are copied back to the source, where its page is there (R223; log entry 42). -/
def Mem.unmove (m : Mem) (g : Mig) : Mem :=
  let m := { m with migs := m.migs.filter (· != g) }
  match m.pages.get (pageKey g.pol g.page) with
  | some e =>
    let m := (List.range g.moved).foldl (fun (m : Mem) k => m.copySub (g.tier * 2 ^ 22 + g.frame) e.id k) m
    { m with pages := m.pages.set (pageKey g.pol g.page) { e with migrating := false } }
  | none => m

/-- A page whose migration no engine finishes stays at its source, and the destination frame is zeroed (R220, R223; log entry 42). -/
def Mod.dropMig (s : Mod) (g : Mig) : Mod := { s with mem := s.mem.unmove g }.queueZero (g.tier * 2 ^ 22 + g.frame) false

/-- Whether a staged effect copies a sub-block of a page. -/
def Staged.moves (g : Mig) (e : Staged) : Bool :=
  match e.eff with
  | .migSub p page _ => p == g.pol && page == g.page
  | _ => false

/-- Migrations that no work in flight goes on with end (log entry 42). -/
def Mod.sweepMigs (s : Mod) : Mod :=
  s.mem.migs.foldl (fun s g =>
    if (s.cq.cmds.any fun c => c.phase == .running && c.land.any fun e => e.2.moves g) || (s.landing.any fun e => e.2.moves g) then s else s.dropMig g) s

/-- RETIRE in the page entry that names a physical page (R236). -/
def Mod.markRetire (s : Mod) (id : Nat) : Mod :=
  let mark (e : PageEnt) : PageEnt := if e.id = id then { e with retire := true } else e
  { s with mem := { s.mem with pages := s.mem.pages.map fun _ e => mark e } }

/-- The state with the frame's earlier allocations and migrations in place: what a later one of the frame meets (R218, R219). -/
def Mod.scratch (s : Mod) : Mod :=
  s.stg.foldl (fun s e => match e.eff with
    | .objAlloc p n o fs sys => s.putObj p n o fs sys
    | .migStart p l => s.putMigs p l
    | _ => s) s

/-! ## Allocation and release -/

/-- OBJ_ALLOC: PAGES, attributes and BASE; HINT 5 to 7, HINT 4 without the WINDOW feature, and a size outside 1 to 2^26 (R216, R313). -/
def blkObjAlloc (s : Mod) (pol : Nat) (ps : List Word) : Chk Unit := do
  lenChk ps 16
  rsvChk ps [.w 4 0x0000FFFF, .addr 8]
  ensure (decide (1 ≤ pw ps 0 ∧ pw ps 0 ≤ 2 ^ 26)) 0x04 (detailAt 0)
  ensure (decide (bits (pw ps 4) 18 16 ≤ 4) && (bits (pw ps 4) 18 16 != 4 || s.bit .HC_FEAT0_WINDOW 0)) 0x04 (detailAt 4)
  ensure ([0, 1, 2, 3].all fun d => !(bits (pw ps 4) 23 20).testBit d || s.dieOf d == pol) 0x50 (detailAt 4)

/-- The lowest free 2 MiB-aligned range of a polder that does not include address 0 (R216). -/
def Mod.freeBase (s : Mod) (p bytes : Nat) : Option Nat :=
  let ends := (s.objsOf p).map fun o => o.2.base + o.2.pages * 2 ^ 21
  (sortBy id (2 ^ 21 :: ends)).find? fun a => decide (a + bytes ≤ 2 ^ 48) && (s.objsOf p).all fun o => !meets o.2.base (o.2.pages * 2 ^ 21) a bytes

/-- Whether a tier admits an object (R217): its frames there, or the status. -/
def Mod.fitTier (s : Mod) (p ord n tier aff pages : Nat) : Except Nat (List Nat) :=
  if s.quota p tier < s.usedPages p tier ord + pages then .error 0x54
  else match s.mem.place (s.ctlList p tier aff) n 0 pages with
    | none => .error 0x55
    | some (fs, _) => .ok fs

/-- The system-area pages that an object placed in a tier adds, or the status with which the allocation fails though the tier admits it (R219). -/
def Mod.sysAdds (s : Mod) (p ord n tier : Nat) (o : Obj) (fs : List Nat) : Except Nat (List (Nat × Nat)) :=
  let t := s.putObj p n { o with tier := tier } fs []
  (t.sysGrow p (t.regions p).length (t.usedPages p 0 ord)).map fun r => r.1.zipIdx.map fun x => ((t.mem.sysArea.filter fun a => a.1 == p).length + x.2, x.1)

/-- OBJ_ALLOC: the object count and BASE, then the tier checks; CR_RESULT receives base and number (R216 to R219, R330). -/
def planObjAlloc (s : Mod) (c : Ctx) (ps : List Word) : Chk Plan := do
  let t := s.scratch
  let pages := pw ps 0
  let hint := bits (pw ps 4) 18 16
  let aff := bits (pw ps 4) 23 20
  let bytes := pages * 2 ^ 21
  match lowestFreeObj t c.pol with
  | none => .error (0x56, noDetail)
  | some n =>
    let base := if pq ps 8 = 0 then t.freeBase c.pol bytes else some (pq ps 8)
    match base with
    | none => .error (0x56, detailAt 8)
    | some b =>
      ensure (b % 2 ^ 21 == 0 && decide (b + bytes ≤ 2 ^ 48) && (t.objsOf c.pol).all fun o => !meets o.2.base (o.2.pages * 2 ^ 21) b bytes) 0x56 (detailAt 8)
      let o : Obj := { base := b, pages := pages, tier := 0, affinity := aff, readonly := (pw ps 4).testBit 19 || hint == 4, window := hint == 4
                       anchor := signed8 (bits (pw ps 4) 31 24), since := s.fc.num + 1 }
      let fit (tier : Nat) : Except Nat (Nat × List Nat) := (t.fitTier c.pol c.ord n tier aff pages).map fun r => (tier, r)
      let first := if hint = 1 ∨ hint = 3 then 1 else 0
      let r : Except Nat (Nat × List Nat) := match fit first with
        | .ok r => .ok r
        | .error e => if hint = 2 ∨ hint = 3 then (match fit (1 - first) with
            | .ok r => .ok r
            | .error _ => .error e) else .error e
      match r.bind fun x => (t.sysAdds c.pol c.ord n x.1 o x.2).map fun sys => (x.1, x.2, sys) with
      | .error e => .error (e, noDetail)
      | .ok (tier, fs, sys) =>
        .ok { Plan.ok 0 none [.objAlloc c.pol n { o with tier := tier } fs sys] 1 with result := b + n * 2 ^ 48 }
where
  /-- The lowest number that no live object of the polder holds (R216). -/
  lowestFreeObj (t : Mod) (p : Nat) : Option Nat :=
    let held := (t.objsOf p).map (·.1)
    (List.range 65536).find? fun k => k != 0 && !has held k

/-- OBJ_ALLOC (R216). -/
def execObjAlloc (c : CmdId) (s : State) : Host.Outcome State Fault Refusal :=
  s.when (s.m.granted c 0x4004 && s.m.inTurn c [0x4004, 0x4006]) (s.m.runCmd c planObjAlloc)

/-- OBJ_RELEASE: OBJECT. -/
def blkObjRelease (_ : Mod) (_ : Nat) (ps : List Word) : Chk Unit := do
  lenChk ps 4
  rsvChk ps [.w 0 0xFFFF0000]

/-- Whether a queue of the polder that is not DISABLED has its command ring in a range. -/
def Mod.ringIn (s : Mod) (p addr n : Nat) : Bool :=
  s.cq.queues.cells.any fun q => q.2.state != .disabled && ((s.queueOwner q.1).map s.polderOf == some p) &&
    meets addr n ((s.rd .CQ_RING_LO q.1).toNat / 4096 * 4096 + 2 ^ 32 * s.fld .CQ_RING_HI_ADDR q.1) (2 ^ s.fld .CQ_SIZES_RING_LOG2 q.1 * 64)

/-- OBJ_RELEASE (R220, R330). -/
def planObjRelease (s : Mod) (c : Ctx) (ps : List Word) : Chk Plan := do
  let n := pw ps 0
  match s.obj c.pol n with
  | none => .error (0x56, detailAt 0)
  | some o =>
    ensure (!s.ringIn c.pol o.base (o.pages * 2 ^ 21)) 0x56 (detailAt 0)
    ensure (!s.isStepState c.pol o.base (o.pages * 2 ^ 21)) 0x56 (detailAt 0)
    ensure (!(s.scratch.mem.pages.cells.any fun e => e.1 / 2 ^ 27 == c.pol && e.2.obj == n && e.2.migrating)) 0x56 (detailAt 0)
    ensure (!(s.ue.seals.any fun x => x.1 == c.pol && x.2.2.2.1 != 0 && meets x.2.1 x.2.2.1 o.base (o.pages * 2 ^ 21))) 0x36 (detailAt 0)
    .ok (.ok 0 none [.objRelease c.pol n] 1)

/-- OBJ_RELEASE (R220). -/
def execObjRelease (c : CmdId) (s : State) : Host.Outcome State Fault Refusal := s.when (s.m.granted c 0x4005) (s.m.runCmd c planObjRelease)

/-! ## Migration and window fills -/

/-- The bound of R224 for physical pages that are sourced or received, beyond its first two frames. -/
def Mod.moveFrames (s : Mod) (p : Nat) (ids : List Nat) : Nat :=
  let ctl (id : Nat) := (pageCtl (id / 2 ^ 22) (id % 2 ^ 22)).1
  let cost := (dedup (ids.map ctl)).foldl (fun m c => max m ((ids.filter fun i => ctl i == c).length * (if ctlHbm c then 2048 else 65536))) 0
  ceilDiv cost (s.budget * s.reserve p / 64)

/-- The migration engine of a command's work: the one it was granted; a program's, the first of its polder (log entry 28). -/
def Mod.meOf (s : Mod) (c : Ctx) : Nat × Nat :=
  match (s.cq.cmds.find? fun x => x.ord == c.ord).bind fun x => x.caps.findSome? fun k => match k with
      | .me d n => some (d, n)
      | _ => none with
  | some m => m
  | none => ((s.diesOf c.pol).headD 0, 0)

/-- MIGRATE: TIER and OBJECT, FIRST, COUNT. -/
def blkMigrate (_ : Mod) (_ : Nat) (ps : List Word) : Chk Unit := do
  lenChk ps 12
  rsvChk ps [.w 0 0xFFFE0000]

/-- Destination pages of a migration, by R218 over the object's affinity: page numbers with frames. -/
def Mem.placeEach (m : Mem) (cs : List Nat) (n : Nat) : List Nat → Option (List (Nat × Nat))
  | [] => some []
  | k :: rest => match m.place cs n k 1 with
    | some ([f], m') => (m'.placeEach cs n rest).map fun l => (k, f) :: l
    | _ => none

/-- MIGRATE: the object, its pages, then quota and frames (R224); pages already in the tier count as moved (R330). -/
def planMigrate (s : Mod) (c : Ctx) (ps : List Word) : Chk Plan := do
  let t := s.scratch
  let n := pw ps 0 % 65536
  let tier := bits (pw ps 0) 16 16
  if pw ps 8 = 0 ∧ (t.obj c.pol n).isSome then return .empty []
  match t.obj c.pol n with
  | none => .error (0x56, detailAt 0)
  | some o =>
    ensure (!o.window) 0x56 (detailAt 0)
    ensure (decide (pw ps 4 + pw ps 8 ≤ o.pages)) 0x56 (detailAt 4)
    let pageNo (k : Nat) := o.base / 2 ^ 21 + k
    ensure ((List.range (pw ps 8)).all fun k => match t.mem.pages.get (pageKey c.pol (pageNo (pw ps 4 + k))) with
      | some e => !e.migrating
      | none => true) 0x56 (detailAt 4)
    let ks := t.migPages c.pol ps
    ensure (ks.isEmpty || decide (t.usedPages c.pol tier c.ord + ks.length ≤ t.quota c.pol tier)) 0x54 noDetail
    match t.mem.placeEach (t.ctlList c.pol tier o.affinity) n ks with
    | none => .error (0x55, noDetail)
    | some l =>
      let src := ks.filterMap fun k => (t.mem.pages.get (pageKey c.pol (pageNo k))).map PageEnt.id
      let me := s.meOf c
      .ok { Plan.ok (rankMe me.1 me.2) (some (meEng me)) [] (max 1 (s.moveFrames c.pol (src ++ l.map (·.2)))) with
            now := [.migStart c.pol (l.map fun x => ⟨c.pol, pageNo x.1, x.2 / 2 ^ 22, x.2 % 2 ^ 22, 0⟩)]
            units := l.flatMap fun x => (List.range 32).map fun k => .migSub c.pol (pageNo x.1) k }

/-- MIGRATE (R223). -/
def execMigrate (w : Work) (s : State) : Host.Outcome State Fault Refusal :=
  s.when (s.m.workReady w 0x4006 && s.m.workTurn w [0x4004, 0x4006]) (s.m.runWork 0x4006 w blkMigrate planMigrate fun _ => none)

/-- WINDOW_FILL: SRC, DST and BYTES, multiples of 64 KiB (R330). -/
def blkWindowFill (_ : Mod) (_ : Nat) (ps : List Word) : Chk Unit := do
  lenChk ps 20
  rsvChk ps [.addr 0, .addr 8]
  allChk ([0, 8, 16].map fun o => ensure (pw ps o % 65536 == 0) 0x04 (detailAt o))

/-- WINDOW_FILL: SRC mapped and not in a WINDOW object, DST in one; sub-blocks become visible frame by frame (R233, R234). -/
def planWindowFill (s : Mod) (c : Ctx) (ps : List Word) : Chk Plan := do
  let src := pq ps 0
  let dst := pq ps 8
  let n := pw ps 16
  s.srcChk c.pol src n 0
  ensure (s.mapped c.pol dst n) 0x16 (detailAt 8)
  ensure (!((s.objsOf c.pol).any fun o => o.2.window && meets o.2.base (o.2.pages * 2 ^ 21) src n)) 0x56 (detailAt 0)
  ensure (n == 0 || match s.objHolding c.pol dst n with
    | some (_, o) => o.window
    | none => false) 0x56 (detailAt 8)
  ensure (!s.sealed c.pol dst n true false) 0x36 (detailAt 8)
  if n = 0 then return .empty []
  let k := n / 65536
  let ids (a : Nat) := dedup ((List.range k).filterMap fun i => (s.page c.pol (a + i * 65536)).map PageEnt.id)
  let me := s.meOf c
  .ok { Plan.ok (rankMe me.1 me.2) (some (meEng me)) [] (max 1 (s.moveFrames c.pol (ids src ++ ids dst))) with
        units := (List.range k).map fun i => .copyRange c.pol (src + i * 65536) (dst + i * 65536) 65536 }

/-- WINDOW_FILL (R233). -/
def execWindowFill (w : Work) (s : State) : Host.Outcome State Fault Refusal :=
  s.when (s.m.workReady w 0x4007) (s.m.runWork 0x4007 w blkWindowFill planWindowFill fun _ => none)

/-- A commit writes ranges of a polder: the fills that run and read them are torn (R234). -/
def Mod.tearFills (s : Mod) (p : Nat) (ranges : List (Nat × Nat)) : Mod :=
  { s with cq := { s.cq with cmds := s.cq.cmds.map fun c =>
      if c.opcode = 0x4007 ∧ c.pol = p ∧ (c.phase = .running ∨ c.phase = .decided) ∧ c.status = 0
        ∧ (ranges.any fun r => meets r.1 r.2 (pq c.params 0) (pw c.params 16)) then { c with status := 0x57 } else c } }

/-! ## The host transfer engine (R331) -/

/-- HOST_IN and HOST_OUT: HOST, DEV, BYTES, each a multiple of 4. -/
def blkHostMove (_ : Mod) (_ : Nat) (ps : List Word) : Chk Unit := do
  lenChk ps 20
  rsvChk ps [.addr 8]
  allChk ([0, 8, 16].map fun o => ensure (pw ps o % 4 == 0) 0x04 (detailAt o))

/-- The plan of a host transfer: 48 bytes a cycle need so many frames, and it takes them or one more (R331). -/
def Mod.hostPlan (s : Mod) (rank n : Nat) : Plan :=
  let k := max 1 (ceilDiv n (48 * s.budget))
  { Plan.ok rank none [] (k + 1) with least := k }

/-- HOST_IN: the bytes land granule by granule; a bad completion's granules land as poisoned, and the command completes with MEM_UNCORR. `bad` numbers
granules from the one that holds DEV. -/
def planHostIn (data : List Byte) (bad : List Nat) (s : Mod) (c : Ctx) (ps : List Word) : Chk Plan := do
  let dev := pq ps 8
  let n := pw ps 16
  s.destChk c.pol dev n 8
  if n = 0 then return .empty []
  let g0 := dev / 32
  let g1 := (dev + n - 1) / 32
  let part (g : Nat) := wcells (max dev (g * 32)) ((data.drop (g * 32 - dev)).take (min (dev + n) (g * 32 + 32) - max dev (g * 32)))
  .ok { s.hostPlan rankHostIn n with
        status := if bad.isEmpty then 0x00 else 0xF8
        units := (List.range (g1 + 1 - g0)).map fun k => if has bad k then .poison c.pol [g0 + k] else .mem c.pol (part (g0 + k)) }

/-- HOST_IN (R331): the outside supplies the BYTES that the host returns; a command that fails its checks asks for none. -/
def execHostIn (c : CmdId) (data : List Byte) (bad : List Nat) (s : State) : Host.Outcome State Fault Refusal :=
  s.when (s.m.granted c 0x4008 && match s.m.cmd c with
      | some x => (match planHostIn data bad s.m (s.m.ctxOf x) x.params with
          | .ok _ => data.length == pw x.params 16 && bad.all fun k => decide (k ≤ (pq x.params 8 + data.length - 1) / 32 - pq x.params 8 / 32)
          | .error _ => true)
      | none => false)
    (s.m.runCmd c (planHostIn data bad))

/-- HOST_OUT: 64 bytes at a time, each read as committed in its frame. -/
def planHostOut (s : Mod) (c : Ctx) (ps : List Word) : Chk Plan := do
  let host := pq ps 0
  let dev := pq ps 8
  let n := pw ps 16
  s.srcChk c.pol dev n 8
  if n = 0 then return .empty []
  match s.cq.cmds.find? fun x => x.ord == c.ord && !x.mgmt with
  | none => .ok (.empty [])
  | some x =>
    .ok { s.hostPlan 0 n with
          units := (List.range (ceilDiv n 64)).map fun k => .toHost c.pol c.fn x.qn x.seq (dev + 64 * k) (host + 64 * k) (min 64 (n - 64 * k)) }

/-- Whether a granted command that sends to the host may execute: the port is up, or the command fails its checks; until then the transfer engine owes its work (R331). -/
def Mod.canSend (s : Mod) (c : CmdId) (plan : Mod → Ctx → List Word → Chk Plan) : Bool :=
  s.pci.up || match s.cmd c with
    | some x => (match plan s (s.ctxOf x) x.params with
        | .ok _ => false
        | .error _ => true)
    | none => false

/-- HOST_OUT (R331). -/
def execHostOut (c : CmdId) (s : State) : Host.Outcome State Fault Refusal :=
  s.when (s.m.granted c 0x4009 && s.m.canSend c planHostOut) (s.m.runCmd c planHostOut)

/-! ## The import engine (R428 to R430) -/

/-- IMPORT: SRC, DST, BYTES, KEY; a KEY above 15 fails here (R429). -/
def blkImport (_ : Mod) (_ : Nat) (ps : List Word) : Chk Unit := do
  lenChk ps 24
  rsvChk ps [.addr 0, .addr 8, .w 20 0xFFFFFF00]
  ensure (decide (pw ps 20 < 16)) 0x04 (detailAt 20)

/-- Bytes that a container of n plaintext bytes occupies (R428). -/
def containerLen (n : Nat) : Nat := 64 + n + 16 * ceilDiv n 65536

/-- A polder's key slot. -/
def Mod.key (s : Mod) (p k : Nat) : Option Key := s.sec.keys.get (p * 16 + k)

/-- The checks of IMPORT before it writes anything, with the REASON that SP_IMPORT_STATUS records (R429, R434). -/
def chkImport (s : Mod) (c : Ctx) (ps : List Word) : Except (Option Nat × Nat × Nat) Unit := do
  let src := pq ps 0
  let dst := pq ps 8
  let n := pw ps 16
  let plain (r : Chk Unit) : Except (Option Nat × Nat × Nat) Unit := r.mapError fun e => (none, e.1, e.2)
  plain (s.srcChk c.pol src (containerLen n) 0)
  plain (ensure (s.mapped c.pol dst n) 0x16 (detailAt 8))
  match s.key c.pol (pw ps 20) with
  | none => .error (some 1, 0x53, detailAt 20)
  | some key =>
    let h (k : Nat) := s.getN c.pol (src + 4 * k) 4
    if h 0 = 1 ∧ h 1 = key.id.toNat ∧ h 4 + 2 ^ 32 * h 5 = n ∧ ((List.range 10).all fun k => h (6 + k) == 0) then do
      plain (ensure (!meets src (containerLen n) dst n) 0x04 noDetail)
      plain (ensure (!s.readonly c.pol dst n) 0x14 (detailAt 8))
      plain (ensure (!s.sealed c.pol dst n true false) 0x36 (detailAt 8))
    else .error (some 4, 0x04, detailAt 0)

/-- IMPORT runs at 16 bytes an array cycle: chunk i is checked in frame e + floor(bytes to its end ÷ 16 b), as the worked example of chapter 15 times it. -/
def Mod.runImport (s : Mod) (c : CmdId) : Mod :=
  match s.cmd c with
  | none => s
  | some x =>
    let ps := x.params
    let n := pw ps 16
    let cx := s.ctxOf x
    if s.closedTo x then s.finish x 0x05 noDetail else
    match chkImport s cx ps with
    | .error (r, st, d) =>
      let s := s.failAt x st d
      match r with
      | some r => s.stage rankImport (.importFail x.pol r (pw ps 20) 0)
      | none => s
    | .ok () =>
      if n = 0 then s.landIn x (.empty []) 1 else
      if s.poisoned x.pol (pq ps 0) 64 then s.landIn x (poisonPlan cx) 1 else
      let at_ (i : Nat) := min n ((i + 1) * 65536) / (16 * s.budget)
      let k := ceilDiv n 65536
      let m := at_ (k - 1) + 1
      let p : Plan := Plan.ok rankImport none [] m
      let l : List (Nat × Staged) := (List.range k).map fun i => (s.fc.num + at_ i, p.one cx (.importChunk x.pol x.qn x.seq i))
      let s := s.landIn x p m
      let now := l.filter fun e : Nat × Staged => decide (e.1 ≤ s.fc.num)
      let s := match s.cmd c with
        | some y => s.setCmd { y with land := l.filter fun e : Nat × Staged => decide (s.fc.num < e.1) }
        | none => s
      { s with sec := { s.sec with imports := s.sec.imports ++ [(x.qn, x.seq, x.pol, pw ps 20, 0)] } }.stageAll (now.map fun e : Nat × Staged => e.2)

/-- IMPORT (R430). -/
def execImport (c : CmdId) (s : State) : Host.Outcome State Fault Refusal := s.when (s.m.granted c 0x400A) (s.m.runImport c)

/-- The record of SP_IMPORT_STATUS, kept while VALID is set (R434). -/
def Mod.importRecord (s : Mod) (p reason slot chunk : Nat) : Mod :=
  if s.bit .SP_IMPORT_STATUS_VALID p then s
  else s.put .SP_IMPORT_STATUS p (BitVec.ofNat 32 (2 ^ 31 + reason * 2 ^ 28 + slot * 65536 + chunk % 65536))

/-- An import stops: its command completes with KEY_UNAVAILABLE at this sluice, and the first failure is recorded (R430, R434). -/
def Mod.stopImport (s : Mod) (x : Cmd) (reason chunk : Nat) : Mod :=
  let s := s.setCmd { x with phase := .decided, fin := s.fc.num, status := 0x53, detail := noDetail }
  let s := { s with sec := { s.sec with imports := s.sec.imports.filter fun (i : Nat × Nat × Nat × Nat × Nat) => !(i.1 == x.qn && i.2.1 == x.seq) } }
  s.importRecord x.pol reason (pw x.params 20) chunk

end Sys2Proof.Machine
end

