-- ==== Sys2Proof/Machine/Grant.lean ====
section
/-! DEFINITION. Engine capacity and its grant to ready commands (10_command_interface.md R286, R293, R294). -/

namespace Sys2Proof.Machine

/-- Whether a hub command processor is halted in a frame: it accepts and dispatches nothing (R448). -/
def Mod.hcpHalted (s : Mod) (n f : Nat) : Bool := s.ob.halted.any fun h => h.brk.core == 0 && h.brk.index == n && decide (h.at_ ≤ f)

/-- A program slot of every frame sequencer of dies (R294). -/
def fsqCaps (dies : List Nat) : List Cap := dies.flatMap fun d => (List.range 4).map fun n => .fsq d n

/-- The engines that a command names in its parameter block, and for work of a tile the program slot of its work item (R286, R293, R294, R317, R330, R331, R341);
frame sequencer n of a die serves its logical tiles 12n to 12n + 11 (log entry 69). -/
def Cmd.namedCaps (c : Cmd) : List Cap :=
  let ps := c.params
  let tile (off : Nat) (k : Nat → Cap) : List Cap := let t := ctrlTile (pw ps off); [k t, .fsq (t / 48) (t % 48 / 12)]
  let ce (off : Nat) : Cap := .ce (ctrlCe (pw ps off) / 4) (ctrlCe (pw ps off) % 4)
  match c.opcode with
  | 0x0005 => fsqCaps ([0, 1, 2, 3].filter fun d => (c.header.getD 1 0).testBit d)
  | 0x1000 => tile 0xC0 .fwd
  | 0x2000 => tile 0xC0 .rev
  | 0x2001 => tile 0xA0 .row
  | 0x2002 => tile 0x40 .row
  | 0x3000 => tile 0x60 .row
  | 0x3001 => tile 0x20 .row
  | 0x4003 => [ce 0x60]
  | 0x4008 => [.hostIn]
  | 0x4009 | 0x6005 => [.hostOut]
  | 0x400A => [.importer]
  | 0x5001 => [.update]
  | 0x6001 | 0x6002 => [.step c.pol]
  | 0x7000 => ce 0x80 :: if pw ps 0x80 % 65536 = 0 then [] else [.staging c.pol (pw ps 0x80 % 65536)]
  | 0x7001 => [ce 0x60]
  | _ => []

/-- Whether capacity is left beside what is held: 8 program slots of a frame sequencer, one of everything else (R286). -/
def Cap.fits (held : List Cap) (k : Cap) : Bool :=
  match k with
  | .fsq _ _ => decide ((held.filter (· == k)).length < 8)
  | _ => !held.any (· == k)

/-- What else a command waits for as for a held engine: a polder's open step or running loop (R337), a GROUP_INIT of a group that it names, one granted at this sluice
among them (R333). -/
def Mod.heldBack (s : Mod) (got : List Cmd) (c : Cmd) : Bool :=
  match c.opcode with
  | 0x6001 | 0x6002 => (s.ue.steps.get c.pol).isSome || (s.ue.loops.get c.pol).isSome
  | 0x6000 => (got ++ s.cq.cmds.filter fun x => x.phase == .running || x.phase == .granted).any fun x => !x.mgmt && x.pol == c.pol && x.opcode == 0x5001
      && (List.range (min 4096 (pw c.params 0x38))).any fun i => s.getN c.pol (pq c.params 0x30 + 2 * i) 2 == pw x.params 0 % 4096
  | _ => false

/-- The capacity that a command takes beside what is held, if there is enough. MIGRATE and WINDOW_FILL name no migration engine: they take the
first free one of their polder's dies (log entry 28). -/
def Mod.takes (s : Mod) (got : List Cmd) (held : List Cap) (c : Cmd) : Option (List Cap) :=
  if s.heldBack got c then none else
  match c.opcode with
  | 0x4006 | 0x4007 => (((s.diesOf c.pol).flatMap fun d => [Cap.me d 0, Cap.me d 1]).find? (Cap.fits held)).map fun k => [k]
  | _ => let l := c.namedCaps; if l.all (Cap.fits held) then some l else none

/-- Whether a command may execute in frame f + 1 as far as its waits, its order and its processor go (R286). -/
def Mod.mayRun (s : Mod) (f : Nat) (c : Cmd) : Bool :=
  c.phase == .ready && c.waits.isEmpty && !c.mgmt && decide (c.relAt ≤ f ∧ (c.replayed ∨ c.accepted + 2 ≤ f)) && !s.hcpHalted (c.qn % 4) (f + 1)
    && (!c.order || !s.cq.cmds.any fun y => !y.mgmt && y.qn == c.qn && decide (y.ord < c.ord))

/-- The capacity held: by commands, and by the programs of steps in their frames; a program whose frames are over holds no program slot (R294). -/
def Mod.heldCaps (s : Mod) : List Cap :=
  let past (c : Cmd) : Bool := s.ue.running.any fun p => p.ended && match p.runner with
    | .cmd i => !c.mgmt && i.q.val == c.qn && i.seq.toNat == c.seq
    | .step _ _ => false
  (s.cq.cmds.flatMap fun c => if past c then [] else c.caps) ++ s.ue.running.flatMap fun p => match p.runner with
    | .step _ _ => if p.ended then [] else fsqCaps p.dies
    | .cmd _ => []

/-- Capacity that is free for frame f + 1 is granted to the ready commands in the order of earliness (R286). Grants of that frame that no command has
used yet are made anew. -/
def Mod.grants (s : Mod) (f : Nat) : Mod :=
  let back (c : Cmd) : Cmd := if c.phase = .granted then { c with phase := .ready, caps := [] } else c
  let s := { s with cq := { s.cq with cmds := s.cq.cmds.map back } }
  let ready := sortBy (fun c : Cmd => c.ord) (s.cq.cmds.filter (s.mayRun f))
  let got := (ready.foldl (fun (acc : List (Cmd × List Cap) × List Cap) c => match s.takes (acc.1.map (·.1)) acc.2 c with
    | some l => (acc.1 ++ [(c, l)], acc.2 ++ l)
    | none => acc) ([], s.heldCaps)).1
  let on (c : Cmd) : Cmd := match got.find? fun x => x.1.ord == c.ord && !c.mgmt with
    | some x => { c with phase := .granted, caps := x.2 }
    | none => c
  { s with cq := { s.cq with cmds := s.cq.cmds.map on } }

end Sys2Proof.Machine
end

