-- ==== Sys2Proof/Machine/Trace.lean ====
section
/-! DEFINITION. Counter banks and the synchronisation trace: counting, samples, records, triggers (16_observability.md R435 to R446). -/

namespace Sys2Proof.Machine

/-! ## Counter banks -/

/-- A counter bank right after reset. -/
def Bank.zero : Bank := ⟨List.replicate 32 0, [], [], 0, false, false, List.replicate 32 0⟩

/-- A counter bank. -/
def Mod.bank (s : Mod) (b : Nat) : Bank := s.ob.banks.getD b .zero

/-- The state with a bank set. -/
def Mod.setBank (s : Mod) (b : Nat) (v : Bank) : Mod := { s with ob := { s.ob with banks := s.ob.banks.set b v } }

/-- A counter's value with events added; it saturates at 2^48 - 1 (R435). -/
def addCount (l : List Nat) (x : Nat × Nat) : List Nat := setNth l x.1 (min (2 ^ 48 - 1) (l.getD x.1 0 + x.2))

/-- Events of frame f in a bank: added at its sluice, or at once where that has been taken (R435). -/
def Mod.event (s : Mod) (f b i n : Nat) : Mod :=
  if n = 0 then s else
  let k := s.bank b
  s.setBank b (if f < s.fc.num then { k with counts := addCount k.counts (i, n) } else { k with frame := k.frame ++ [(i, n)] })

/-- Events in the hub bank of a polder. -/
def Mod.hubEvent (s : Mod) (f p i n : Nat) : Mod := s.event f (4 + p) i n

/-- The polder of a bank (R435). -/
def Mod.bankPol (s : Mod) (b : Nat) : Nat := if b < 4 then s.dieOf b else b - 4

/-- A counter as R422 shows it in a confidential polder. -/
def coarseCount (v : Nat) : Nat := v / 1024 * 1024

/-- A counter register as a read returns it: coarse in a confidential polder (R422). -/
def Mod.counterReg (s : Mod) (p : Nat) (r : RegName) (idx : Nat) (v : Word) : Word :=
  if s.conf p then BitVec.ofNat 32 (coarseCount (s.rf.coarse.getD (regKey r idx) 0).toNat) else v

/-- A bank takes a sample at sluice f (R438, R440). -/
def Bank.sample (k : Bank) (conf : Bool) (f : Nat) (cleared : Bool) : Bank :=
  let vals := if conf then k.coarse.map coarseCount else k.counts
  let set : List Nat × Nat × Nat × Bool := (vals, k.taken, f, cleared)
  { k with sets := (k.sets.filter fun x => x.2.1 % 2 != k.taken % 2) ++ [set], taken := k.taken + 1 }

/-- A bank at sluice f: its events of the frame, its sample, its clear (R435, R438, R439). -/
def Mod.bankStep (f : Nat) (s : Mod) (b : Nat) : Mod :=
  match s.ob.banks.get b with
  | none =>
    if s.fld .OB_BANK_CTRL_SAMPLE_LOG2 b = 0 then s else
    let conf := s.conf (s.bankPol b)
    let k := min 24 (s.fld .OB_BANK_CTRL_SAMPLE_LOG2 b)
    if f % 2 ^ (if conf then max k 12 else k) = 0 then s.setBank b (Bank.zero.sample conf f false) else s
  | some k =>
    let conf := s.conf (s.bankPol b)
    let k := { k with counts := k.frame.foldl addCount k.counts, frame := [] }
    let k := if f % 4096 = 0 then { k with coarse := k.counts } else k
    let e := min 24 (s.fld .OB_BANK_CTRL_SAMPLE_LOG2 b)
    let due := e != 0 && f % 2 ^ (if conf then max e 12 else e) == 0
    let k := if due || k.ask || k.armed then k.sample conf f k.armed else k
    let k := if k.armed then { k with counts := List.replicate 32 0 } else k
    s.setBank b { k with armed := false, ask := false }

/-- Every bank at sluice f. -/
def Mod.banksStep (s : Mod) (f : Nat) : Mod := (List.range 8).foldl (Mod.bankStep f) s

/-! ## Trace records -/

/-- A record from a source, at the sluice (R442). -/
def Rec.of (type src a b c d : Nat) : Rec := ⟨type, src / 2 ^ 22 % 4, src / 65536 % 16, src % 65536, 0xFFFF, a, b, c, d⟩

/-- The source code of a command of a queue (R442). -/
def srcQueue (q : Nat) : Nat := 9 * 65536 + q

/-- The 32 bytes of a record (R442). -/
def Rec.bytes (r : Rec) (p f : Nat) : List Byte :=
  leBytes (r.type * 2 ^ 26 + p * 2 ^ 24 + r.die * 2 ^ 22 + r.kind * 2 ^ 16 + r.unit) 4 ++ leBytes (r.cycle * 65536) 4 ++ leBytes f 8
    ++ leBytes r.a 4 ++ leBytes r.b 4 ++ leBytes r.c 4 ++ leBytes r.d 4

/-- The state with a polder's trace set. -/
def Mod.setTrace (s : Mod) (p : Nat) (t : Trace) : Mod := { s with ob := { s.ob with traces := s.ob.traces.set p t } }

/-- Whether a trace in STOP mode is full (R445). -/
def Trace.full (t : Trace) : Bool := t.mode == 2 && decide (t.start + 2 ^ t.n ≤ t.next)

/-- One record of frame f: written, dropped and counted, or left out (R443 to R445). -/
def Mod.putRec (p f : Nat) (s : Mod) (r : Rec) : Mod :=
  match s.ob.traces.get p with
  | none => s
  | some t =>
    if !(t.state == 2 || (t.state == 3 && t.full)) || 15 < r.type || !t.mask.testBit r.type then s
    else if t.full then (s.countReg .OB_TRACE_DROP p 1).setTrace p { t with state := 3 }
    else if 512 ≤ t.used then (s.countReg .OB_TRACE_DROP p 1).setTrace p { t with lost := t.lost + 1 }
    else
      let s := s.writeNow p (wcells (t.base + 32 * (t.next % 2 ^ t.n)) (r.bytes p f))
      let s := if t.mode ≠ 2 ∧ t.start < t.next ∧ (t.next - t.start) % 2 ^ t.n = 0 then s.countReg .OB_TRACE_WRAPS p 1 else s
      let t := { t with next := t.next + 1, used := t.used + 1 }
      let t := if t.full then { t with state := 3 } else if t.freeze = some t.next then { t with state := 4 } else t
      (s.setTrace p t).hubEvent f p 22 1

/-- The first record of a frame tells how many the frame before lost (R444). -/
def Mod.openTrace (p f : Nat) (s : Mod) : Mod :=
  match s.ob.traces.get p with
  | none => s
  | some t =>
    if t.frame = f then s else
    let s := s.setTrace p { t with frame := f, used := 0, lost := 0 }
    if t.lost = 0 then s else s.putRec p f (.of 15 0 t.lost 0 0 0)

/-- Whether an event fires the trigger that a trace waits for (R445); types 16 and 17 stand for a SHADOW alert and a software trigger, and are never written. -/
def Trace.fires (t : Trace) (r : Rec) : Bool :=
  r.type == 17 || match t.trig with
    | 1 => r.type == 10
    | 2 => r.type == 11
    | 3 => r.type == 4 && r.b == 0x21
    | 4 => r.type == 7 && r.c == t.code
    | 5 => r.type == 16
    | _ => false

/-- The trigger of sluice f fires, once (R445). -/
def Mod.fireTrace (p f : Nat) (s : Mod) (r : Rec) : Mod :=
  match s.ob.traces.get p with
  | none => s
  | some t =>
    if t.state ≠ 2 ∨ t.fired = some f then s else
    let x := t.next
    let again := t.mode == 3 && t.freeze.isSome
    let s := s.setTrace p { t with fired := some f, freeze := if t.mode = 3 ∧ t.freeze.isNone then some (x + 2 ^ t.n - t.pre) else t.freeze }
    let s := if again then s else
      (((s.put .OB_TRACE_TRIG_IDX p (BitVec.ofNat 32 x)).putPair .OB_TRACE_TRIG_FRAME_LO .OB_TRACE_TRIG_FRAME_HI p f).raiseNow .OB_TRACE_STATUS_TRIGGERED p)
    s.putRec p f { r with type := 13, cycle := 0xFFFF, a := if r.type = 17 then 0 else t.trig, b := x, c := 0, d := 0 }

/-- An event of frame f for a polder's trace: it waits for the frame's sluice, or is written at once where that has been taken. -/
def Mod.note (s : Mod) (p f : Nat) (r : Rec) : Mod :=
  match s.ob.traces.get p with
  | none => s
  | some t =>
    if f < s.fc.num then
      let s := (s.openTrace p f).putRec p f r
      if t.fires r then s.fireTrace p f r else s
    else s.setTrace p { t with recs := t.recs ++ [r] }

/-- The order of a frame's records (R444): those of the array cycles by cycle, die, kind and unit, then those of the sluice as they came. -/
def Rec.order (r : Rec) : Nat :=
  r.cycle * 2 ^ 32 + if r.cycle = 0xFFFF then 0 else r.die * 2 ^ 20 + r.kind * 2 ^ 16 + r.unit

/-- The records of frame f are written at its sluice, a fired trigger after them (R441, R444, R445). -/
def Mod.flushTrace (f : Nat) (s : Mod) (p : Nat) : Mod :=
  match s.ob.traces.get p with
  | none => s
  | some t =>
    let rs := sortBy Rec.order t.recs
    let s := rs.foldl (Mod.putRec p f) ((s.setTrace p { t with recs := [] }).openTrace p f)
    match rs.find? t.fires with
    | some r => s.fireTrace p f r
    | none => s

/-- Every polder's records of frame f. -/
def Mod.flushTraces (s : Mod) (f : Nat) : Mod := (List.range 4).foldl (Mod.flushTrace f) s

/-- A polder's capture stops with its buffer gone; `wipe` discards the records that lie in it (R420, R446). -/
def Mod.stopTrace (s : Mod) (p : Nat) (wipe : Bool) : Mod :=
  match s.ob.traces.get p with
  | none => s
  | some t =>
    let s := s.setTrace p { t with state := 0, recs := [], next := if wipe then 0 else t.next }
    if wipe ∧ t.next ≠ 0 then s.writeNow p (wcells t.base (List.replicate (32 * min t.next (2 ^ t.n)) 0)) else s

end Sys2Proof.Machine
end

