-- ==== Sys2Proof/Machine/Weirs.lean ====
section
/-! DEFINITION. Weirs: signals, releases, clears and waits (02_frames_and_commit.md R55 to R58, 10 R289, R290). -/

namespace Sys2Proof.Machine

/-- A frame number later than every frame: the last frame of a command whose end is not yet known. -/
def never : Nat := 2 ^ 80

/-- A command's source code in trace records (R442); a management packet counts as the hub command processors' (log entry 11). -/
def Cmd.src (c : Cmd) : Nat := if c.mgmt then 7 * 65536 else srcQueue c.qn

/-- The waits of a packet's header (R287, R289). -/
def Cmd.headerWaits (c : Cmd) : List WaitOn :=
  [3, 4, 5, 6].filterMap fun i => if (c.w i).testBit 31 then some ⟨bits (c.w i) 29 16, bits (c.w i) 15 0⟩ else none

/-- The polder of a weir (R58). -/
def Mod.weirPol (s : Mod) (n : Nat) : Nat := s.fld .WEIR_CTRL_POLDER n

/-- A signal of frame f is added to its weir's count, which saturates and sets OVF (R55). -/
def Mod.addSignal (f : Nat) (s : Mod) (g : Sig) : Mod :=
  let p := s.weirPol g.weir
  let s := (s.note p f (.of 2 g.src g.weir g.add g.seq 0)).hubEvent f p 3 1
  if g.add = 0 then s else
  let old := (s.rd .WEIR_COUNT g.weir).toNat
  let c := old + g.add
  let level := (s.rd .WEIR_LEVEL g.weir).toNat
  let s := if old < level ∧ level ≤ c then { s with wr := { s.wr with by_ := s.wr.by_.set g.weir g.src } } else s
  let s := s.put .WEIR_COUNT g.weir (BitVec.ofNat 32 (min c 0xFFFFFFFF))
  if 0xFFFFFFFF < c then s.raiseNow .WEIR_CTRL_OVF g.weir else s

/-- The order of signals' sources: compute dies first, then the hub (R443). -/
def Sig.order (g : Sig) : Nat := if g.src / 65536 % 16 < 5 then g.src / 2 ^ 22 % 4 * 2 ^ 20 + g.src % 2 ^ 20 else 2 ^ 24 + g.src % 2 ^ 20

/-- The waits of a command that end at sluice f are traced: with a status, or those within their limits withdrawn (R443). -/
def Mod.noteWaits (f status : Nat) (s : Mod) (c : Cmd) : Mod :=
  c.waits.foldl (fun s w =>
    let st := if status = 0x21 ∧ (w.limit = 0 ∨ f + 1 < c.accepted + w.limit) then 0x06 else status
    s.note c.pol f (.of 4 c.src w.weir st c.seq (f + 1 - c.accepted))) s

/-- The weir on which a loop waits for its next step's batch (R337). -/
def Loop.weir (l : Loop) : Nat := l.weir0 + l.started % max 1 l.nweirs

/-- Whether a polder's loop waits on its batch weir: no step is open, and the loop is not at its end (R33, R337). -/
def Mod.loopWaits (s : Mod) (p : Nat) (l : Loop) : Bool :=
  (s.ue.steps.get p).isNone && !l.released && (l.steps == 0 || decide (l.started < l.steps))

/-- Whether a bucket of a step waits on its fill weir (R248). -/
def Bucket.fills (k : Bucket) : Bool := k.state == 1 && !k.filled && !k.cut && k.owner.isNone

/-- The weirs on which waits are pending: of commands, of loops, and of buckets that fill (R248, R289, R337). -/
def Mod.waitedWeirs (s : Mod) : List Nat :=
  dedup ((s.cq.cmds.flatMap fun c => c.waits.map (·.weir)) ++ (s.ue.loops.cells.filterMap fun l => if s.loopWaits l.1 l.2 then some l.2.weir else none)
    ++ s.ue.buckets.cells.flatMap fun b => b.2.filterMap fun k => if k.fills then some k.weir else none)

/-- Whether a command waits on a weir. -/
def Cmd.waitsOn (c : Cmd) (n : Nat) : Bool := c.waits.any fun w => w.weir == n

/-- A weir whose count is at least its level releases its waiters at sluice f; in CYCLIC mode the level is subtracted
once at a sluice (R56, R289). -/
def Mod.releaseWeir (f : Nat) (s : Mod) (n : Nat) : Mod :=
  let count := (s.rd .WEIR_COUNT n).toNat
  let level := (s.rd .WEIR_LEVEL n).toNat
  if count < level then s else
  let s := if s.bit .WEIR_CTRL_MODE n && !has s.wr.released n then s.put .WEIR_COUNT n (BitVec.ofNat 32 (count - level)) else s
  let waiters := s.cq.cmds.filter (·.waitsOn n)
  let by_ := s.wr.by_.getD n 0
  let others := (s.ue.loops.cells.filter fun l => s.loopWaits l.1 l.2 && l.2.weir == n).length
    + (s.ue.buckets.cells.map fun b => (b.2.filter fun k => k.fills && k.weir == n).length).sum
  let c := by_ / 2 ^ 22 % 4 * 2 ^ 24 + by_ % 2 ^ 20
  let s := (s.note (s.weirPol n) f (.of 3 by_ n (s.rd .WEIR_COUNT n).toNat c (waiters.length + others))).hubEvent f (s.weirPol n) 4 (if has s.wr.released n then 0 else 1)
  let s := waiters.foldl (fun s c => s.noteWaits f 0 { c with waits := c.waits.filter fun w => w.weir == n }) s
  let s := { s with wr := { s.wr with released := addOnce s.wr.released n } }
  let loops := s.ue.loops.map fun p l => if s.loopWaits p l && l.weir == n then { l with released := true } else l
  let cmds := s.cq.cmds.map fun c => if c.waitsOn n then { c with waits := c.waits.filter (fun w => w.weir != n), relAt := f } else c
  let buckets := s.ue.buckets.map fun _ l => l.map fun k => if k.fills ∧ k.weir = n then { k with filled := true } else k
  { s with cq := { s.cq with cmds := cmds }, ue := { s.ue with loops := loops, buckets := buckets } }

/-- Every weir with a pending wait is evaluated at sluice f (R56). -/
def Mod.releaseWeirs (s : Mod) (f : Nat) : Mod := s.waitedWeirs.foldl (Mod.releaseWeir f) s

/-- A command's outcome at sluice f, that of the frame that runs or the one that is being taken, unless it has one. -/
def Mod.conclude (s : Mod) (q k f status result : Nat) : Mod :=
  match s.cq.cmds.find? fun c => !c.mgmt && c.qn == q && c.seq == k && c.phase != .decided with
  | none => s
  | some c =>
    let c := { c with phase := .decided, fin := f, status := status, detail := noDetail, result := BitVec.ofNat 64 result }
    s.setCmd c

/-- A loop ends at sluice f: LOOP_START posts its one reply, and the LOOP_STOP commands that wait for it complete (R337). -/
def Mod.endLoop (s : Mod) (p f status : Nat) (l : Loop) : Mod :=
  let s := { s with ue := { s.ue with loops := s.ue.loops.del p } }
  let s := s.conclude l.q l.seq f status l.committed
  l.stop.foldl (fun s x => s.conclude x.1 x.2 f 0x00 0) s

/-- A weir is cleared: its count is 0, and every wait on it ends with WEIR_RESET (R58): of commands, of a loop that waits for its batch, which ends, and of buckets that
fill, which then close no more and are late at O + DUE (log entry 38). -/
def Mod.clearWeir (f : Nat) (s : Mod) (n : Nat) : Mod :=
  let s := s.put .WEIR_COUNT n 0#32
  let s := (s.cq.cmds.filter (·.waitsOn n)).foldl (Mod.noteWaits f 0x23) s
  let cmds := s.cq.cmds.map fun c => if c.waitsOn n then { c with waits := [], phase := .decided, status := 0x23, detail := noDetail, fin := f } else c
  let buckets := s.ue.buckets.map fun _ l => l.map fun k => if k.fills ∧ k.weir = n then { k with cut := true } else k
  let ends := s.ue.loops.cells.filter fun l => s.loopWaits l.1 l.2 && l.2.weir == n
  ends.foldl (fun s l => s.endLoop l.1 f 0x23 l.2) { s with cq := { s.cq with cmds := cmds }, ue := { s.ue with buckets := buckets } }

/-- The hub signals a weir in step 6 of a sluice, to be applied in step 7. -/
def Mod.signalHub (s : Mod) (n add : Nat) : Mod :=
  { s with wr := { s.wr with sigs := s.wr.sigs ++ [({ weir := n, add := add, seq := 0, src := 5 * 65536 } : Sig)] } }

/-- The signals that a command's class applies, of those that name weirs of its polder (R58, R298). -/
def Mod.signalsOf (s : Mod) (c : Cmd) : List Sig :=
  let cls := statusClass c.status
  let hdr := [7, 8, 9, 10].filterMap fun i =>
    let w := c.w i
    if w.testBit 31 && (cls ≤ 1 || (cls == 2 && w.testBit 30)) then some { weir := bits w 29 16, add := bits w 15 0, seq := c.seq, src := c.src } else none
  (hdr ++ if cls ≤ 1 then c.sigs else []).filter fun g => s.fld .WEIR_CTRL_POLDER g.weir == c.pol

/-- Whether a command's outcome is decided and its last frame is f or earlier (R290). -/
def Cmd.done (c : Cmd) (f : Nat) : Bool := (c.phase == .decided || c.phase == .running) && decide (c.fin ≤ f)

/-- Step 7 of R45 at sluice f: clears, then the signals of the frame and of the commands that complete in it, then releases (R55 to R58, R290). -/
def Mod.weirStep (s : Mod) (f : Nat) : Mod :=
  let s := s.wr.clears.foldl (Mod.clearWeir f) s
  let sigs := sortBy Sig.order (s.wr.sigs ++ (s.cq.cmds.filter fun c => c.done f && !c.told).flatMap s.signalsOf)
  let s := sigs.foldl (Mod.addSignal f) { s with wr := { s.wr with sigs := [], clears := [], released := [] } }
  s.releaseWeirs f

end Sys2Proof.Machine
end

