-- ==== Sys2Proof/Machine/Replies.lean ====
section
/-! DEFINITION. Replies, messages, and how a queue stops (10_command_interface.md R296 to R303, R305). -/

namespace Sys2Proof.Machine

/-- An MSI-X vector right after reset: masked (PCI Express; log entry 15). -/
def Vec.zero : Vec := ⟨0, 0, true⟩

/-- A message of a vector, numbered function * 2048 + vector: sent, held on the pending bit of a masked vector, or dropped with MSI-X Enable clear (R302). -/
def Mod.sendVec (s : Mod) (k : Nat) : Mod :=
  let fn := k / 2048
  let v := s.pci.vecs.getD k .zero
  if !has s.pci.msixEn fn then s
  else if has s.pci.fmask fn || v.masked then { s with pci := { s.pci with pend := addOnce s.pci.pend k } }
  else s.emit (.msix fn (k % 2048) v.addr v.data)

/-- The messages due at this sluice are sent, one on a vector (R302). -/
def Mod.sendDue (s : Mod) : Mod := s.pci.due.foldl Mod.sendVec { s with pci := { s.pci with due := [] } }

/-- A message falls due at this sluice. -/
def Mod.due (s : Mod) (fn vec : Nat) : Mod := { s with pci := { s.pci with due := addOnce s.pci.due (fn * 2048 + vec) } }

/-- An alert cause is set at the sluice that is being taken or has just been: a bit that was clear sends the polder's alert message (R302, R303). -/
def Mod.alertNow (s : Mod) (f : Fld) (p : Nat) : Mod :=
  if s.bit f p then s else
  let s := s.raiseNow f p
  if s.bit .CQ_ALERT_CTRL_EN p then s.due (s.fld .CQ_ALERT_CTRL_FUNC p) (s.fld .CQ_ALERT_CTRL_VECTOR p) else s

/-- CR_FRAMES: the frames in which a command executed, 0 if none. An OK_EMPTY command reads and writes nothing, and does not execute (R201, R296). -/
def Cmd.frames (c : Cmd) : Nat := if c.first = 0 ∨ c.status = 0x01 then 0 else c.fin + 1 - c.first

/-- The words of a reply (R296). -/
def replyWords (c : Cmd) (phase signalled : Bool) : List Word :=
  let b (x : Bool) (i : Nat) := if x then 2 ^ i else 0
  [c.seq, c.w 2, b phase 31 + b c.replayed 20 + b c.inexact 19 + b c.sr 18 + b c.step 17 + b signalled 16 + c.detail * 256 + c.status,
   c.frames, c.fin, c.fin / 2 ^ 32, c.result.toNat, c.result.toNat / 2 ^ 32].map (BitVec.ofNat 32)

/-- The place of a word of a function's management block in its store. -/
def mqKey (fn off : Nat) : Nat := fn * 2048 + off / 4

/-- A management packet's reply is written into MQ_REPLY of its slot (R305). -/
def Mod.mqReply (s : Mod) (c : Cmd) (signalled : Bool) : Mod :=
  let ws := replyWords c (c.slots != 0) signalled
  let s := { s with cq := { s.cq with mqWords := ws.zipIdx.foldl (fun t w => t.set (mqKey c.qn (0x1000 + 0x20 * (c.seq % 8) + 4 * w.2)) w.1) s.cq.mqWords } }
  if s.bit .MQ_CTRL_IRQ_EN c.qn && (c.irq || statusClass c.status ≥ 2) then s.due c.qn (s.fld .MQ_CTRL_VECTOR c.qn) else s

/-- A reply goes to the completion ring by one request, and its message falls due (R280, R297, R302). -/
def Mod.cqReply (s : Mod) (c : Cmd) (signalled : Bool) : Mod :=
  let q := s.queue c.qn
  let n := 2 ^ s.fld .CQ_SIZES_CPL_LOG2 c.qn
  let at_ := s.fld .CQ_CPL_LO_ADDR c.qn * 4096 + 2 ^ 32 * (s.rd .CQ_CPL_HI c.qn).toNat
  let next := (q.cplTail + 1) % n
  let s := s.emit (.hostWrite c.fn (at_ + 32 * q.cplTail) ((replyWords c q.phase signalled).flatMap fun w => leBytes w.toNat 4))
  let s := s.setQueue c.qn { q with cplTail := next, phase := if next = 0 then !q.phase else q.phase }
  if s.bit .CQ_CTRL_IRQ_EN c.qn && (c.irq || statusClass c.status ≥ 2) then s.due c.fn (s.fld .CQ_CTRL_VECTOR c.qn) else s

/-- A command leaves the commands in flight: its program stops, its seal ends, its staged work goes (R285, R433). -/
def Mod.dropCmd (s : Mod) (c : Cmd) : Mod :=
  { s with cq := { s.cq with cmds := s.cq.cmds.filter fun x => !x.same c }
           ue := { s.ue with running := s.ue.running.filter fun p => match p.runner with
                               | .cmd i => c.mgmt || !(i.q.val == c.qn && i.seq.toNat == c.seq)
                               | .step _ _ => true
                             seals := s.ue.seals.filter fun x => c.mgmt || x.2.2.2.1 != 0 || x.2.2.2.2 != c.ord } }

/-- A reply is posted at its sluice, the command no longer in flight. -/
def Mod.postReply (s : Mod) (c : Cmd) : Mod :=
  let signalled := (s.signalsOf c).any (·.add != 0)
  let s := if c.mgmt then s.mqReply c signalled else s.cqReply c signalled
  let s := s.note c.pol c.fin (.of 7 c.src c.qn c.seq c.status c.frames)
  let s := if c.status = 0x50 then s.countReg .SP_DIKE_DENIED c.pol 1 else s
  ((s.hubEvent c.fin c.pol 1 1).hubEvent c.fin c.pol 2 (if statusClass c.status = 2 then 1 else 0)).dropCmd c

/-- Whether a command's work belongs to a step transaction whose outcome is still open: the outcome decides it, and its reply waits (R174, R258, R292). -/
def Mod.undecided (s : Mod) (c : Cmd) : Bool :=
  c.step && !c.mgmt && c.first != 0 && c.status != 0x01 && decide (statusClass c.status ≤ 1) && c.status != 0x26 && s.stepOpen c.pol

/-- A command whose work has retired into an open step is held: it keeps no capacity, and its signals have been applied (R290, R292). -/
def Mod.holdStep (f : Nat) (s : Mod) : Mod :=
  { s with cq := { s.cq with cmds := s.cq.cmds.map fun c => if c.done f && s.undecided c then { c with phase := .held, caps := [], land := [], told := true } else c } }

/-- The STEP commands that a polder's step holds complete at sluice f, their signals already applied: as their work ended at a commit, with TX_ABANDONED where the
step abandons it (R258). -/
def Mod.endHeld (s : Mod) (p f : Nat) (commit : Bool) : Mod :=
  { s with cq := { s.cq with cmds := s.cq.cmds.map fun c =>
      if c.phase = .held ∧ c.pol = p then { c with phase := .decided, fin := f, status := if commit then c.status else 0x26, detail := if commit then c.detail else noDetail }
      else c } }

/-- Whether a command has not reached its first executing frame (R299). -/
def Cmd.waiting (c : Cmd) : Bool := c.phase == .accepted || c.phase == .ready || c.phase == .granted

/-- The commands of a queue that have not begun are cancelled at sluice f (R299). -/
def Mod.cancelQueue (f : Nat) (s : Mod) (q : Nat) : Mod :=
  (sortBy (·.seq) (s.cq.cmds.filter fun c => !c.mgmt && c.qn == q && c.waiting)).foldl (fun s c =>
    (s.noteWaits f 0x06 c).postReply { c with status := 0x06, detail := noDetail, fin := f, waits := [] }) s

/-- The queue of a reply of class E enters ERROR at sluice f, unless it is already stopped; the lowest SEQ is recorded (R298, R299). -/
def Mod.stopQueue (s : Mod) (q status seq : Nat) : Mod :=
  let k := s.queue q
  match k.state with
  | .running | .paused => s.setQueue q { k with state := .error, errStatus := status, errSeq := seq }
  | _ => s

/-- Whether a queue is stopped at the sluice by its RESET or by the reset of its polder: what has not begun is cancelled (R299, R383). -/
def Mod.shut (s : Mod) (q : Nat) : Bool :=
  (s.queue q).resetting || s.rel.asked.any fun r => r.kind == 4 && r.began != 0 && (s.queueOwner q).any fun fn => s.polderOf fn == r.index

/-- The replies of a queue at sluice f, with those of its cancelled commands: in the order of CQ_SEQ, but that a cancelled command's follows the reply that stopped the
queue, the first of class E (R291, R299). -/
def Mod.queueReplies (s : Mod) (f q : Nat) (done : List Cmd) : List Cmd :=
  let mine := sortBy (·.seq) (done.filter fun c => !c.mgmt && c.qn == q)
  let off := (s.cq.cmds.filter fun c => !c.mgmt && c.qn == q && c.waiting).map fun c => { c with status := 0x06, detail := noDetail, fin := f }
  match mine.find? fun c => statusClass c.status == 2 && ((s.queue q).state == .running || (s.queue q).state == .paused) with
  | some k => (mine.filter fun c => decide (c.seq ≤ k.seq)) ++ sortBy (·.seq) ((mine.filter fun c => decide (k.seq < c.seq)) ++ off)
  | none => if s.shut q then sortBy (·.seq) (mine ++ off) else mine

/-- One reply of a queue; a cancelled command withdraws its waits, and the first of class E stops the queue (R298, R299). -/
def Mod.postOne (f : Nat) (s : Mod) (c : Cmd) : Mod :=
  let s := if c.status = 0x06 then (s.noteWaits f 0x06 c).postReply { c with waits := [] } else s.postReply c
  if statusClass c.status = 2 then s.stopQueue c.qn c.status c.seq else s

/-- Replies of sluice f, queue by queue (R291, R298, R299). -/
def Mod.postReplies (s : Mod) (cs : List Cmd) (f : Nat) : Mod :=
  let qs := sortBy id (dedup ((cs.filter fun c => !c.mgmt).map (·.qn) ++ (s.cq.cmds.filter fun c => !c.mgmt && c.waiting && s.shut c.qn).map (·.qn)))
  let s := (qs.flatMap fun q => s.queueReplies f q cs).foldl (Mod.postOne f) s
  (sortBy (fun c => c.qn * 16 + c.seq) (cs.filter (·.mgmt))).foldl Mod.postReply s

/-- Step 8 of R45: replies of the commands completed in frame f; STEP commands of an open step wait for its outcome. -/
def Mod.replyStep (s : Mod) (f : Nat) : Mod :=
  let s := s.holdStep f
  s.postReplies (s.cq.cmds.filter (·.done f)) f

/-- A command as it stood before a status that another of the same sluice overrides: TILE_FAULT, DOMAIN_RESET, HANG_ABORT and ABORTED, in this order (R385). -/
def Cmd.before (c : Cmd) (weaker : List Nat) (f : Nat) : Cmd :=
  if c.phase = .decided ∧ c.fin = f ∧ has weaker c.status then { c with phase := .running } else c

/-- Commands end with a status at sluice f (R290). In step 6 their signals follow at step 7; after it, those with ALWAYS set are staged into the next frame. Their replies
are posted in step 8; where no sluice is being taken, at once. -/
def Mod.endCmds (s : Mod) (pick : Cmd → Bool) (status f : Nat) : Mod :=
  let s := (s.cq.cmds.filter pick).foldl (Mod.noteWaits f (if status = 0x21 then 0x21 else 0x06)) s
  let stop (c : Cmd) : Cmd := { c with phase := .decided, status := status, detail := noDetail, fin := f, waits := [] }
  let sigs := ((s.cq.cmds.filter fun c => pick c && c.phase != .decided).map stop).flatMap s.signalsOf
  let staged := { s with wr := { s.wr with sigs := s.wr.sigs ++ sigs } }
  let mark (s : Mod) : Mod := { s with cq := { s.cq with cmds := s.cq.cmds.map fun c => if pick c then stop c else c } }
  match s.fc.window with
  | some w => mark (if w.part = .commits then s else staged)
  | none => (staged.postReplies ((s.cq.cmds.filter pick).map stop) f).grants f

/-- A command completes with frame f. While a sluice is being taken it joins that sluice's replies; else its signals are applied, its reply posted and its message
sent at once (R290). -/
def Mod.completeAt (s : Mod) (c : Cmd) (f : Nat) : Mod :=
  let c := { c with fin := f, phase := .decided }
  if s.fc.window.isSome then s.setCmd c else
  let sigs := s.signalsOf c
  let s := sigs.foldl (Mod.addSignal f) s
  let s := (dedup (sigs.map (·.weir))).foldl (Mod.releaseWeir f) s
  ((s.postReplies [c] f).grants f).sendDue

/-- The sluice whose weirs have been evaluated, of a wait that its limit may end there: before step 8, or after the acceptance of step 8, which tests new waits (R57, R289). -/
def Mod.sluiceW (s : Mod) : Option Nat :=
  match s.fc.window with
  | some w => if w.part = .commits then none else some s.fc.num
  | none => none

/-- A wait that reaches its limit unreleased at the sluice that is being taken (R57). -/
def Mod.waitLate (s : Mod) (c : Cmd) : Bool :=
  match s.sluiceW with
  | some f => c.waiting && c.waits.any fun w => w.limit != 0 && decide (c.accepted + w.limit ≤ f + 1)
  | none => false

/-- WEIR_TIMEOUT ends a waiting command whose limit has passed (R57). -/
def Mod.weirTimeout (s : Mod) (c : CmdId) : Mod :=
  match s.cmd c with
  | some x => s.endCmds (fun y => y.same x) 0x21 s.fc.num
  | none => s

end Sys2Proof.Machine
end

