-- ==== Sys2Proof/Machine/Ckpt.lean ====
section
/-! DEFINITION. Checkpoints: taking, draining, completing and restoring them (11_command_reference.md R338, 13_reliability_and_recovery.md R393 to R396). -/

namespace Sys2Proof.Machine

/-- CKPT_TAKE: OBJECT, NRANGES and the array of ranges, which is read with the packet (R338); lengths and addresses are multiples of 64 KiB (R393). -/
def blkCkptTake (s : Mod) (pol : Nat) (ps : List Word) : Chk Unit := do
  lenChk ps 16
  rsvChk ps [.w 0 0xFFFF0000, .addr 8]
  let n := pw ps 4
  ensure (decide (1 ≤ n ∧ n ≤ 240)) 0x04 (detailAt 4)
  ensure (s.mapped pol (pq ps 8) (16 * n)) 0x16 (detailAt 8)
  ensure ((List.range (2 * n)).all fun i => s.getN pol (pq ps 8 + 8 * i) 8 % 65536 == 0) 0x04 (detailAt 8)

/-- The words of the range array, which the command keeps from frame a + 1 on (R338). -/
def Mod.ckptArray (s : Mod) (pol : Nat) (ps : List Word) : List Word :=
  (List.range (4 * pw ps 4)).map fun i => BitVec.ofNat 32 (s.getN pol (pq ps 8 + 4 * i) 4)

/-- The ranges that a CKPT_TAKE command holds. -/
def takeRanges (ps : List Word) : List (Nat × Nat) := (List.range (pw ps 4)).map fun i => (pq ps (16 + 16 * i), pq ps (24 + 16 * i))

/-- The conditions on a checkpoint object: in LPDDR, writable, large enough, and no checkpoint in it that is TAKING or being drained (R338, R394). -/
def Mod.ckptObjOk (s : Mod) (p n total : Nat) : Bool :=
  match s.obj p n with
  | none => false
  | some o => o.tier == 1 && !o.readonly && !o.window && decide (total + 65536 ≤ o.pages * 2 ^ 21) && !(s.mem.ckpts.any fun k => k.pol == p && k.obj == n)
      && !(s.cq.cmds.any fun c => c.opcode == 0x6005 && c.pol == p && c.phase == .running && c.w 16 % 65536 == n)
      && !(s.ue.takes.any fun t => s.cq.cmds.any fun c => !c.mgmt && c.qn == t.1 && c.seq == t.2 && c.pol == p && c.w 16 % 65536 == n)

/-- CKPT_TAKE waits from frame e for its commit sluice (R338). -/
def Mod.runCkptTake (s : Mod) (c : CmdId) : Mod :=
  match s.cmd c with
  | none => s
  | some x =>
    let ps := x.params
    let ranges := takeRanges ps
    if s.closedTo x then s.finish x 0x05 noDetail else
    let chk : Chk Unit := do
      ensure (s.ckptObjOk x.pol (pw ps 0) (ranges.map (·.2)).sum) 0x56 (detailAt 0)
      ensure (ranges.all fun r => s.mapped x.pol r.1 r.2) 0x16 (detailAt 8)
    match chk with
    | .error (st, d) => s.finish x st d
    | .ok () =>
      let s := s.setCmd { x with phase := .running, first := s.fc.num, fin := never, status := 0, detail := noDetail }
      { s with ue := { s.ue with takes := s.ue.takes ++ [(x.qn, x.seq)] } }

/-- CKPT_TAKE (R338). -/
def execCkptTake (c : CmdId) (s : State) : Host.Outcome State Fault Refusal := s.when (s.m.granted c 0x6004) (s.m.runCkptTake c)

/-- The image of a slot in a checkpoint head or a step record (R393). -/
def Mod.slotImage (s : Mod) (n : Nat) : Nat := s.fld .GS_CTRL_FMT n * 4096 + s.fld .GS_BASE_NARROW_RUN n % 16 * 256 + s.fld .GS_BASE_BASE n

/-- The 64 KiB head of a checkpoint at its sluice (R393). -/
def Mod.ckptHead (s : Mod) (p at_ : Nat) (ranges : List (Nat × Nat)) : List Byte :=
  let fill (n : Nat) (l : List Byte) : List Byte := l ++ List.replicate (n - l.length) 0
  let total := (ranges.map (·.2)).sum
  let top := leBytes (ranges.length * 256) 8 ++ leBytes at_ 8 ++ leBytes (s.pair .UE_STEP_LO .UE_STEP_HI p) 8 ++ leBytes total 8 ++ leBytes 0 24
  let rs := ranges.flatMap fun r => leBytes r.1 8 ++ leBytes r.2 8
  let mine (g : Nat) := s.fld .UE_GROUP_CTRL_POLDER g == p
  let gs := (List.range 4096).flatMap fun g =>
    if mine g then [RegName.UE_GROUP_B1POW, .UE_GROUP_B2POW, .UE_GROUP_STEPS].flatMap fun r => leBytes (s.rd r g).toNat 4 else leBytes 0 12
  let lrx := (List.range 4096).map fun g => if mine g then BitVec.ofNat 8 (s.fld .UE_GROUP_LRX_LRX g) else 0
  let slots := (List.range 4096).flatMap fun n => leBytes (if s.fld .GS_CTRL_POLDER n = p then s.slotImage n else 0) 2
  fill 65536 (fill 0xE000 (fill 0xD000 (fill 0x1000 (fill 0x100 top ++ rs) ++ gs) ++ lrx) ++ slots)

/-- The COW mark of the pages of some ranges (R222). -/
def Mod.markCow (s : Mod) (p : Nat) (ranges : List (Nat × Nat)) (on : Bool) : Mod :=
  { s with mem := { s.mem with pages := s.mem.pages.map fun k e =>
      if k / 2 ^ 27 = p ∧ (ranges.any fun r => meets r.1 r.2 (k % 2 ^ 27 * 2 ^ 21) (2 ^ 21)) then { e with cow := on } else e } }

/-- The pages of ranges, as physical pages. -/
def Mod.rangePages (s : Mod) (p : Nat) (ranges : List (Nat × Nat)) : List Nat :=
  dedup (ranges.flatMap fun r => (List.range (r.2 / 65536)).filterMap fun i => (s.page p (r.1 + 65536 * i)).map PageEnt.id)

/-- A checkpoint is taken at sluice f: its head is written, its sub-blocks become pending, and its command completes with f (R338, R393, R394). -/
def Mod.takeCkpt (f : Nat) (s : Mod) (t : Nat × Nat) : Mod :=
  match s.cq.cmds.find? fun c => !c.mgmt && c.qn == t.1 && c.seq == t.2 with
  | none => s
  | some c =>
    let ranges := takeRanges c.params
    let n := c.w 16 % 65536
    match s.obj c.pol n with
    | none => s.conclude t.1 t.2 f 0x56 0
    | some o =>
      let s := s.writeNow c.pol (wcells o.base (s.ckptHead c.pol f ranges))
      let m := spanOf (2 + s.moveFrames c.pol (s.rangePages c.pol ranges)) (2 :: f :: c.words.map (·.toNat))
      let s := { s with mem := { s.mem with ckpts := s.mem.ckpts ++ [(Ckpt.mk c.pol n ranges f [] m)] } }
      (s.markCow c.pol ranges true).conclude t.1 t.2 f 0x00 f

/-- The polder of a waiting CKPT_TAKE. -/
def Mod.takePol (s : Mod) (t : Nat × Nat) : Option Nat := (s.cq.cmds.find? fun c => !c.mgmt && c.qn == t.1 && c.seq == t.2).map (·.pol)

/-- The checkpoints that wait for sluice f of a polder are taken (R338). -/
def Mod.takeCkpts (s : Mod) (p f : Nat) : Mod :=
  let mine := s.ue.takes.filter fun t => s.takePol t == some p
  mine.foldl (Mod.takeCkpt f) { s with ue := { s.ue with takes := s.ue.takes.filter fun t => !(mine.any (· == t)) } }

/-- Whether a polder has a step open or a loop running. -/
def Mod.stepping (s : Mod) (p : Nat) : Bool := (s.ue.steps.get p).isSome || (s.ue.loops.get p).isSome

/-- Polders without a step or a loop take their checkpoints at the sluice itself (R338). -/
def Mod.takeIdle (s : Mod) (f : Nat) : Mod := (List.range s.polders).foldl (fun s p => if s.stepping p then s else s.takeCkpts p f) s

/-- A checkpoint of a polder that is whole at the sluice that is being taken (R394). -/
def Mod.wholeCkpt (s : Mod) (p : Nat) : Option Ckpt := if s.sluiceB.isNone then none else s.mem.ckpts.find? fun k => k.pol == p && k.copied.length == k.subs.length

/-- CHECKPOINT_COMPLETE: STATE is COMPLETE and the pages' COW marks end (R394). -/
def Mod.completeCkpt (s : Mod) (p : Nat) : Mod :=
  match s.wholeCkpt p with
  | none => s
  | some k =>
    let s := s.putHead p k.obj 0 (k.ranges.length * 256 + 1)
    let s := { s with mem := { s.mem with ckpts := s.mem.ckpts.filter fun x => x != k } }
    let s := s.markCow p k.ranges false
    (s.mem.ckpts.filter (·.pol == p)).foldl (fun s x => s.markCow p x.ranges true) s

/-! ## Draining (R395) -/

/-- CKPT_DRAIN: OBJECT, HOST, RSV. -/
def blkCkptDrain (_ : Mod) (_ : Nat) (ps : List Word) : Chk Unit := do
  lenChk ps 20
  rsvChk ps [.w 0 0xFFFF0000, .w 4 0xFFFFFFFF, .w 16 0xFFFFFFFF]

/-- CKPT_DRAIN sends a COMPLETE checkpoint from DRAINED on, or from 0 for another host address; DRAINED advances with each frame (R395). -/
def planCkptDrain (s : Mod) (c : Ctx) (ps : List Word) : Chk Plan := do
  let n := pw ps 0
  match s.obj c.pol n, s.cq.cmds.find? fun x => x.ord == c.ord && !x.mgmt with
  | some o, some x =>
    let h (off : Nat) := s.getN c.pol (o.base + off) 8
    ensure (o.tier == 1 && h 0 % 4 == 1) 0x56 (detailAt 0)
    let all := h 0x18 + 65536
    let host := pq ps 8
    let from_ := if h 0x28 < all ∧ h 0x30 = host then h 0x28 else 0
    let k := ceilDiv (all - from_) 64
    let head (off v : Nat) : Eff := .mem c.pol (wcells (o.base + off) (leBytes v 8))
    .ok { s.hostPlan (rankMe 0 0) (all - from_) with
          units := head 0x30 host :: (List.range k).flatMap fun i =>
            [.toHost c.pol c.fn x.qn x.seq (o.base + from_ + 64 * i) (host + from_ + 64 * i) (min 64 (all - from_ - 64 * i)), head 0x28 (min all (from_ + 64 * (i + 1)))] }
  | _, _ => .error (0x56, detailAt 0)

/-- CKPT_DRAIN (R395). -/
def execCkptDrain (c : CmdId) (s : State) : Host.Outcome State Fault Refusal := 
  s.when (s.m.granted c 0x6005 && s.m.canSend c planCkptDrain) (s.m.runCmd c planCkptDrain)

/-! ## Restoring (R396) -/

/-- The status of the last restore of a polder. -/
def Mod.failRestore (s : Mod) (p err : Nat) : Mod :=
  (((s.setFld .ME_CKPT_STATUS_BUSY p 0).setFld .ME_CKPT_STATUS_LAST_ERR p err).raiseNow .ME_CKPT_STATUS_FAIL p)

/-- A committed GO starts copying a COMPLETE checkpoint back (R396); a restore that runs goes on (log entry 41). -/
def Mod.beginRestore (s : Mod) (p obj f : Nat) : Mod :=
  if s.mem.restores.any (·.pol == p) then s
  else if s.stepping p then s.failRestore p 0x22
  else match s.obj p obj with
    | none => s.failRestore p 0x56
    | some o =>
      if o.tier ≠ 1 ∨ s.getN p o.base 1 % 4 ≠ 1 then s.failRestore p 0x56 else
      let n := s.getN p (o.base + 1) 1
      let ranges := (List.range n).map fun i => (s.getN p (o.base + 0x100 + 16 * i) 8, s.getN p (o.base + 0x108 + 16 * i) 8)
      let m := spanOf (2 + s.moveFrames p (s.rangePages p ranges)) [3, f, p, obj]
      { s with mem := { s.mem with restores := s.mem.restores ++ [(Restore.mk p obj 0 f m)] } }.setFld .ME_CKPT_STATUS_BUSY p 1

/-- The ranges of a checkpoint head in memory (R393). -/
def Mod.headRanges (s : Mod) (p base : Nat) : List (Nat × Nat) :=
  (List.range (s.getN p (base + 1) 1)).map fun i => (s.getN p (base + 0x100 + 16 * i) 8, s.getN p (base + 0x108 + 16 * i) 8)

/-- The sub-blocks of a restore that are copied by sluice f, as its pace has them (log entry 19). -/
def Restore.upTo (r : Restore) (n f : Nat) : Nat := min n (n * (f - r.began) / max 1 r.span)

/-- A restore copies its next sub-blocks at sluice f, as writes of a migration engine; one whose range lies in no object, or in a read-only one, fails it
(R46, R396, R507; log entry 87). -/
def Mod.paceRestore (s : Mod) (f : Nat) (r : Restore) : Mod × List Staged :=
  let ended := { s with mem := { s.mem with restores := s.mem.restores.filter (·.pol != r.pol) } }
  match s.obj r.pol r.obj with
  | none => (ended.failRestore r.pol 0x56, [])
  | some o =>
    let subs := (s.headRanges r.pol o.base).flatMap fun x => (List.range (x.2 / 65536)).map fun j => x.1 + 65536 * j
    let hi := r.upTo subs.length f
    let now := (List.range (hi - r.copied)).map (· + r.copied)
    if !(now.all fun i => s.mapped r.pol (subs.getD i 0) 65536) then (ended.failRestore r.pol 0x16, [])
    else if now.any fun i => s.readonly r.pol (subs.getD i 0) 65536 then (ended.failRestore r.pol 0x14, [])
    else
      let rank := rankMe (((s.diesOf r.pol).head?).getD 0) 0
      ({ s with mem := { s.mem with restores := s.mem.restores.map fun x => if x.pol = r.pol then { r with copied := hi } else x } },
        now.map fun i => ⟨rank, none, none, .copyRange r.pol (o.base + 65536 + 65536 * i) (subs.getD i 0) 65536⟩)

/-- A restore of a polder whose ranges are all copied. -/
def Mod.wholeRestore (s : Mod) (p : Nat) : Option (Restore × Obj) :=
  (s.mem.restores.find? (·.pol == p)).bind fun r => (s.obj p r.obj).bind fun o =>
    if r.copied = ((s.headRanges p o.base).map fun x => x.2 / 65536).sum ∧ (s.sluiceB.any fun f => decide (r.began + r.span ≤ f)) then some (r, o) else none

/-- A slot takes its image (R393, R396). -/
def Mod.loadSlot (s : Mod) (n img : Nat) : Mod :=
  ((s.setFld .GS_CTRL_FMT n (bits img 15 12)).setFld .GS_BASE_NARROW_RUN n (bits img 11 8)).setFld .GS_BASE_BASE n (bits img 7 0)

/-- RESTORE_COMPLETE loads the images of the polder's enabled groups and slots, and UE_STEP (R396). -/
def Mod.endRestore (s : Mod) (p : Nat) : Mod :=
  match s.wholeRestore p with
  | none => s
  | some (_, o) =>
    let word (off : Nat) : Word := BitVec.ofNat 32 (s.getN p (o.base + off) 4)
    let s := (List.range 4096).foldl (fun s g =>
      if s.fld .UE_GROUP_CTRL_POLDER g = p ∧ s.bit .UE_GROUP_CTRL_ENABLE g then
        (((s.put .UE_GROUP_B1POW g (word (0x1000 + 12 * g))).put .UE_GROUP_B2POW g (word (0x1004 + 12 * g))).put .UE_GROUP_STEPS g (word (0x1008 + 12 * g))).setFld
          .UE_GROUP_LRX_LRX g (s.getB p (o.base + 0xD000 + g)).toNat
      else s) s
    let s := (List.range 4096).foldl (fun s n => if s.slotUsable p n then s.loadSlot n (s.getN p (o.base + 0xE000 + 2 * n) 2) else s) s
    let s := s.putPair .UE_STEP_LO .UE_STEP_HI p (s.getN p (o.base + 0x10) 8)
    let s := { s with mem := { s.mem with restores := s.mem.restores.filter (·.pol != p) } }
    (s.setFld .ME_CKPT_STATUS_BUSY p 0).raiseNow .ME_CKPT_STATUS_DONE p

end Sys2Proof.Machine
end

