-- ==== Sys2Proof/Machine/Crypto.lean ====
section
/-! DEFINITION. The published algorithms that the module conforms to by name (00_scope.md R21): SHA-384 and the opening side of AES-256-GCM. -/

namespace Sys2Proof.Machine

/-! ## SHA-384 -/

/-- The round constants of SHA-384: the first 64 fraction bits of the cube roots of the first 80 primes, the first half (log entry 9). -/
def shaK0 : List (BitVec 64) :=
  [ 0x428A2F98D728AE22#64, 0x7137449123EF65CD#64, 0xB5C0FBCFEC4D3B2F#64, 0xE9B5DBA58189DBBC#64, 0x3956C25BF348B538#64,
    0x59F111F1B605D019#64, 0x923F82A4AF194F9B#64, 0xAB1C5ED5DA6D8118#64, 0xD807AA98A3030242#64, 0x12835B0145706FBE#64,
    0x243185BE4EE4B28C#64, 0x550C7DC3D5FFB4E2#64, 0x72BE5D74F27B896F#64, 0x80DEB1FE3B1696B1#64, 0x9BDC06A725C71235#64,
    0xC19BF174CF692694#64, 0xE49B69C19EF14AD2#64, 0xEFBE4786384F25E3#64, 0x0FC19DC68B8CD5B5#64, 0x240CA1CC77AC9C65#64,
    0x2DE92C6F592B0275#64, 0x4A7484AA6EA6E483#64, 0x5CB0A9DCBD41FBD4#64, 0x76F988DA831153B5#64, 0x983E5152EE66DFAB#64,
    0xA831C66D2DB43210#64, 0xB00327C898FB213F#64, 0xBF597FC7BEEF0EE4#64, 0xC6E00BF33DA88FC2#64, 0xD5A79147930AA725#64,
    0x06CA6351E003826F#64, 0x142929670A0E6E70#64, 0x27B70A8546D22FFC#64, 0x2E1B21385C26C926#64, 0x4D2C6DFC5AC42AED#64,
    0x53380D139D95B3DF#64, 0x650A73548BAF63DE#64, 0x766A0ABB3C77B2A8#64, 0x81C2C92E47EDAEE6#64, 0x92722C851482353B#64 ]

/-- The round constants, the second half. -/
def shaK1 : List (BitVec 64) :=
  [ 0xA2BFE8A14CF10364#64, 0xA81A664BBC423001#64, 0xC24B8B70D0F89791#64, 0xC76C51A30654BE30#64, 0xD192E819D6EF5218#64,
    0xD69906245565A910#64, 0xF40E35855771202A#64, 0x106AA07032BBD1B8#64, 0x19A4C116B8D2D0C8#64, 0x1E376C085141AB53#64,
    0x2748774CDF8EEB99#64, 0x34B0BCB5E19B48A8#64, 0x391C0CB3C5C95A63#64, 0x4ED8AA4AE3418ACB#64, 0x5B9CCA4F7763E373#64,
    0x682E6FF3D6B2B8A3#64, 0x748F82EE5DEFB2FC#64, 0x78A5636F43172F60#64, 0x84C87814A1F0AB72#64, 0x8CC702081A6439EC#64,
    0x90BEFFFA23631E28#64, 0xA4506CEBDE82BDE9#64, 0xBEF9A3F7B2C67915#64, 0xC67178F2E372532B#64, 0xCA273ECEEA26619C#64,
    0xD186B8C721C0C207#64, 0xEADA7DD6CDE0EB1E#64, 0xF57D4F7FEE6ED178#64, 0x06F067AA72176FBA#64, 0x0A637DC5A2C898A6#64,
    0x113F9804BEF90DAE#64, 0x1B710B35131C471B#64, 0x28DB77F523047D84#64, 0x32CAAB7B40C72493#64, 0x3C9EBE0A15C9BEBC#64,
    0x431D67C49C100D4C#64, 0x4CC5D4BECB3E42B6#64, 0x597F299CFC657E2A#64, 0x5FCB6FAB3AD6FAEC#64, 0x6C44198C4A475817#64 ]

/-- The chaining value of the eight working words. -/
structure ShaState where
  a : BitVec 64
  b : BitVec 64
  c : BitVec 64
  d : BitVec 64
  e : BitVec 64
  f : BitVec 64
  g : BitVec 64
  h : BitVec 64
  deriving DecidableEq, Repr

/-- The initial value of SHA-384: the first 64 fraction bits of the square roots of the ninth to sixteenth primes. -/
def shaInit : ShaState :=
  ⟨0xCBBB9D5DC1059ED8#64, 0x629A292A367CD507#64, 0x9159015A3070DD17#64, 0x152FECD8F70E5939#64,
    0x67332667FFC00B31#64, 0x8EB44A8768581511#64, 0xDB0C2E0D64F98FA7#64, 0x47B5481DBEFA4FA4#64⟩

/-- One round with a constant and a message word. -/
def ShaState.round (s : ShaState) (k w : BitVec 64) : ShaState :=
  let s1 := s.e.rotateRight 14 ^^^ s.e.rotateRight 18 ^^^ s.e.rotateRight 41
  let ch := (s.e &&& s.f) ^^^ (~~~s.e &&& s.g)
  let t1 := s.h + s1 + ch + k + w
  let s0 := s.a.rotateRight 28 ^^^ s.a.rotateRight 34 ^^^ s.a.rotateRight 39
  let maj := (s.a &&& s.b) ^^^ (s.a &&& s.c) ^^^ (s.b &&& s.c)
  ⟨t1 + (s0 + maj), s.a, s.b, s.c, s.d + t1, s.e, s.f, s.g⟩

/-- The next word of the message schedule from the sixteen before it. -/
def shaNext (w : List (BitVec 64)) : BitVec 64 :=
  let x := w.getD 1 0
  let y := w.getD 14 0
  (y.rotateRight 19 ^^^ y.rotateRight 61 ^^^ (y >>> 6)) + w.getD 9 0 + (x.rotateRight 1 ^^^ x.rotateRight 8 ^^^ (x >>> 7)) + w.getD 0 0

/-- The rounds of a block: the window of sixteen schedule words moves on with every round. -/
def shaRounds (ks : List (BitVec 64)) (s : ShaState) (w : List (BitVec 64)) : ShaState :=
  match ks with
  | [] => s
  | k :: ks => shaRounds ks (s.round k (w.getD 0 0)) (w.drop 1 ++ [shaNext w])

/-- A big-endian number from its bytes. -/
def beNat (bs : List Byte) : Nat := leNat bs.reverse

/-- Bytes of a number, most significant first. -/
def msbBytes (v n : Nat) : List Byte := (leBytes v n).reverse

/-- A 128-byte block is compressed into the chaining value. -/
def ShaState.block (s : ShaState) (bs : List Byte) : ShaState :=
  let w := (List.range 16).map fun i => BitVec.ofNat 64 (beNat ((bs.drop (8 * i)).take 8))
  let t := shaRounds (shaK0 ++ shaK1) s w
  ⟨s.a + t.a, s.b + t.b, s.c + t.c, s.d + t.d, s.e + t.e, s.f + t.f, s.g + t.g, s.h + t.h⟩

/-- n blocks of a message are compressed in turn. -/
def ShaState.blocks (s : ShaState) (bs : List Byte) : Nat → ShaState
  | 0 => s
  | n + 1 => (s.block (bs.take 128)).blocks (bs.drop 128) n

/-- A message padded to whole blocks: one 1 bit, zeros, and the message's length in bits as 16 bytes. -/
def shaPad (bs : List Byte) : List Byte :=
  bs ++ [0x80] ++ List.replicate ((239 - bs.length % 128) % 128) 0 ++ msbBytes (8 * bs.length) 16

/-- SHA-384 of a byte string, as a 384-bit number whose most significant byte is the digest's first (log entry 9). -/
def sha384 (bs : List Byte) : BitVec 384 :=
  let m := shaPad bs
  let s := shaInit.blocks m (m.length / 128)
  s.a ++ s.b ++ s.c ++ s.d ++ s.e ++ s.f

/-! ## AES-256 -/

/-- The product in GF(2^8) modulo x^8 + x^4 + x^3 + x + 1. -/
def gfMul (a b : Byte) : Byte :=
  ((List.range 8).foldl (fun (r : Byte × Byte) i =>
    (if b.getLsbD i then r.1 ^^^ r.2 else r.1, if r.2.getLsbD 7 then (r.2 <<< 1) ^^^ 0x1B#8 else r.2 <<< 1)) (0, a)).1

/-- The inverse in GF(2^8), zero for zero: the 254th power, the product of seven squares. -/
def gfInv (a : Byte) : Byte :=
  ((List.range 7).foldl (fun (r : Byte × Byte) _ => let q := gfMul r.2 r.2; (gfMul r.1 q, q)) (1, a)).1

/-- The S-box: the affine image of the inverse. -/
def aesSub (a : Byte) : Byte :=
  let x := gfInv a
  x ^^^ x.rotateLeft 1 ^^^ x.rotateLeft 2 ^^^ x.rotateLeft 3 ^^^ x.rotateLeft 4 ^^^ 0x63#8

/-- Two byte strings added bit by bit. -/
def xorBytes (a b : List Byte) : List Byte := List.zipWith (· ^^^ ·) a b

/-- The next word of the key schedule, the i-th, from the words before it, newest first: every eighth is rotated, substituted and given its round's constant, the
fourth of each eight is substituted. -/
def aesNextWord (i : Nat) (ws : List (List Byte)) : List Byte :=
  let t := ws.getD 0 []
  let t :=
    if i % 8 = 0 then xorBytes ((t.drop 1 ++ t.take 1).map aesSub) [1#8 <<< (i / 8 - 1), 0, 0, 0]
    else if i % 8 = 4 then t.map aesSub else t
  xorBytes (ws.getD 7 []) t

/-- The fifteen round keys of a 256-bit key. -/
def aesKeys (key : List Byte) : List (List Byte) :=
  let ws := (List.range 8).map fun i => (key.drop (4 * i)).take 4
  let all := ((List.range 52).foldl (fun r i => aesNextWord (i + 8) r :: r) ws.reverse).reverse
  (List.range 15).map fun n => ((all.drop (4 * n)).take 4).flatten

/-- Rows are shifted: the byte of row r and column c comes from column c + r. -/
def aesShift (s : List Byte) : List Byte := (List.range 16).map fun i => s.getD ((i + 4 * (i % 4)) % 16) 0

/-- Columns are mixed. -/
def aesMix (s : List Byte) : List Byte :=
  (List.range 16).map fun i =>
    let at_ (k : Nat) : Byte := s.getD (i / 4 * 4 + (i + k) % 4) 0
    gfMul 2 (at_ 0) ^^^ gfMul 3 (at_ 1) ^^^ at_ 2 ^^^ at_ 3

/-- The rounds of a block with their keys; the last one mixes no columns. -/
def aesRounds (ks : List (List Byte)) (s : List Byte) : List Byte :=
  match ks with
  | [] => s
  | [k] => xorBytes (aesShift (s.map aesSub)) k
  | k :: ks => aesRounds ks (xorBytes (aesMix (aesShift (s.map aesSub))) k)

/-- A 16-byte block under a 256-bit key's round keys. -/
def aesBlock (ks : List (List Byte)) (b : List Byte) : List Byte := aesRounds (ks.drop 1) (xorBytes b (ks.getD 0 []))

/-! ## Galois/Counter Mode -/

/-- The product in GF(2^128) of GCM, the first bit of a block being its most significant. -/
def ghashMul (x y : BitVec 128) : BitVec 128 :=
  ((List.range 128).foldl (fun (r : BitVec 128 × BitVec 128) i =>
    (if x.getMsbD i then r.1 ^^^ r.2 else r.1, if r.2.getLsbD 0 then (r.2 >>> 1) ^^^ ((0xE1#128) <<< 120) else r.2 >>> 1)) (0, y)).1

/-- A byte string filled with zeros to whole blocks. -/
def pad16 (bs : List Byte) : List Byte := bs ++ List.replicate ((16 - bs.length % 16) % 16) 0

/-- n blocks of a string hashed under h. -/
def ghash (h y : BitVec 128) (bs : List Byte) : Nat → BitVec 128
  | 0 => y
  | n + 1 => ghash h (ghashMul (y ^^^ BitVec.ofNat 128 (beNat (bs.take 16))) h) (bs.drop 16) n

/-- n blocks of counter mode from counter c on. -/
def gcmCtr (ks : List (List Byte)) (iv bs : List Byte) (c : Nat) : Nat → List Byte
  | 0 => []
  | n + 1 => xorBytes (bs.take 16) (aesBlock ks (iv ++ msbBytes c 4)) ++ gcmCtr ks iv (bs.drop 16) (c + 1) n

/-- The tag of a ciphertext and its additional data under a 96-bit IV. -/
def gcmTag (ks : List (List Byte)) (iv aad ct : List Byte) : List Byte :=
  let h := BitVec.ofNat 128 (beNat (aesBlock ks (List.replicate 16 0)))
  let m := pad16 aad ++ pad16 ct ++ msbBytes (8 * aad.length) 8 ++ msbBytes (8 * ct.length) 8
  xorBytes (msbBytes (ghash h 0 m (m.length / 16)).toNat 16) (aesBlock ks (iv ++ msbBytes 1 4))

/-- AES-256-GCM opened: key, 96-bit IV, additional data, ciphertext and 128-bit tag; the plaintext, or none where the tag does not check (log entry 9). -/
def gcmOpen (key iv aad ct tag : List Byte) : Option (List Byte) :=
  let ks := aesKeys key
  if gcmTag ks iv aad ct = tag then some (gcmCtr ks iv ct 2 ((ct.length + 15) / 16)) else none

end Sys2Proof.Machine
end

