-- ==== Sys2Proof/Machine/Obs.lean ====
section
/-! DEFINITION. Debug commands: DBG_READ, the trace's control, breakpoints (11_command_reference.md R343, 16_observability.md R441 to R452). -/

namespace Sys2Proof.Machine

/-! ## DBG_READ (R343) -/

/-- The bytes of each space that DBG_READ reads: tile SRAM (R186), accumulator buffer (R191), page entries, per-channel banks (R104). -/
def dbgSize (space : Nat) : Nat :=
  match space with
  | 0 => 0x300000
  | 1 => 0x40000
  | 2 => 2 ^ 48
  | _ => 0x4000

/-- DBG_READ: SPACE, DIE and TILE, OFFSET, BYTES, DEST; the range lies in its space (log entry 44). -/
def blkDbgRead (s : Mod) (pol : Nat) (ps : List Word) : Chk Unit := do
  lenChk ps 32
  rsvChk ps [.w 0 0xFFFFFFF8, .w 4 0x00FFFFFF, .addr 8, .w 0x14 0xFFFFFFFF, .addr 0x18]
  s.tileChk pol ps 4
  let space := pw ps 0
  let n := pw ps 0x10
  ensure (decide (space ≤ 3)) 0x04 (detailAt 0)
  ensure (decide (4 ≤ n ∧ n ≤ 4096) && n % 4 == 0) 0x04 (detailAt 0x10)
  ensure (decide (pq ps 8 + (if space = 2 then n * 2 ^ 18 else n) ≤ dbgSize space)) 0x04 (detailAt 8)

/-- A page entry as R222 lays it out; one that maps nothing reads 0. -/
def pageWord (e : Option PageEnt) : Nat :=
  match e with
  | none => 0
  | some e => 2 ^ 63 + e.tier * 2 ^ 62 + (if e.migrating then 2 ^ 61 else 0) + (if e.readonly then 2 ^ 60 else 0) + (if e.cow then 2 ^ 59 else 0)
      + (if e.retire then 2 ^ 58 else 0) + e.obj * 2 ^ 38 + e.frame

/-- A word of a tile's per-channel banks, in their order in BAR0 (R104). -/
def Mod.pcsWord (s : Mod) (tile k : Nat) : Nat :=
  let i := tile * 256 + k / 16
  match k % 16 with
  | 0 => (s.rd .EX_PCS_CTRL i).toNat
  | 1 => (s.rd .EX_PCS_SCALE i).toNat
  | j => if j < 10 then (s.rd .EX_PCS_TABLE (i * 8 + (j - 2))).toNat else 0

/-- Bytes of a debug space, as committed (R343). -/
def Mod.dbgBytes (s : Mod) (pol space tile off n : Nat) : List Byte :=
  match space with
  | 0 => (List.range n).map fun i => s.sramB tile (off + i)
  | 1 => (List.range n).map fun i => BitVec.ofNat 8 ((s.tile.acb.getD (tile * 65536 + (off + i) / 4) 0).toNat / 256 ^ ((off + i) % 4))
  | 2 => ((List.range (ceilDiv n 8)).flatMap fun i => leBytes (pageWord (s.page pol ((off / 2 ^ 21 + i) * 2 ^ 21))) 8).take n
  | _ => (List.range n).map fun i => BitVec.ofNat 8 (s.pcsWord tile ((off + i) / 4) / 256 ^ ((off + i) % 4))

/-- DBG_READ copies committed values to DEST; a die whose clock is stopped does not answer (R343, R379). -/
def planDbgRead (s : Mod) (c : Ctx) (ps : List Word) : Chk Plan := do
  let d := bits (pw ps 4) 31 30
  s.destChk c.pol (pq ps 0x18) (pw ps 0x10) 0x18
  ensure (!s.dieDown d) (stallCode d) noDetail
  .ok { resultPlan c (pq ps 0x18) (s.dbgBytes c.pol (pw ps 0) (ctrlTile (pw ps 4)) (pq ps 8) (pw ps 0x10)) with
        note := if pw ps 0 = 2 then 0 else noteTiles [ctrlTile (pw ps 4)] }

/-- DBG_READ (R343). -/
def execDbgRead (c : CmdId) (s : State) : Host.Outcome State Fault Refusal := s.when (s.m.granted c 0xF000) (s.m.runCmd c planDbgRead)

/-! ## TRACE_CTRL (R446) -/

/-- TRACE_CTRL: OP; for CONFIGURE every field, for the others OP alone is read. -/
def blkTraceCtrl (_ : Mod) (_ : Nat) (ps : List Word) : Chk Unit := do
  lenChk ps 32
  let op := bits (pw ps 0) 26 24
  ensure (decide (op ≤ 3)) 0x04 (detailAt 0)
  if op = 0 then do
    rsvChk ps [.w 0 0xF8FFFF0C, .w 4 0xFFFF0000, .addr 8, .w 0x10 0xFFFFFFE0, .w 0x18 0xFFFFFF00, .w 0x1C 0xFFFFFFFF]
    ensure (pw ps 0 % 4 != 0) 0x04 (detailAt 0)
    ensure (pq ps 8 % 64 == 0) 0x04 (detailAt 8)
    ensure (decide (10 ≤ pw ps 0x10 ∧ pw ps 0x10 ≤ 26)) 0x04 (detailAt 0x10)
    ensure (decide (pw ps 0x14 < 2 ^ pw ps 0x10)) 0x04 (detailAt 0x14)
  else .ok ()

/-- TRACE_CTRL: the buffer of a CONFIGURE lies in one writable object of the polder that is no WINDOW object (R441, R446). -/
def planTraceCtrl (src : Nat) (s : Mod) (c : Ctx) (ps : List Word) : Chk Plan := do
  let w := pw ps 0
  let op := bits w 26 24
  let n := pw ps 0x10
  if op = 0 then ensure (match s.objHolding c.pol (pq ps 8) (32 * 2 ^ n) with
    | some (_, o) => !o.readonly && !o.window
    | none => false) 0x04 (detailAt 8) else .ok ()
  .ok (.ok 0 none [.trace c.pol op src (w % 4) (bits w 7 4) (pw ps 0x18 % 256) (pw ps 4 % 65536) (pq ps 8) n (pw ps 0x14)] 1)

/-- Run a TRACE_CTRL. -/
def Mod.runTrace (s : Mod) (c : CmdId) : Mod := s.runCmd c (planTraceCtrl (srcQueue c.q))

/-- Whether a TRACE_CTRL of this OP may run now. -/
def Mod.traceReady (s : Mod) (c : CmdId) (op : Nat) : Bool :=
  s.granted c 0xF001 && bits (pw (match s.cmd c with
    | some x => x.params
    | none => []) 0) 26 24 == op

/-- CONFIGURE (R446). -/
def execConfigure (c : CmdId) (s : State) : Host.Outcome State Fault Refusal := s.when (s.m.traceReady c 0) (s.m.runTrace c)

/-- START (R446). -/
def execStart (c : CmdId) (s : State) : Host.Outcome State Fault Refusal := s.when (s.m.traceReady c 1) (s.m.runTrace c)

/-- STOP (R446). -/
def execStop (c : CmdId) (s : State) : Host.Outcome State Fault Refusal := s.when (s.m.traceReady c 2) (s.m.runTrace c)

/-- TRIGGER (R445). -/
def execTrigger (c : CmdId) (s : State) : Host.Outcome State Fault Refusal := s.when (s.m.traceReady c 3) (s.m.runTrace c)

/-- A trace without a buffer. -/
def Trace.off : Trace := ⟨0, 1, 0, 0, 0, 0, 10, 0, 0, 0, none, 0, 0, 0, [], none⟩

/-- CONFIGURE, START and STOP at sluice f, after the frame's records (R446). A START without a buffer, and a STOP of what does not run, change nothing; after a
freeze or a stop the record number starts at 0 again (log entry 45). -/
def Mod.traceOp (f : Nat) (s : Mod) (e : Eff) : Mod :=
  match e with
  | .trace p op _ mode trig code mask base n pre =>
    let t := s.ob.traces.getD p .off
    match op with
    | 0 => s.setTrace p { Trace.off with state := 1, mode := mode, trig := trig, code := code, mask := mask, base := base, n := n, pre := pre, frame := f }
    | 1 => if t.state = 0 then s else
      if t.state ≤ 2 then s.setTrace p { t with state := 2, start := t.next, freeze := none }
      else s.setTrace p { t with state := 2, next := 0, start := 0, freeze := none }
    | 2 => if t.state = 2 then s.setTrace p { t with state := 3 } else s
    | _ => s
  | _ => s

/-! ## Breakpoints (R447 to R452) -/

/-- BREAK_SET: its block; the die and the weir are the polder's, and a hub command processor is named with one polder alone (R452). -/
def blkBreakSet (s : Mod) (pol : Nat) (ps : List Word) : Chk Unit := do
  lenChk ps 16
  rsvChk ps [.w 0 0xFFFFFF18, .w 4 0x003FFFFC, .w 0xC 0xFFFFFFFF]
  let core := bits (pw ps 4) 23 22
  let d := bits (pw ps 4) 31 30
  ensure (decide (core ≤ 2)) 0x04 (detailAt 4)
  ensure (s.dieOf d == pol) 0x04 (detailAt 4)
  ensure (core != 0 || s.polders == 1) 0x04 (detailAt 4)
  ensure (core != 2 || decide (bits (pw ps 4) 29 24 < s.tilesOn d)) 0x04 (detailAt 4)
  if (pw ps 0).testBit 5 then
    ensure (decide (pw ps 8 < 16384) && s.fld .WEIR_CTRL_POLDER (pw ps 8) == pol) 0x04 (detailAt 8)
  else ensure (pw ps 8 % 8 == 0) 0x04 (detailAt 8)

/-- BREAK_SET installs, replaces or removes a breakpoint at sluice e. -/
def planBreakSet (_ : Mod) (c : Ctx) (ps : List Word) : Chk Plan :=
  let w := pw ps 0
  let k := pw ps 4
  let b : Brk := { core := bits k 23 22, die := bits k 31 30, tile := bits k 29 24, index := k % 4, polder := w.testBit 6, weir := w.testBit 5, value := pw ps 8 }
  .ok (.ok 0 none [.brkSet c.pol (w % 8) (if w.testBit 7 then some b else none)] 1)

/-- BREAK_SET (R452). -/
def execBreakSet (c : CmdId) (s : State) : Host.Outcome State Fault Refusal := s.when (s.m.granted c 0xF002) (s.m.runCmd c planBreakSet)

/-- BREAK_RESUME: its block. -/
def blkBreakResume (_ : Mod) (_ : Nat) (ps : List Word) : Chk Unit := do
  lenChk ps 4
  rsvChk ps [.w 0 0xFFFFFE00]

/-- The halts of a polder that a mask of breakpoints names and that hold in this frame. -/
def Mod.haltsOf (s : Mod) (p ids : Nat) : List Halt := s.ob.halted.filter fun h => h.key / 8 == p && ids.testBit (h.key % 8) && decide (h.at_ ≤ s.fc.num)

/-- BREAK_RESUME; with no halted core named it completes with OK_EMPTY (R451). -/
def planBreakResume (s : Mod) (c : Ctx) (ps : List Word) : Chk Plan :=
  let ids := pw ps 0 % 256
  .ok (if (s.haltsOf c.pol ids).isEmpty then .empty [] else .ok 0 none [.brkResume c.pol ids ((pw ps 0).testBit 8)] 1)

/-- BREAK_RESUME (R451). -/
def execBreakResume (c : CmdId) (s : State) : Host.Outcome State Fault Refusal := s.when (s.m.granted c 0xF003) (s.m.runCmd c planBreakResume)

/-- A breakpoint is installed or removed; a core that it halted stays halted (R452). -/
def Mod.setBrk (s : Mod) (p id : Nat) (b : Option Brk) : Mod :=
  { s with ob := { s.ob with brks := match b with
    | some b => s.ob.brks.set (p * 8 + id) b
    | none => s.ob.brks.del (p * 8 + id) } }

/-- Halted cores resume in the frame after sluice e, with SINGLE for one program frame (R451). -/
def Mod.resumeBrk (s : Mod) (p ids : Nat) (single : Bool) : Mod :=
  let hs := s.haltsOf p ids
  let again := if single then hs.map fun h => { h with at_ := s.fc.num + 2, others := s.fc.num + 2 } else []
  { s with ob := { s.ob with halted := s.ob.halted.filter (fun h => !hs.any (· == h)) ++ again } }

/-- A frame in which a program's cores are halted does not count: its last frame moves on, and with it the frames of its command (R448, R451). -/
def Mod.haltFrame (s : Mod) : Mod :=
  let hs := (s.ue.running.filter fun p => s.halted p && !p.ended).map fun p => { p with halted := p.halted + 1 }
  let mine (c : Cmd) : Option Prog := hs.find? fun p => match p.runner with
    | .cmd i => !c.mgmt && i.q.val == c.qn && i.seq.toNat == c.seq
    | .step _ _ => false
  let late (c : Cmd) : Cmd := match mine c, c.phase with
    | some p, .running => { c with first := c.first + 1, fin := p.last }
    | _, _ => c
  { s with ue := { s.ue with running := s.ue.running.map fun p => (hs.find? fun q => q.runner == p.runner).getD p }
           cq := { s.cq with cmds := s.cq.cmds.map late } }

/-- The programs whose cores a breakpoint names: those of the core's die, in POLDER scope all of the polder's. -/
def Mod.brkProgs (s : Mod) (p : Nat) (b : Brk) (f : Nat) : List Prog :=
  s.ue.running.filter fun r => r.pol == p && decide (r.first ≤ f ∧ f < r.first + r.frames + r.halted) && (b.polder || (b.core != 0 && has r.dies b.die))

/-- The source of a BREAK record: the named core. -/
def Brk.src (b : Brk) : Nat :=
  match b.core with
  | 0 => 7 * 65536 + b.index
  | 1 => b.die * 2 ^ 22 + 65536 + b.index
  | _ => b.die * 2 ^ 22 + b.tile

/-- Whether a breakpoint's condition may be met now: a PC in the frame that runs, a weir that released at the sluice that is being taken (R447). -/
def Mod.brkReady (s : Mod) (p id : Nat) : Bool :=
  match s.ob.brks.get (p * 8 + id) with
  | none => false
  | some b =>
    if b.weir then s.sluiceB.isSome && has s.wr.released b.value && !has s.ob.hits (p * 8 + id)
    else s.inFrame && !(s.ob.halted.any fun h => h.key == p * 8 + id && decide (h.at_ ≤ s.fc.num))
      && (if b.core = 0 then s.polders == 1 else !(s.brkProgs p { b with polder := false } s.fc.num).isEmpty)

/-- Whether the condition meets step work alone on the named core: programs, or commands of a hub command processor (R450). -/
def Mod.brkStep (s : Mod) (p : Nat) (b : Brk) (f : Nat) : Bool :=
  if b.core = 0 then s.cq.cmds.any fun c => c.step && !c.mgmt && c.qn % 4 == b.index && c.phase == .running
  else
    let l := s.brkProgs p { b with polder := false } f
    l.any (·.step) && l.all (·.step)

/-- A condition is met: cores halt, or a step's work goes on and the miss is counted (R448, R450). -/
def Mod.brkHit (s : Mod) (p id : Nat) : Mod :=
  match s.ob.brks.get (p * 8 + id) with
  | none => s
  | some b =>
    let f := s.fc.num
    let miss := s.brkStep p b f
    let cyc := if b.weir then 0xFFFF else Config.freeNat s.io.free % s.budget
    let s := { s with io := if b.weir then s.io else { s.io with free := s.io.free + 1 } }
    let s := { s with ob := { s.ob with hits := if b.weir then s.ob.hits ++ [p * 8 + id] else s.ob.hits } }
    let s := if miss || (b.polder && (s.brkProgs p b f).any (·.step)) then
        (s.setFld .OB_BRK_STATUS_MISSED p (min 65535 (s.fld .OB_BRK_STATUS_MISSED p + 1))).note p f { Rec.of 12 b.src id b.value 1 0 with cycle := cyc } else s
    if miss && !b.polder then s else
    let at_ := if b.weir then f + 1 else f
    let h : Halt := { key := p * 8 + id, at_ := if miss then f + 1 else at_, others := f + 1, brk := b }
    let s := if miss then s else s.note p f { Rec.of 12 b.src id b.value 0 0 with cycle := cyc }
    { s with ob := { s.ob with halted := s.ob.halted ++ [h] } }

/-- OB_BRK_STATUS.DRAINED at sluice f: no effect of the halted cores' engines is still to come (R448). -/
def Mod.drained (s : Mod) (p : Nat) : Bool :=
  let used := (s.ue.running.filter fun r => r.pol == p && s.halted r).flatMap (·.used)
  !s.landing.any fun e => match e.2.eng with
    | some g => used.any (· == g)
    | none => false

/-- The halted cores' state at sluice f (R448, R454). -/
def Mod.brkStatus (s : Mod) (p : Nat) : Mod :=
  let hs := s.ob.halted.filter fun h => h.key / 8 == p && decide (h.at_ ≤ s.fc.num)
  let mask := (List.range 8).foldl (fun a i => if hs.any (fun h => h.key % 8 == i) then a + 2 ^ i else a) 0
  (s.setFld .OB_BRK_STATUS_HALTED p mask).setFld .OB_BRK_STATUS_DRAINED p (if !hs.isEmpty && s.drained p then 1 else 0)

end Sys2Proof.Machine
end

