-- ==== Sys2Proof/Machine/Fixed.lean ====
section
/-! DEFINITION. The fixed functions of one F32 input that the spec bounds and does not state bit for bit: each is an open function of its input, kept within the
bound that the spec gives (04_forward_array.md R116, 05_reverse_array_and_backward.md R141, R153). -/

namespace Sys2Proof.Machine

/-! ## Values as multiples of 2^-512 -/

/-- One, as a multiple of 2^-512. -/
def fxOne : Int := 2 ^ 512

/-- A product of multiples of 2^-512, rounded down. -/
def fxMul (a b : Int) : Int := a * b / fxOne

/-- A quotient of multiples of 2^-512. -/
def fxDiv (a b : Int) : Int := a * fxOne / b

/-- The square root of 2 / pi. -/
def fxGelu : Int := 0xcc42299ea1b284687e59e2805d5c717fa7053e60a24e0db1808e369004c73a5d3bf158aa88fa7b6e47eba75766e9d11bd6284ef2e17c2a264f1d32688be119ff

/-- A finite F32 value, exactly. -/
def fxOf (x : Val) : Int := x.int (-512)

/-- e to the power of -z for z from 0 on, within 2^-480: the power series of z / 2^16, squared sixteen times; past z = 512 it is less than that. -/
def fxExpNeg (z : Int) : Int :=
  if 512 * fxOne ≤ z then 0
  else
    let y := z / 2 ^ 16
    let series := (List.range 60).foldl (fun (r : Int × Int) (k : Nat) => let t := -(fxMul r.2 y) / ((k : Int) + 1); (r.1 + t, t)) (fxOne, fxOne)
    (List.range 16).foldl (fun e _ => fxMul e e) series.1

/-- The sigmoid 1 / (1 + e^-z). -/
def fxSigmoid (z : Int) : Int :=
  let e := fxExpNeg (if z < 0 then -z else z)
  if z < 0 then fxDiv e (fxOne + e) else fxDiv fxOne (fxOne + e)

/-- tanh. -/
def fxTanh (z : Int) : Int :=
  let e := fxExpNeg (2 * (if z < 0 then -z else z))
  let t := fxDiv (fxOne - e) (fxOne + e)
  if z < 0 then -t else t

/-- The argument of GELU's tanh: the square root of 2 / pi times v + 0.044715 v^3. -/
def fxGeluArg (v : Int) : Int := fxMul fxGelu (v + 44715 * fxMul v (fxMul v v) / 1000000)

/-- The functions 4 to 7 of R116 at a finite value; GELU's 0.5 (1 + tanh z) is the sigmoid of 2 z. -/
def fxDrain (fn : Nat) (v : Int) : Int :=
  if fn = 4 then fxMul v (fxSigmoid (2 * fxGeluArg v))
  else if fn = 5 then fxMul v (fxSigmoid v)
  else if fn = 6 then fxSigmoid v
  else fxTanh v

/-- The derivatives 4 to 7 of R141 at a finite value. -/
def fxDeriv (fn : Nat) (v : Int) : Int :=
  let s := fxSigmoid v
  if fn = 4 then
    let t := fxTanh (fxGeluArg v)
    (fxOne + t) / 2 + fxMul (fxMul (fxMul v (fxOne - fxMul t t)) fxGelu) (fxOne + 134145 * fxMul v v / 1000000) / 2
  else if fn = 5 then fxMul s (fxOne + fxMul v (fxSigmoid (-v)))
  else if fn = 6 then fxMul s (fxSigmoid (-v))
  else
    let t := fxTanh v
    fxOne - fxMul t t

/-- The reciprocal square root of m * 2^e, m > 0. -/
def fxRsqrt (m : Nat) (e : Int) : Int := isqrt (if e ≤ 0 then 2 ^ (1024 + (-e).toNat) / m else 2 ^ 1024 / (m * 2 ^ e.toNat))

/-! ## An open F32 result within a bound -/

/-- One F32 ulp of a value. -/
def fxUlp (a : Int) : Int := 2 ^ (max (Nat.log2 a.natAbs - 23) 363)

/-- Whether a code is a finite F32 within n ulps of a value, up to the error of the value itself, which is far below an ulp. -/
def withinUlps (n : Nat) (a : Int) (c : Nat) : Bool :=
  (f32Val c).isFin && decide (((fxOf (f32Val c) - a).natAbs : Int) ≤ n * fxUlp a + 2 ^ 212)

/-- The open number where it is a code within n ulps of the value, else the nearest F32 code: every result that the bound allows, and no other (log entry 8). -/
def boundedF32 (n : Nat) (a : Int) (c : Nat) : Nat :=
  let c := c % 2 ^ 32
  if withinUlps n a c then c else (Val.ofInt a (-512)).toF32

/-- A drain function 4 to 7 of R116: within 2 ulps at a finite value; its limit at an infinity, open where GELU and SiLU have none but the limit of a product
of an infinity and a zero. -/
def drainFixed (fn v : Nat) : Nat :=
  let x := f32Val v
  if x.isFin then boundedF32 2 (fxDrain fn (fxOf x)) (Config.drainFn fn v)
  else if fn = 6 then (if x.isNeg then 0 else 0x3F800000)
  else if fn = 7 then (if x.isNeg then 0xBF800000 else 0x3F800000)
  else if x.isNeg then Config.drainFn fn v % 2 ^ 32 else 0x7F800000

/-- A derivative 4 to 7 of R141: within 2 ulps at a finite value; at an infinity 0 for the sigmoid and tanh, open for the others. -/
def derivFixed (fn v : Nat) : Nat :=
  let x := f32Val v
  if x.isFin then boundedF32 2 (fxDeriv fn (fxOf x)) (Config.drainDeriv fn v)
  else if fn = 6 ∨ fn = 7 then 0
  else Config.drainDeriv fn v % 2 ^ 32

/-- exp of R153, within 2 ulps; its limits at the infinities, and past the F32 range as R75 has an overflow. -/
def expF (v : Nat) : Nat :=
  let x := f32Val v
  if x.isNan then 0x7FC00000
  else if x.isInf then (if x.isNeg then 0 else 0x7F800000)
  else
    let z := fxOf x
    if z ≤ 0 then boundedF32 2 (fxExpNeg (-z)) (Config.expFn v)
    else if 90 * fxOne < z then 0x7F800000
    else boundedF32 2 (fxDiv fxOne (fxExpNeg z)) (Config.expFn v)

/-- rsqrt of R153, within 1 ulp; NaN below zero, open at zero. -/
def rsqrtF (v : Nat) : Nat :=
  match f32Val v with
  | .nan => 0x7FC00000
  | .inf s => if s then 0x7FC00000 else 0
  | .fin s m e =>
    if m = 0 then Config.rsqrtFn v % 2 ^ 32
    else if s then 0x7FC00000
    else boundedF32 1 (fxRsqrt m e) (Config.rsqrtFn v)

end Sys2Proof.Machine
end

