-- ==== Sys2Proof/Machine/Arith.lean ====
section
/-! DEFINITION. The arrays' arithmetic: weight expansion (R79, R101), the forward cell (R105 to R110), the reverse cell (R130 to R133), the drain's
functions and derivatives (R116, R141), and the row procedures (R153, R154). -/

namespace Sys2Proof.Machine

/-- The per-channel entry index of a tile's bank and channel (R104). -/
def pcsIdx (tile bank ch : Nat) : Nat := (tile * 2 + bank) * 128 + ch

/-- The W16 table entry u of a per-channel entry (R104). -/
def Mod.pcsTable (s : Mod) (idx u : Nat) : Nat := (s.rd .EX_PCS_TABLE (idx * 8 + u / 2)).toNat / 2 ^ (u % 2 * 16) % 65536

/-- The W16 value of a weight code (R79), with EXP_INEXACT and the specials it saw. A product of u - z = 0 with a negative k is -0 (DESIGN CHOICE, log entry 92). -/
def Mod.expandW (s : Mod) (idx u : Nat) : Nat × CvFlags :=
  if s.fld .EX_PCS_CTRL_MODE idx = 1 then (s.pcsTable idx u, 0)
  else
    let z : Int := s.fld .EX_PCS_CTRL_ZERO idx
    let x := (Val.ofInt ((u : Int) - z) 0).mul (Fmt.decode .w16 (s.fld .EX_PCS_SCALE_K idx))
    match narrow .w16 false none x with
    | (k, f) => (k, (f &&& (cvSAT ||| cvNANIN ||| cvINFIN)) ||| (if x.isFin && narrowInexact .w16 x then cvEXPINEXACT else 0))

/-- The grid exponent G of a per-channel entry (R101): mode, scale k and table. R101 gives none for a NaN or infinite k, whose E_k is taken as 64, nor for MODE = OFF, which takes
AFFINE's (DESIGN CHOICE, log entry 92). -/
def gridOf (mode k : Nat) (table : List Nat) : Int :=
  let expo (c : Nat) : Option Int :=
    match Fmt.decode .w16 c with
    | .fin _ m _ => if m = 0 then none else some (max ((c / 256 % 128 : Nat) : Int) 1 - 63)
    | _ => none
  if mode = 1 then
    match table.filterMap expo with
    | [] => -70
    | e :: es => max ((es.foldl max e) - 16) (-70)
  else match expo k with
    | some e => e - 8
    | none => if k / 256 % 128 = 127 then 64 - 8 else -70

/-- An operand element as the arrays see it: its exact value without scale, its scale, and flags; padding, which takes no scale (R199). -/
structure El where
  v : Val
  s : Nat
  fl : CvFlags
  pad : Bool := false
  deriving DecidableEq, Repr

/-- The expander's element of a region (R100, R126): padding and elements beyond are +0 (R199). -/
def Mod.el (s : Mod) (o : Opd) (c : Co) : El :=
  match o.stored c with
  | none => { v := o.td.pad, s := 127, fl := 0, pad := true }
  | some st =>
    let sc := s.scaleAt o st
    match o.enc.fmt.source o.enc.sub (s.codeAt o st) with
    | (v, f) =>
      let v := if o.enc.blk ≠ 0 ∧ sc = 255 then Val.nan else v
      { v := v, s := sc, fl := f ||| v.seen }

/-- A weight element of the forward array: a float code, or an I4 or I8 code expanded under channel n's entry (R103). -/
def Mod.elW (s : Mod) (o : Opd) (tile n : Nat) (c : Co) : El :=
  if o.enc.fmt = .i4 ∨ o.enc.fmt = .i8 then
    match o.stored c with
    | none => { v := .zero, s := 127, fl := 0, pad := true }
    | some st =>
      match s.expandW (pcsIdx tile o.td.bank (n % 128)) (s.codeAt o st) with
      | (k, f) =>
        let v := Fmt.decode .w16 k
        { v := v, s := 127, fl := f ||| v.seen }
  else s.el o c

/-- Whether a scale-block boundary lies before region element k along dimension 0 (R105). -/
def Opd.cutAt (o : Opd) (k : Nat) : Bool :=
  o.enc.blk != 0 && ((at4 o.off 0 + k : Nat) - (at4 o.td.bef 0 : Int)) % (o.enc.blk : Int) == 0

/-- A reduction block that is running: its exact sum, the S8 values of X's and W's blocks as its stored elements give them, and its length (R106, R107). -/
structure RedBlk where
  sum : Val
  sx : Nat
  sw : Nat
  n : Nat
  deriving DecidableEq, Repr

/-- A reduction block before its first element. -/
def RedBlk.start : RedBlk := ⟨.zero, 127, 127, 0⟩

/-- A reduction block's contribution (R107). -/
def RedBlk.close (b : RedBlk) (a : Acc) : Acc := a.add (b.sum.scale ((b.sx : Int) + (b.sw : Int) - 254))

/-- One product enters its block; a special one goes to the accumulator (R110). Padding brings no scale (R199). -/
def RedBlk.take (b : RedBlk) (a : Acc) (x w : El) : RedBlk × Acc :=
  let p := x.v.mul w.v
  let b := { b with sx := if x.pad then b.sx else x.s, sw := if w.pad then b.sw else w.s, n := b.n + 1 }
  if p.isFin then ({ b with sum := b.sum.add p }, a) else (b, a.add p)

/-- One output of the forward array (R105 to R110): X's and W's elements along K, block cuts, Kb. -/
def fwdCell (x w : List El) (cut : Nat → Bool) (kb : Nat) : Acc :=
  let step (st : RedBlk × Acc × Nat) (p : El × El) : RedBlk × Acc × Nat :=
    let (b, a, k) := st
    let (b, a) := if b.n = kb ∨ (0 < k ∧ cut k) then (RedBlk.start, b.close a) else (b, a)
    let r := b.take a p.1 p.2
    (r.1, r.2, k + 1)
  match (x.zip w).foldl step (.start, Acc.zero, 0) with
  | (b, a, _) => b.close a

/-- What a reverse cell noticed: GROUP_ROUNDED, ACC_OVF, SPECIAL as bits 0 to 2 of RA_STATUS (R158). -/
abbrev RevFlags := BitVec 3

/-- The group sum of R131: none where no product is non-zero; whether it was rounded. -/
def groupSum (ps : List Val) : Option (Val × Bool) :=
  let nz := ps.filter fun p => !p.isZero
  match nz with
  | [] => none
  | p :: rest =>
    let ex (v : Val) : Int := match v with
      | .fin _ m e => floorLog2 m e
      | _ => 0
    let e := rest.foldl (fun a v => max a (ex v)) (ex p)
    let u := e - 34
    let sum := nz.foldl Val.add .zero
    match sum with
    | .fin s m q =>
      if u ≤ q then some (.fin s m q, false)
      else
        let sh := (u - q).toNat
        let n := m / 2 ^ sh
        let r := m % 2 ^ sh
        let n := if 2 ^ sh < 2 * r ∨ (2 * r = 2 ^ sh ∧ n % 2 = 1) then n + 1 else n
        some (.fin s n u, r != 0)
    | v => some (v, false)

/-- Cut a list into runs of n. -/
def chunks {α : Type} (n : Nat) : Nat → List α → List (List α)
  | 0, _ => []
  | fuel + 1, l => if l.isEmpty then [] else l.take n :: chunks n fuel (l.drop n)

/-- One output of the reverse array (R130 to R133): exact scaled operand values along the reduction; the F32 result and flags. -/
def revCell (a b : List Val) : Nat × RevFlags :=
  let ps := (a.zip b).map fun p => p.1.mul p.2
  let groups := chunks 16 (ps.length + 1) ps
  let step (st : Nat × Bool × Bool × Bool × RevFlags) (g : List Val) : Nat × Bool × Bool × Bool × RevFlags :=
    let (acc, nan, pi, ni, fl) := st
    let nan := nan || g.any (·.isNan)
    let pi := pi || g.any (· == .inf false)
    let ni := ni || g.any (· == .inf true)
    match groupSum (g.filter (·.isFin)) with
    | none => (acc, nan, pi, ni, fl)
    | some (v, rounded) =>
      let acc' := ((f32Val acc).add v).toF32
      let ovf := (f32Val acc).isFin && (f32Val acc').isInf
      (acc', nan, pi, ni, fl ||| (if rounded then 1#3 else 0) ||| (if ovf then 2#3 else 0))
  match groups.foldl step (0, false, false, false, 0) with
  | (acc, nan, pi, ni, fl) =>
    let r := if nan || (pi && ni) then 0x7FC00000 else if pi then 0x7F800000 else if ni then 0xFF800000 else acc
    (r, fl ||| (if (f32Val r).isFin then 0 else 4#3))

/-- The group sums of an output that differ from their exact sums (R131, R436). -/
def revRounded (a b : List Val) : Nat :=
  let ps := (a.zip b).map fun p => p.1.mul p.2
  ((chunks 16 (ps.length + 1) ps).filter fun g => (groupSum (g.filter (·.isFin))).any (·.2)).length

/-- The drain's functions (R116). -/
def drainF (fn p0 p1 v : Nat) : Nat :=
  let x := f32Val v
  if x.isNan then 0x7FC00000
  else if fn = 0 then v
  else if fn = 1 then (x.max .zero).toF32
  else if fn = 2 then (if x.lt .zero then f32Mul p0 v else v)
  else if fn = 3 then ((x.max (f32Val p0)).min (f32Val p1)).toF32
  else drainFixed fn v

/-- The derivatives of the drain (R141). -/
def drainD (fn p0 p1 v : Nat) : Nat :=
  let x := f32Val v
  let one := 0x3F800000
  if x.isNan then 0x7FC00000
  else if fn = 0 then one
  else if fn = 1 then (if Val.zero.lt x then one else 0)
  else if fn = 2 then (if x.lt .zero then p0 else one)
  else if fn = 3 then (if x.lt (f32Val p0) || (f32Val p1).lt x then 0 else one)
  else derivFixed fn v

/-- narrow(S / n, F32) of an exact sum. -/
def meanF (a : Acc) (n : Nat) : Nat := (a.val.div (.fin false n 0)).satF32

/-- A row's outcome: outputs, dgamma terms (dbeta's are dy itself), the accumulator flags, SPECIAL (R154). -/
structure RowOut where
  y : List Nat
  dg : List Nat
  fl : AccFlags
  deriving DecidableEq, Repr

/-- A row of NaN (R154): its dγ terms are NaN too, its dβ terms are dy (DESIGN CHOICE, log entry 93). -/
def rowNan (n : Nat) : RowOut := ⟨List.replicate n 0x7FC00000, List.replicate n 0x7FC00000, ⟨false, false, true, 0⟩⟩

/-- The layer norm and RMS norm statistics of a row (R153): xh, rstd, accumulator flags. -/
def normStats (rms : Bool) (x : List Nat) (eps : Nat) : List Nat × Nat × AccFlags :=
  let n := x.length
  if rms then
    let s := xsum (x.map fun v => (f32Val v).mul (f32Val v))
    let r := rsqrtF (f32Add (meanF s n) eps)
    (x.map fun v => f32Mul v r, r, s.fl)
  else
    let s1 := xsum (x.map f32Val)
    let mu := meanF s1 n
    let d := x.map fun v => f32Sub v mu
    let s2 := xsum (d.map fun v => (f32Val v).mul (f32Val v))
    let r := rsqrtF (f32Add (meanF s2 n) eps)
    (d.map fun v => f32Mul v r, r, s1.fl.or s2.fl)

/-- LN_FWD and RMS_FWD of a row (R153). -/
def normFwd (rms : Bool) (x gamma beta : List Nat) (eps : Nat) : RowOut :=
  if x.any fun v => !(f32Val v).isFin then rowNan x.length
  else
    let (xh, _, fl) := normStats rms x eps
    let y := (xh.zip gamma).map fun p => f32Mul p.1 p.2
    ⟨if rms then y else (y.zip beta).map fun p => f32Add p.1 p.2, [], fl⟩

/-- LN_BWD and RMS_BWD of a row (R153). -/
def normBwd (rms : Bool) (x gamma dy : List Nat) (eps : Nat) : RowOut :=
  if (x.any fun v => !(f32Val v).isFin) || dy.any fun v => (f32Val v).isNan then rowNan x.length
  else
    let (xh, rstd, fl) := normStats rms x eps
    let n := x.length
    let g := (dy.zip gamma).map fun p => f32Mul p.1 p.2
    let sb := xsum ((g.zip xh).map fun p => (f32Val p.1).mul (f32Val p.2))
    let b := meanF sb n
    let sa := if rms then Acc.zero else xsum (g.map f32Val)
    let a := meanF sa n
    let dx := (g.zip xh).map fun p =>
      f32Mul rstd (f32Sub (if rms then p.1 else f32Sub p.1 a) (f32Mul p.2 b))
    ⟨dx, (dy.zip xh).map fun p => f32Mul p.1 p.2, (fl.or sb.fl).or sa.fl⟩

/-- The soft-maximum of a row (R153, R154): y, and its flags; none where m is -infinity. -/
def smStats (x : List Nat) (tau : Nat) : Option (List Nat × AccFlags) ⊕ Unit :=
  let z := x.map fun v => f32Mul v tau
  let m : Val := z.foldl (fun (a : Val) v => Val.max a (f32Val v)) Val.nan
  if z.any fun v => (f32Val v).isNan then .inr ()
  else if m == .inf false then .inr ()
  else if m == .inf true then .inl none
  else
    let e := z.map fun v => expF (f32Sub v m.toF32)
    let s := xsum (e.map f32Val)
    .inl (some (e.map fun v => ((f32Val v).div s.val).satF32, s.fl))

/-- SM_FWD of a row. -/
def smFwdRow (x : List Nat) (tau : Nat) : RowOut :=
  match smStats x tau with
  | .inr _ => rowNan x.length
  | .inl none => ⟨List.replicate x.length 0, [], ⟨false, false, true, 0⟩⟩
  | .inl (some (y, fl)) => ⟨y, [], fl⟩

/-- SM_BWD of a row. -/
def smBwdRow (x dy : List Nat) (tau : Nat) : RowOut :=
  if dy.any fun v => (f32Val v).isNan then rowNan x.length else
  match smStats x tau with
  | .inr _ => rowNan x.length
  | .inl none => ⟨List.replicate x.length 0, [], ⟨false, false, true, 0⟩⟩
  | .inl (some (y, fl)) =>
    let s := xsum ((dy.zip y).map fun p => (f32Val p.1).mul (f32Val p.2))
    let c := s.val.satF32
    ⟨(dy.zip y).map fun p => f32Mul tau (f32Mul p.2 (f32Sub p.1 c)), [], fl.or s.fl⟩

/-- Shadow agreement of one element (R181): y_f against y_s with threshold THR and D. -/
def shadowAgrees (yf ys : Val) (thr : Nat) (d : Val) : Bool :=
  if yf.isNan || ys.isNan then yf.isNan && ys.isNan
  else if yf.isInf || ys.isInf then yf == ys
  else !(d.scale (-(thr : Int))).lt (yf.sub ys).abs

end Sys2Proof.Machine
end

