-- ==== Sys2Proof/Machine/Forward.lean ====
section
/-! DEFINITION. N-path compute, class 0x1: the forward product with its drain, shadow check and collectors, and per-channel loads
(04_forward_array.md, 06 R180 and R181, R321 to R323). -/

namespace Sys2Proof.Machine

/-! ## Per-channel entries (R101, R102, R104) -/

/-- Whether a per-channel entry is valid: its ten words; the status where it is not (R79, R102, R104). -/
def pcsEntryChk (w : List Nat) : Option Nat :=
  let c := w.getD 0 0
  let mode := bits c 31 30
  let width := bits c 25 24
  let table := (List.range 16).map fun u => w.getD (2 + u / 2) 0 / 2 ^ (u % 2 * 16) % 65536
  let expo (k : Nat) : Option Int :=
    match Fmt.decode .w16 k with
    | .fin _ m _ => if m = 0 then none else some (max ((k / 256 % 128 : Nat) : Int) 1 - 63)
    | _ => none
  let es := table.filterMap expo
  let emax := es.foldl max (-62)
  if mode = 3 ∨ (width ≠ 1 ∧ width ≠ 2) then some 0x1A
  else if mode = 1 ∧ width = 2 then some 0x18
  else if width = 1 ∧ 15 < c % 256 then some 0x1A
  else if mode = 1 ∧ es.any (fun e => decide (e < emax - 8)) then some 0x1A
  else none

/-- The entry with its GRID computed (R101): reserved bits dropped. -/
def pcsEntryOf (w : List Nat) : List Word :=
  let c := w.getD 0 0
  let table := (List.range 16).map fun u => w.getD (2 + u / 2) 0 / 2 ^ (u % 2 * 16) % 65536
  let g := gridOf (bits c 31 30) (w.getD 1 0 % 65536) table
  let ctrl := (c &&& 0xC30000FF) + (g % 256).toNat * 65536
  BitVec.ofNat 32 ctrl :: BitVec.ofNat 32 (w.getD 1 0 % 65536) :: (List.range 8).map fun i => BitVec.ofNat 32 (w.getD (2 + i) 0)

/-- PCS_LOAD: BANK, FIRST and COUNT (R321). -/
def blkPcsLoad (s : Mod) (pol : Nat) (ps : List Word) : Chk Unit := do
  lenChk ps 16
  rsvChk ps [.w 0 0x00FE8000, .w 4 0xFFFFFFFF, .addr 8]
  s.tileChk pol ps 0
  ensure (decide (bits (pw ps 0) 7 0 ≤ 128) && decide (bits (pw ps 0) 14 8 + bits (pw ps 0) 7 0 ≤ 128)) 0x04 (detailAt 0)

/-- PCS_LOAD: the entries commit together at sluice e, or none of them do (R321). -/
def planPcsLoad (s : Mod) (c : Ctx) (ps : List Word) : Chk Plan := do
  let tile := ctrlTile (pw ps 0)
  let bank := bits (pw ps 0) 16 16
  let first := bits (pw ps 0) 14 8
  let n := bits (pw ps 0) 7 0
  let src := pq ps 8
  if n = 0 then return .empty []
  s.srcChk c.pol src (64 * n) 8
  if s.poisoned c.pol src (64 * n) then return poisonPlan c
  let entry (i : Nat) := (List.range 10).map fun k => s.getN c.pol (src + 64 * i + 4 * k) 4
  match (List.range n).findSome? (fun i => pcsEntryChk (entry i)) with
  | some st => .error (st, detailAt 8)
  | none => .ok (.ok (rankTile tile) none ((List.range n).map fun i => .pcs (pcsIdx tile bank (first + i)) (pcsEntryOf (entry i))) 1)

/-- PCS_LOAD (R321). -/
def execPcsLoad (w : Work) (s : State) : Host.Outcome State Fault Refusal :=
  s.when (s.m.workReady w 0x1001) (s.m.runWork 0x1001 w blkPcsLoad planPcsLoad fun ps => some (tsqOf (ctrlTile (pw ps 0))))

/-! ## Collectors (R120 to R122) -/

/-- Whether a collector is open: committed open, or opened in this frame. -/
def Mod.collTaken (s : Mod) (n : Nat) : Bool :=
  (s.tile.colls.get n).isSome || s.stg.any fun e => match e.eff with
    | .collOpen k _ _ => k == n
    | _ => false

/-- COLLECT_OPEN: MODE 3 fails with PARAM_INVALID (R321). -/
def blkCollectOpen (_ : Mod) (_ : Nat) (ps : List Word) : Chk Unit := do
  lenChk ps 4
  rsvChk ps [.w 0 0xFFFFFFFC]
  ensure (pw ps 0 != 3) 0x04 (detailAt 0)

/-- COLLECT_OPEN takes the lowest free collector (R321). -/
def planCollectOpen (s : Mod) (c : Ctx) (ps : List Word) : Chk Plan :=
  match (List.range 64).find? fun n => !s.collTaken n with
  | none => .error (0x04, noDetail)
  | some n => .ok { Plan.ok 0 none [.collOpen n c.pol (pw ps 0)] 1 with result := n }

/-- COLLECT_OPEN (R321). -/
def execCollectOpen (c : CmdId) (s : State) : Host.Outcome State Fault Refusal := s.when (s.m.granted c 0x1002 && s.m.inTurn c [0x1002]) (s.m.runCmd c planCollectOpen)

/-- COLLECT_CLOSE: COLLECTOR and DEST. -/
def blkCollectClose (_ : Mod) (_ : Nat) (ps : List Word) : Chk Unit := do
  lenChk ps 16
  rsvChk ps [.w 0 0xFFFFFFC0, .w 4 0xFFFFFFFF, .addr 8]

/-- Bytes of a collector's contents: 64 KiB for GATHER, 16,384 F32 values for MAX, 2,048 for SUM_EXACT (R321). -/
def collBytes (mode : Nat) : Nat := if mode = 2 then 8192 else 65536

/-- COLLECT_CLOSE: the collector must be the polder's; its contents are written when it closes, deliveries of that frame included (R122, R321). -/
def planCollectClose (s : Mod) (c : Ctx) (ps : List Word) : Chk Plan := do
  match s.tile.colls.get (pw ps 0) with
  | none => .error (0x04, detailAt 0)
  | some k =>
    ensure (k.pol == c.pol) 0x04 (detailAt 0)
    s.destChk c.pol (pq ps 8) (collBytes k.mode) 8
    .ok (.ok rankColl none [.collClose (pw ps 0) c.pol (pq ps 8)] 2)

/-- COLLECT_CLOSE (R122). -/
def execCollectClose (c : CmdId) (s : State) : Host.Outcome State Fault Refusal := s.when (s.m.granted c 0x1003) (s.m.runCmd c planCollectClose)

/-! ## The forward product -/

/-- The drain function of a product's control word at 0xC0 and the clamp's bounds behind it (R116); bounds the wrong way round concern both words (R296). -/
def drainChk (ps : List Word) : Chk Unit := do
  let fn := bits (pw ps 0xC0) 23 20
  let lo := f32Val (pw ps 0xC4)
  let hi := f32Val (pw ps 0xC8)
  ensure (decide (fn < 8)) 0x1C (detailAt 0xC0)
  ensure (fn != 3 || !lo.isNan) 0x1C (detailAt 0xC4)
  ensure (fn != 3 || !hi.isNan) 0x1C (detailAt 0xC8)
  ensure (fn != 3 || !hi.lt lo) 0x1C noDetail

/-- FWD_PRODUCT: the block of R322; Y is absent with COLL; FN and the clamp's bounds (R116). -/
def blkFwdProduct (s : Mod) (pol : Nat) (ps : List Word) : Chk Unit := do
  lenChk ps 216
  rsvChk ps [.t 0, .t 0x20, .t 0x40, .t 0x60, .t 0x80, .t 0xA0, .w 0xC0 0x000F7FC0, .w 0xD0 0xFFFFFFFF, .w 0xD4 0xFFFFFFFF]
  s.tileChk pol ps 0xC0
  ensure (!(pw ps 0xC0).testBit 15 || pw ps 0x40 % 65536 == 0) 0x04 (detailAt 0x40)
  drainChk ps

/-- An N-path operand format (R97). -/
def Fmt.isN : Fmt → Bool
  | .n4 | .n6 | .n8 => true
  | _ => false

/-- Whether the per-channel entries that a product of N channels reads match the operand's width (R103). -/
def Mod.pcsMatch (s : Mod) (tile bank n : Nat) (f : Fmt) : Bool :=
  (List.range (min n 128)).all fun ch =>
    let i := pcsIdx tile bank ch
    s.fld .EX_PCS_CTRL_MODE i != 0 && s.fld .EX_PCS_CTRL_WIDTH i == (if f = .i4 then 1 else 2)

/-- A check of an operand that may be absent. -/
def optChk (o : Option Opd) (f : Opd → Chk Unit) : Chk Unit :=
  match o with
  | some o => f o
  | none => .ok ()

/-- The extents of a two-dimensional region: dimensions 2 and 3 are 1. -/
def Opd.is2d (o : Opd) (e0 e1 : Nat) : Bool := at4 o.ext 0 == e0 && at4 o.ext 1 == e1 && at4 o.ext 2 == 1 && at4 o.ext 3 == 1

/-- The checks of FWD_PRODUCT in the order of R508 (R97, R103, R109, R323): the operands, and whether the product is empty. -/
def chkFwd (s : Mod) (c : Ctx) (ps : List Word) : Chk (FwdOpds × Bool) := do
  let tile := ctrlTile (pw ps 0xC0)
  let coll := (pw ps 0xC0).testBit 15
  let cn := bits (pw ps 0xC0) 5 0
  let x? ← s.operand c tile ps 0 true
  let w? ← s.operand c tile ps 0x20 true
  let y ← s.operand c tile ps 0x40 (!coll)
  let bias ← s.operand c tile ps 0x60 false
  let save ← s.operand c tile ps 0x80 false
  let res ← s.operand c tile ps 0xA0 false
  match x?, w? with
  | some x, some w =>
    let all := [some x, some w, y, bias, save, res]
    allChk (all.map fun o => optChk o Opd.bounds)
    let m := at4 x.ext 1
    let k := at4 x.ext 0
    let n := at4 w.ext 1
    -- formats
    s.slotChk c x
    ensure (x.enc.fmt.isN && x.td.axis == 0) 0x1C (detailAt 0)
    s.slotChk c w
    ensure ((w.enc.fmt.isN && w.td.axis == 0) || w.enc.fmt == .i4 || w.enc.fmt == .i8) 0x1C (detailAt 0x20)
    ensure (w.enc.fmt.isN || s.pcsMatch tile w.td.bank n w.enc.fmt) 0x1A (detailAt 0x20)
    optChk y fun o => do
      s.slotChk c o
      ensure (o.enc.slot.isNone || o.enc.fmt.isN || o.enc.fmt == .w16) 0x30 (detailAt 0x40)
      ensure (o.enc.fmt == .f32 || o.enc.fmt == .w16 || (o.enc.fmt.isN && o.td.axis == 0)) 0x1C (detailAt 0x40)
    optChk bias fun o => do
      s.slotChk c o
      ensure (o.enc.fmt == .f32) 0x1C (detailAt 0x60)
    optChk save fun o => do
      s.slotChk c o
      ensure (o.enc.slot.isNone || o.enc.fmt == .w16) 0x30 (detailAt 0x80)
      ensure (o.enc.fmt == .f32 || o.enc.fmt == .w16) 0x1C (detailAt 0x80)
    optChk res fun o => do
      s.slotChk c o
      ensure (o.enc.fmt == .f32 || o.enc.fmt == .w16) 0x1C (detailAt 0xA0)
    -- placement
    allChk (all.map fun o => optChk o Opd.inTile)
    optChk y s.destPlace
    optChk save s.destPlace
    -- writability
    optChk y Opd.writable
    optChk save Opd.writable
    -- emptiness
    if all.any (fun o => match o with
      | some o => o.isEmpty
      | none => false) then .ok (⟨x, w, y, bias, save, res⟩, true)
    else do
      -- agreement
      ensure (x.is2d k m && w.is2d k n) 0x04 noDetail
      optChk y fun o => ensure (o.is2d n m) 0x04 noDetail
      optChk bias fun o => ensure (o.is2d n 1) 0x04 noDetail
      optChk save fun o => ensure (o.is2d n m) 0x04 noDetail
      optChk res fun o => ensure (o.is2d n m) 0x04 noDetail
      ensure (decide (k ≤ 2 ^ 20)) 0x1B noDetail
      -- the collector
      if coll then
        match s.tile.colls.get cn with
        | none => .error (0x04, detailAt 0xC0)
        | some q => do
          ensure (q.pol == c.pol) 0x04 (detailAt 0xC0)
          ensure (decide (pw ps 0xCC + m * n ≤ (if q.mode = 2 then 2048 else 16384))) 0x04 noDetail
          .ok (⟨x, w, y, bias, save, res⟩, false)
      else .ok (⟨x, w, y, bias, save, res⟩, false)
  | _, _ => .error (0x10, detailAt 0)

/-- One element's drain, steps 1 to 5 of R115: the pre-activation and the value after the function and the residual. -/
def fwdDrain (fn p0 p1 : Nat) (bias res : Option Nat) (total : Nat) : Nat × Nat :=
  let v := match bias with
    | some b => f32Add total b
    | none => total
  let u := if fn = 0 then v else drainF fn p0 p1 v
  (v, match res with
    | some r => f32Add u r
    | none => u)

/-- The output tiles of a product in order, as ranges of rows and columns. -/
def outTiles (m n : Nat) : List (Nat × Nat) :=
  (List.range (ceilDiv m 128)).flatMap fun tm => (List.range (ceilDiv n 128)).map fun tn => (tm, tn)

/-- The elements of an output tile in the drain's order: rows of 128, in rising M (R118). -/
def tileEls (m n t : Nat) : List (Nat × Nat) :=
  let (tm, tn) := (outTiles m n).getD t (0, 0)
  (List.range (min 128 (m - tm * 128))).flatMap fun i => (List.range (min 128 (n - tn * 128))).map fun j => (tm * 128 + i, tn * 128 + j)

/-- TILE_SEQ of a tile with what this frame has staged (R180). -/
def Mod.tileSeqNow (s : Mod) (tile : Nat) : Nat :=
  s.stg.foldl (fun a e => match e.eff with
    | .tileSeq t n => if t = tile then a + n else a
    | _ => a) (s.tile.seqs.getD tile 0)

/-- The shadow check of an output tile (R180, R181): whether every element agrees. `ys` and `yf` give the shadow value and the forward output of an
element; elements at padding positions are not compared. -/
def shadowTile (s : Mod) (tile : Nat) (fmt : Fmt) (blkOf : Nat × Nat → Nat) (els : List (Nat × Nat)) (ys yf : Nat × Nat → Val) : Bool :=
  let thr := s.fld (match fmt with
    | .n4 => .ST_SHADOW_THR_THR_N4
    | .n6 => .ST_SHADOW_THR_THR_N6
    | .n8 => .ST_SHADOW_THR_THR_N8
    | _ => .ST_SHADOW_THR_THR_WIDE) tile
  els.all fun e =>
    let d := if fmt.isN then (amax ((els.filter fun x => blkOf x == blkOf e).map ys)).1 else (ys e).abs.max (.fin false 1 (-62))
    shadowAgrees (yf e) (ys e) thr d

/-- Reduction elements that a cell of the forward array consumes per cycle (R96). -/
def fwdRate (o : FwdOpds) : Nat := if o.x.enc.fmt = .n4 ∧ (o.w.enc.fmt = .n4 ∨ o.w.enc.fmt = .i4 ∨ o.w.enc.fmt = .i8) then 4 else 2

/-- The value of a drained element as it goes to a collector (R120, R323): a magnitude in MAX; in SUM_EXACT the accumulator's total itself where no step after the first of R115 is
enabled, and the drained F32 value otherwise (DEDUCED, log entry 94). -/
def collVal (mode : Nat) (plain : Bool) (a : Acc) (v : Nat) : Val :=
  if mode = 1 then (f32Val v).abs else if plain then a.val else f32Val v

/-- The parts in which a product is computed: its output tiles one by one; all together where a block of a narrow output reaches over two of them (R506). -/
def fwdParts (o : FwdOpds) (m n : Nat) : List (List Nat) :=
  let ts := List.range (outTiles m n).length
  match o.y with
  | some y => if y.enc.blk ≠ 0 ∧ ((at4 y.off 0 : Int) - (at4 y.td.bef 0 : Int)) % (y.enc.blk : Int) ≠ 0 then [ts] else ts.map fun t => [t]
  | none => ts.map fun t => [t]

/-- The draws of elements of a product, in the drain's order, without their conversions: they depend on no data (R87, R118). -/
def Conv.fwdDraws (v : Conv) (o : FwdOpds) (unit xz : Nat) (els : List (Nat × Nat)) : Conv :=
  let takes (t : Option Opd) (nar : Bool) (e : Nat × Nat) : Nat := match t with
    | some t => if t.enc.rnd && t.enc.fmt != .f32 && t.enc.fmt.isN == nar && (t.stored (e.2, e.1, 0, 0)).isSome then 1 else 0
    | none => 0
  els.foldl (fun v e => (v.skip unit (e.2 % 128 / 2) (takes o.save false e + takes o.y false e)).skip xz (e.2 % 128 / 2) (takes o.y true e)) v

/-- The place in the order of earliness of the command for which work runs; none for a program of a step. -/
def Ctx.ordOf (c : Ctx) : Option Nat :=
  match c.prog with
  | some (.step _ _) => none
  | _ => some c.ord

/-- What output tiles of a product give when they drain: effects, and what they note for the reply, SR_USED and ACC_INEXACT. -/
structure TileOut where
  effs : List Eff
  sr : Bool
  inexact : Bool
  deriving DecidableEq, Repr

/-- Output tiles of a forward product, computed from the state in which they start (R103, R105 to R122). A GATHER collector's position counts F32 elements, 16 to a slot, and a slot keeps
what a delivery does not cover (DESIGN CHOICE, log entry 94). -/
def fwdTiles (s : Mod) (c : Ctx) (ps : List Word) (o : FwdOpds) (ts : List Nat) : TileOut :=
  let tile := ctrlTile (pw ps 0xC0)
  let fn := bits (pw ps 0xC0) 23 20
  let toColl := (pw ps 0xC0).testBit 15
  let p0 := pw ps 0xC4
  let p1 := pw ps 0xC8
  let m := at4 o.x.ext 1
  let k := at4 o.x.ext 0
  let n := at4 o.w.ext 1
  let order := ts.flatMap (tileEls m n)
  let xs := (dedup (order.map (·.1))).map fun i => (i, (List.range k).map fun j => s.el o.x (j, i, 0, 0))
  let ws := (dedup (order.map (·.2))).map fun i => (i, (List.range k).map fun j => s.elW o.w tile i (j, i, 0, 0))
  let xr (i : Nat) := (xs.lookup i).getD []
  let wr (i : Nat) := (ws.lookup i).getD []
  let kb := min 32 (min (if o.x.enc.blk = 0 then 32 else o.x.enc.blk) (if o.w.enc.blk = 0 then 32 else o.w.enc.blk))
  let cut (j : Nat) := o.x.cutAt j || o.w.cutAt j
  let exFl := (xs ++ ws).foldl (fun a r => r.2.foldl (fun a e => a ||| e.fl) a) (0 : CvFlags)
  let f32At (t : Option Opd) (e : Co) := t.map fun o => s.elemF32 o e
  let bias (e : Nat × Nat) := f32At o.bias (e.2, 0, 0, 0)
  let res (e : Nat × Nat) := f32At o.res (e.2, e.1, 0, 0)
  let drain (e : Nat × Nat) (total : Nat) := fwdDrain fn p0 p1 ((bias e).map (·.1)) ((res e).map (·.1)) total
  -- totals and drained values, in the drain's order
  let outs := order.map fun e =>
    let a := fwdCell (xr e.1) (wr e.2) cut kb
    let r := drain e a.val.satF32
    (e, a, r.1, r.2)
  -- a value whose destination positions are all padding sets no flag (R200)
  let kept (e : Nat × Nat) : Bool :=
    (o.y.isNone && o.save.isNone) || toColl || [o.y, o.save].any fun t => match t with
      | some t => (t.stored (e.2, e.1, 0, 0)).isSome
      | none => false
  let live := outs.filter fun x => kept x.1
  let accFl := live.foldl (fun a x => a.or { x.2.1.fl with special := !x.2.1.val.isFin }) AccFlags.none
  let inFl := live.foldl (fun a x => a ||| ((bias x.1).map (·.2)).getD 0 ||| ((res x.1).map (·.2)).getD 0) (0 : CvFlags)
  let unit := unitNo 1 (tile / 48) (tile % 48)
  let xz := unitNo 0 (tile / 48) (tile % 48)
  let item (o : Opd) (x : (Nat × Nat) × Acc × Nat × Nat) (v : Nat) : Item :=
    { lane := x.1.2 % 128 / 2, dst := o.stored (x.1.2, x.1.1, 0, 0), x := f32Val v, exact := o.enc.fmt == .f32, raw := if o.enc.fmt = .f32 then some v else none }
  let wide (o : Opd) := !o.enc.fmt.isN
  -- the draws of the tiles before these
  let v0 := (Conv.start c).fwdDraws o unit xz ((List.range (ts.headD 0)).flatMap (tileEls m n))
  -- the save, and with it an output in F32 or W16, element by element
  let du := outs.foldl (fun (acc : Conv × Conv) x =>
    let sv := match o.save with
      | some t => acc.1.plain t unit [item t x x.2.2.1]
      | none => acc.1
    match o.y with
    | some y => if wide y then
        let r := ({ acc.2 with lanes := sv.lanes, fl := 0 }).plain y unit [item y x x.2.2.2]
        ({ sv with lanes := r.lanes, fl := sv.fl ||| r.fl }, r)
      else (sv, acc.2)
    | none => (sv, acc.2)) (v0, v0)
  let xc := match o.y with
    | some y => if wide y then du.2 else s.convBlocks c { v0 with lanes := du.1.lanes } y xz (outs.map fun x => item y x x.2.2.2)
    | none => du.1
  let nOut := match o.y with
    | some y => !wide y
    | none => false
  -- writes
  let saveEffs := match o.save with
    | some t => t.loc.eff du.1.cells :: s.slotEffs c t du.1
    | none => []
  let yEffs := match o.y with
    | some y => y.loc.eff xc.cells :: (s.slotEffs c y xc ++ (if nOut then blkEff tile y xc else []))
    | none => []
  -- collector deliveries, to a collector that is still the polder's
  let cn := bits (pw ps 0xC0) 5 0
  let pos (e : Nat × Nat) : Nat := pw ps 0xCC + e.1 * n + e.2
  let coll := if toColl then (s.tile.colls.get cn).filter fun q => q.pol == c.pol else none
  let plain := fn == 0 && o.bias.isNone && o.res.isNone
  let collEffs : List Eff := match coll with
    | none => []
    | some q => if q.mode = 0 then outs.map fun x => .collBytes cn c.work c.ordOf (pos x.1 * 4) (leBytes x.2.2.2 4)
      else [.coll cn (outs.map fun x => Deliver.of (pos x.1) (collVal q.mode plain x.2.1 x.2.2.2))]
  -- the shadow check
  let tiles := outTiles m n
  let seq0 := s.tileSeqNow tile
  let per := s.fld .ST_SHADOW_CTRL_PERIOD_LOG2 tile
  let yfmt := match o.y with
    | some y => y.enc.fmt
    | none => .f32
  let sc := match o.y with
    | some y => s.putLoc y.loc xc.cells
    | none => s
  let shadowEffs := ts.zipIdx.flatMap fun (t, i) =>
    if per = 0 ∨ (seq0 + i) % 2 ^ per ≠ tile % 48 % 2 ^ per then [] else
    let (tm, tn) := tiles.getD t (0, 0)
    if Config.freeNat s.io.free / 2 ^ t % 2 = 0 then [Eff.shadow tile c.pol (seq0 + i) 0] else
    let els := (order.filter fun e => e.1 / 128 == tm && e.2 / 128 == tn).filter fun e => match o.y with
      | some y => (y.stored (e.2, e.1, 0, 0)).isSome
      | none => true
    let val (l : List El) := l.map fun e => e.v.scale ((e.s : Int) - 127)
    let ys (e : Nat × Nat) : Val := Fmt.decode .w16 (narrow .w16 false none (f32Val (drain e (revCell (val (xr e.1)) (val (wr e.2))).1).2)).1
    let yf (e : Nat × Nat) : Val := match o.y with
      | some y => (sc.elemVal y false (e.2, e.1, 0, 0)).1
      | none => match outs.find? fun x => x.1 == e with
        | some x => f32Val x.2.2.2
        | none => .zero
    let blkOf (e : Nat × Nat) := match o.y with
      | some y => match y.stored (e.2, e.1, 0, 0) with
        | some st => y.td.block y.enc.blk st
        | none => 0
      | none => 0
    [Eff.shadow tile c.pol (seq0 + i) (if shadowTile s tile yfmt blkOf els ys yf then 1 else 2)]
  let fl := du.1.fl ||| inFl
  { effs := yEffs ++ saveEffs ++ collEffs ++ accEff .FA_STATUS tile accFl ++ cvEff .EX_CV_FLAGS tile exFl ++ cvEff .DU_CV_FLAGS tile fl
      ++ (if nOut then cvEff .XZ_CV_FLAGS tile xc.fl else []) ++ [.tileSeq tile ts.length] ++ shadowEffs
      ++ [.event (tile / 48) (if fwdRate o = 4 then 0 else 1) (order.length * k)] ++ du.1.events (tile / 48) ++ (if o.y.isSome then xc.events (tile / 48) else [])
    sr := (fl ||| (if nOut then xc.fl else 0)) &&& cvSRUSED != 0
    inexact := accFl.inexact }

/-- The work of a forward product whose checks passed: its output tiles, each in its frames, and the draws that all of them take (R96, R118). -/
def fwdWork (s : Mod) (c : Ctx) (ps : List Word) (o : FwdOpds) : Plan :=
  let tile := ctrlTile (pw ps 0xC0)
  let m := at4 o.x.ext 1
  let n := at4 o.w.ext 1
  let parts := fwdParts o m n
  let nOut := match o.y with
    | some y => y.enc.fmt.isN
    | none => false
  let cycles := 384 + (outTiles m n).length * max (ceilDiv (at4 o.x.ext 0) (fwdRate o)) 128 + (if nOut then 64 else 0)
  let v := (Conv.start c).fwdDraws o (unitNo 1 (tile / 48) (tile % 48)) (unitNo 0 (tile / 48) (tile % 48)) ((List.range (outTiles m n).length).flatMap (tileEls m n))
  { Plan.ok (rankTile tile) (some (tsqOf tile)) [] (s.framesFor cycles) with now := v.laneEffs c, units := parts.map fun ts => .fwdTile c ps o ts 0, note := o.w.td.bank }

/-- The running command at a place in the order of earliness, changed. -/
def Mod.mapOrd (s : Mod) (o : Option Nat) (f : Cmd → Cmd) : Mod :=
  { s with cq := { s.cq with cmds := s.cq.cmds.map fun x => if !x.mgmt && o == some x.ord && x.phase == .running then f x else x } }

/-- Effects of work that drain in a later frame wait with the work's packet, or with its program. -/
def Mod.landLater (s : Mod) (c : Ctx) (f : Nat) (l : List Staged) : Mod :=
  if c.prog.isSome then { s with ue := { s.ue with running := s.ue.running.map fun p => if c.prog = some p.runner then { p with land := p.land ++ l.map fun e => (f, e) } else p } }
  else s.mapOrd (some c.ord) fun x => { x with land := x.land ++ l.map fun e => (f, e) }

/-- Whether other work has delivered to a slot of a GATHER collector in the frame (R120). -/
def Mod.delivered (s : Mod) (n work at_ : Nat) : Bool := s.stg.any fun x => match x.eff with
  | .collBytes k v _ a _ => k == n && v != work && a / 64 == at_ / 64
  | _ => false

/-- An effect is staged in the frame that closes. Of two commands that deliver to one slot of a GATHER collector in one frame, that whose delivery is staged second fails with
INDEX_ERROR (DESIGN CHOICE, log entry 94). -/
def Mod.join (s : Mod) (e : Staged) : Mod :=
  match e.eff with
  | .collBytes n w o at_ _ => (if s.delivered n w at_ then s.mapOrd o fun x => { x with status := if x.status = 0x00 then 0x13 else x.status } else s).stageAll [e]
  | _ => s.stageAll [e]

/-- Output tiles that start in frame f are computed, and drain in it or in a later one; other effects join the frame's. -/
def Mod.begin (f : Nat) (s : Mod) (e : Staged) : Mod :=
  match e.eff with
  | .fwdTile c ps o ts span =>
    let r := fwdTiles s c ps o ts
    let l := r.effs.map fun x => { e with eff := x }
    let s := (s.mapOrd c.ordOf fun x => { x with sr := x.sr || r.sr, inexact := x.inexact || r.inexact }).bump
    if span = 0 then l.foldl Mod.join s else s.landLater c (f + span) l
  | _ => s.join e

/-- FWD_PRODUCT: the plan (R96, R321 to R323). A zero M, N or K completes with OK_EMPTY. -/
def planFwdProduct (s : Mod) (c : Ctx) (ps : List Word) : Chk Plan := do
  let (o, empty) ← chkFwd s c ps
  .ok (if empty then .empty [] else fwdWork s c ps o)

/-- FWD_PRODUCT (R96). -/
def execFwdProduct (w : Work) (s : State) : Host.Outcome State Fault Refusal :=
  s.when (s.m.workReady w 0x1000) (s.m.runWork 0x1000 w blkFwdProduct planFwdProduct fun ps => some (tsqOf (ctrlTile (pw ps 0xC0))))

end Sys2Proof.Machine
end

