-- ==== Sys2Proof/Machine/Reverse.lean ====
section
/-! DEFINITION. W-path compute, class 0x2: the reverse product, accumulation regions and their flush, row operations, and the expansion of weight
codes (05_reverse_array_and_backward.md, R324 to R327). -/

namespace Sys2Proof.Machine

/-! ## Accumulation regions (R146 to R150) -/

/-- The index of a tile's region. -/
def rgnIdx (tile rgn : Nat) : Nat := tile * 16 + rgn

/-- The regions that a reverse product names. -/
def revRegions (ps : List Word) : List Nat :=
  let w := pw ps 0xC0
  dedup ((if pw ps 0x40 % 65536 = 0 then [bits w 11 8] else []) ++ (if w.testBit 15 then [bits w 7 4] else []))

/-- The regions that a row operation contributes to: dγ, and dβ of a layer norm (R153). -/
def rowRegions (ps : List Word) : List Nat :=
  let w := pw ps 0xA0
  let op := bits w 23 20
  if !w.testBit 11 then [] else dedup ((if op = 2 ∨ op = 4 then [bits w 19 16] else []) ++ (if op = 2 then [bits w 15 12] else []))

/-- Whether work uses a region of a tile. -/
def usesRgn (tile rgn op : Nat) (ps : List Word) : Bool :=
  (op == 0x2000 && ctrlTile (pw ps 0xC0) == tile && has (revRegions ps) rgn) || (op == 0x2001 && ctrlTile (pw ps 0xA0) == tile && has (rowRegions ps) rgn)

/-- Uses of a region by work that started in this frame (R149). -/
def Mod.rgnPending (s : Mod) (tile rgn : Nat) : Nat :=
  (s.cq.cmds.filter fun c => !c.mgmt && c.phase == .running && c.first == s.fc.num && usesRgn tile rgn c.opcode c.params).length
    + ((s.ue.running.flatMap (·.jobs)).filter fun j => j.first == s.fc.num && usesRgn tile rgn j.op j.ps).length

/-- A contribution to a region of at least `need` entries (R149, R326): not disabled, not FLUSHING, not exhausted. -/
def Mod.rgnChk (s : Mod) (tile rgn need det : Nat) : Chk Unit :=
  let i := rgnIdx tile rgn
  ensure (s.fld .ACB_RGN_RANGE_LEN i != 0 && s.fld .ACB_RGN_CTRL_STATE i != 2
    && decide (s.fld .ACB_RGN_CTRL_DONE i + s.rgnPending tile rgn + 1 ≤ s.fld .ACB_RGN_CTRL_USES i)
    && decide (need ≤ s.fld .ACB_RGN_RANGE_LEN i * 128)) 0x1D det

/-- An output of the reverse section or of a backward row operation (R143, R160, R162). -/
def Mod.bwdOut (s : Mod) (c : Ctx) (o : Opd) : Chk Unit := do
  s.slotChk c o
  let w := o.enc.fmt == .w8 || o.enc.fmt == .w12 || o.enc.fmt == .w16
  match o.enc.slot with
  | some _ => ensure (o.enc.delayed && w) 0x30 (detailAt o.po)
  | none => ensure ((w || o.enc.fmt == .f32) && o.enc.blk == 0) 0x1C (detailAt o.po)

/-- A lane item whose element also draws for another output: `mine` and `other` say which outputs draw there, `first` whether this one draws first. -/
def pairItem (lane : Nat) (dst : Option Co) (x : Val) (exact other first : Bool) : Item :=
  { lane := lane, dst := dst, x := x, exact := exact, pre := if other && !first then 1 else 0, post := if other && first then 1 else 0 }

/-! ## The reverse product -/

/-- REV_PRODUCT: the block of R325; FN and the clamp's bounds with DERIV (R141). -/
def blkRevProduct (s : Mod) (pol : Nat) (ps : List Word) : Chk Unit := do
  lenChk ps 216
  rsvChk ps [.t 0, .t 0x20, .t 0x40, .t 0x60, .t 0x80, .t 0xA0, .w 0xC0 0x0000700F, .w 0xCC 0xFFFFFFFF, .w 0xD0 0xFFFFFFFF, .w 0xD4 0xFFFFFFFF]
  s.tileChk pol ps 0xC0
  if (pw ps 0xC0).testBit 19 then drainChk ps else .ok ()

/-- An operand format of the reverse array (R126). -/
def Fmt.revOperand : Fmt → Bool
  | .w8 | .n4 | .n6 | .w12 | .w16 | .n8 => true
  | _ => false

/-- Class W8 of R126, by the operand's own format. -/
def Opd.classW8 (o : Opd) : Bool := o.enc.fmt == .w8 || o.enc.fmt == .n4 || o.enc.fmt == .n6

/-- The operands of a reverse product. -/
structure RevOpds where
  a : Opd
  b : Opd
  z : Option Opd
  rg : Option Opd
  tee : Option Opd
  v : Option Opd
  deriving DecidableEq, Repr

/-- The checks of REV_PRODUCT in the order of R508 (R126, R128, R134, R149, R326): the operands, and whether the product is empty. -/
def chkRev (s : Mod) (c : Ctx) (ps : List Word) : Chk (RevOpds × Bool) := do
  let w := pw ps 0xC0
  let tile := ctrlTile w
  let ta := w.testBit 18
  let tb := w.testBit 17
  let tz := w.testBit 16
  let a? ← s.operand c tile ps 0 true
  let b? ← s.operand c tile ps 0x20 true
  let z ← s.operand c tile ps 0x40 false
  let rg ← s.operand c tile ps 0x60 false
  let tee ← s.operand c tile ps 0x80 false
  let v ← s.operand c tile ps 0xA0 (w.testBit 19)
  match a?, b? with
  | some a, some b =>
    let all := [some a, some b, z, rg, tee, v]
    allChk (all.map fun o => optChk o Opd.bounds)
    let zf := match z with
      | some o => o.enc.fmt
      | none => .f32
    s.slotChk c a
    ensure a.enc.fmt.revOperand 0x1C (detailAt 0)
    s.slotChk c b
    ensure b.enc.fmt.revOperand 0x1C (detailAt 0x20)
    optChk z (s.bwdOut c)
    optChk rg fun o => do
      s.slotChk c o
      ensure (o.enc.fmt == .w8 || o.enc.fmt == .w12 || o.enc.fmt == .w16 || o.enc.fmt == .f32) 0x1C (detailAt 0x60)
    optChk tee fun o => do
      s.bwdOut c o
      ensure (o.enc.fmt == zf) (if o.enc.slot.isSome then 0x30 else 0x1C) (detailAt 0x80)
    optChk v fun o => do
      s.slotChk c o
      ensure (o.enc.fmt == .w16 || o.enc.fmt == .f32) 0x1C (detailAt 0xA0)
    a.inTile
    ensure (!ta || a.td.grid) 0x1E (detailAt 0)
    b.inTile
    ensure (!tb || b.td.grid) 0x1E (detailAt 0x20)
    optChk z fun o => do
      o.inTile
      s.destPlace o
    optChk rg Opd.inTile
    optChk tee fun o => do
      o.inTile
      s.destPlace o
    optChk v Opd.inTile
    optChk z Opd.writable
    optChk tee Opd.writable
    if all.any (fun o => match o with
      | some o => o.isEmpty
      | none => false) then .ok (⟨a, b, z, rg, tee, v⟩, true)
    else do
      let j := at4 a.ext (if ta then 1 else 0)
      let p := at4 a.ext (if ta then 0 else 1)
      let q := at4 b.ext (if tb then 0 else 1)
      ensure (if ta then a.is2d p j else a.is2d j p) 0x04 noDetail
      ensure (if tb then b.is2d q j else b.is2d j q) 0x04 noDetail
      let shaped (o : Opd) : Chk Unit := ensure (if tz then o.is2d p q else o.is2d q p) 0x04 noDetail
      optChk z shaped
      optChk rg shaped
      optChk tee shaped
      optChk v shaped
      ensure (decide (j ≤ 2 ^ 24)) 0x1B noDetail
      if z.isNone then s.rgnChk tile (bits w 11 8) (p * q) (detailAt 0xC0) else .ok ()
      if w.testBit 15 then s.rgnChk tile (bits w 7 4) q (detailAt 0xC0) else .ok ()
      .ok (⟨a, b, z, rg, tee, v⟩, false)
  | _, _ => .error (0x10, detailAt 0)

/-- The elements of a reverse product in the drain's order (R145): output tiles of 128 by 256, rows in rising p. -/
def revOrder (p q : Nat) : List (Nat × Nat) :=
  (List.range (ceilDiv p 128)).flatMap fun tp => (List.range (ceilDiv q 256)).flatMap fun tq =>
    (List.range (min 128 (p - tp * 128))).flatMap fun i => (List.range (min 256 (q - tq * 256))).map fun j => (tp * 128 + i, tq * 256 + j)

/-- The work of a reverse product whose checks passed (R125 to R148). Where tee and Z both draw, the tee draws first for each element: R118 gives that order for the
forward drain, and the model takes it here (log entry 103). -/
def revWork (s : Mod) (c : Ctx) (ps : List Word) (o : RevOpds) : Plan :=
  let w := pw ps 0xC0
  let tile := ctrlTile w
  let fn := bits w 23 20
  let ta := w.testBit 18
  let tb := w.testBit 17
  let tz := w.testBit 16
  let j := at4 o.a.ext (if ta then 1 else 0)
  let p := at4 o.a.ext (if ta then 0 else 1)
  let q := at4 o.b.ext (if tb then 0 else 1)
  let co (i k : Nat) (t : Bool) : Co := if t then (i, k, 0, 0) else (k, i, 0, 0)
  let arow (i : Nat) := (List.range j).map fun k => s.el o.a (co i k ta)
  let bcol (i : Nat) := (List.range j).map fun k => s.el o.b (co i k tb)
  let val (l : List El) := l.map fun e => e.v.scale ((e.s : Int) - 127)
  let ar := (List.range p).map arow
  let bc := (List.range q).map bcol
  let av := ar.map val
  let bv := bc.map val
  let exFl := (ar ++ bc).foldl (fun a r => r.foldl (fun a e => a ||| e.fl) a) (0 : CvFlags)
  let zco (i k : Nat) : Co := if tz then (i, k, 0, 0) else (k, i, 0, 0)
  let f32At (t : Option Opd) (i k : Nat) := t.map fun o => s.elemF32 o (zco i k)
  -- drained values in the drain's order: position, flags, tee value, output value
  let outs := (revOrder p q).map fun (i, k) =>
    let r := revCell (av.getD i []) (bv.getD k [])
    let g := match f32At o.rg i k with
      | some x => f32Add r.1 x.1
      | none => r.1
    let d := match w.testBit 19, f32At o.v i k with
      | true, some v => f32Mul g (drainD fn (pw ps 0xC4) (pw ps 0xC8) v.1)
      | _, _ => g
    ((i, k), r.2, g, d)
  -- a value whose destination positions are all padding sets no flag (R200)
  let kept (e : Nat × Nat) : Bool := o.z.isNone || w.testBit 15 || [o.z, o.tee].any fun t => match t with
    | some t => (t.stored (zco e.1 e.2)).isSome
    | none => false
  let live := outs.filter fun x => kept x.1
  let raFl := live.foldl (fun a x => a ||| x.2.1) (0 : RevFlags)
  -- the flags of reading the running gradient and v
  let inFl := live.foldl (fun a x => a ||| ((f32At o.rg x.1.1 x.1.2).map (·.2)).getD 0 ||| (if w.testBit 19 then ((f32At o.v x.1.1 x.1.2).map (·.2)).getD 0 else 0)) (0 : CvFlags)
  let unit := unitNo 1 (tile / 48) (tile % 48)
  let draws (t : Option Opd) (i k : Nat) : Bool := match t with
    | some o => o.enc.rnd && o.enc.fmt != .f32 && (o.stored (zco i k)).isSome
    | none => false
  let items (t : Opd) (other : Option Opd) (first : Bool) (v : (Nat × Nat) × RevFlags × Nat × Nat → Nat) : List Item := outs.map fun x =>
    { pairItem (128 + x.1.2 % 128 / 2) (t.stored (zco x.1.1 x.1.2)) (f32Val (v x)) (t.enc.fmt == .f32) (draws other x.1.1 x.1.2) first with
        raw := if t.enc.fmt = .f32 then some (v x) else none }
  let conv (t : Option Opd) (other : Option Opd) (first : Bool) (v : (Nat × Nat) × RevFlags × Nat × Nat → Nat) : Conv := match t with
    | some t => s.convert c (Conv.start c) t unit (items t other first v)
    | none => Conv.start c
  let tee := conv o.tee o.z true fun x => x.2.2.1
  let z := conv o.z o.tee false fun x => x.2.2.2
  let outEffs (t : Option Opd) (v : Conv) : List Eff := match t with
    | some t => t.loc.eff v.cells :: (s.slotEffs c t v ++ blkEff tile t v ++ v.events (tile / 48))
    | none => []
  let lanes := if o.z.isSome then z else tee
  let rgn := if o.z.isSome then [] else
    [Eff.acb tile (bits w 11 8) c.work (outs.map fun x => Deliver.of (if tz then x.1.2 * p + x.1.1 else x.1.1 * q + x.1.2) (f32Val x.2.2.2))]
  let bias := if !w.testBit 15 then [] else
    [Eff.acb tile (bits w 7 4) c.work ((List.range q).map fun k =>
      Deliver.of k (f32Val ((List.range p).foldl (fun a i => match outs.find? fun x => x.1 == (i, k) with
        | some x => f32Add a x.2.2.2
        | none => a) 0)))]
  let r := if o.a.classW8 && o.b.classW8 then 2 else 1
  let cycles := 640 + ceilDiv p 128 * ceilDiv q 256 * max (ceilDiv j r) 256
  let fl := tee.fl ||| z.fl ||| inFl
  { rank := rankTile tile, eng := some (tsqOf tile), bound := s.framesFor cycles, result := 0, status := 0x00, sr := fl &&& cvSRUSED != 0, inexact := false
    now := lanes.laneEffs c, note := r - 1
    effs := outEffs o.tee tee ++ outEffs o.z z ++ rgn ++ bias ++ (revRegions ps).map (Eff.acbUse tile)
      ++ flagEff .RA_STATUS tile (raFl.setWidth 32) ++ cvEff .EX_CV_FLAGS tile exFl ++ cvEff .DU_BWD_FLAGS tile fl
      ++ [.event (tile / 48) (if r = 2 then 4 else 5) (p * q * j),
          .event (tile / 48) 18 ((live.map fun x => revRounded (av.getD x.1.1 []) (bv.getD x.1.2 [])).sum)] }

/-- REV_PRODUCT: an empty product writes nothing and still counts as one use of its regions (R127). -/
def planRevProduct (s : Mod) (c : Ctx) (ps : List Word) : Chk Plan := do
  let (o, empty) ← chkRev s c ps
  .ok (if empty then .empty ((revRegions ps).map (Eff.acbUse (ctrlTile (pw ps 0xC0)))) else revWork s c ps o)

/-- REV_PRODUCT (R125). -/
def execRevProduct (w : Work) (s : State) : Host.Outcome State Fault Refusal :=
  s.when (s.m.workReady w 0x2000) (s.m.runWork 0x2000 w blkRevProduct planRevProduct fun ps => some (tsqOf (ctrlTile (pw ps 0xC0))))

/-! ## The flush of a region (R148) -/

/-- Whether a region's flush is due in this frame: FLUSHING, and not yet flushed. -/
def Mod.flushDue (s : Mod) (tile rgn : Nat) : Bool :=
  s.fld .ACB_RGN_CTRL_STATE (rgnIdx tile rgn) == 2 && !s.stg.any fun e => match e.eff with
    | .acbDone t r => t == tile && r == rgn
    | _ => false

/-- The flush converts the region's entries under its slot and writes them to DEST in entry order; the region returns to IDLE at the sluice (R148).
The slot's block scales are those of R160; only the data has a place (log entry 24). -/
def Mod.flushRgn (s : Mod) (tile rgn : Nat) : Mod :=
  let i := rgnIdx tile rgn
  let n := s.fld .ACB_RGN_RANGE_LEN i * 128
  let pol := s.dieOf (tile / 48)
  let td : Td := { grid := false, space := 1, index := false, axis := 0, padv := 0, nullNeg := false, writable := true, cvc := Cvc.ofNat 0, aft := [0, 0, 0, 0]
                   bef := [0, 0, 0, 0], ext := [n, 1, 1, 1], bank := 0, useSlot := true, slot := s.fld .ACB_RGN_SLOT_SLOT i, base := s.fld .ACB_RGN_DEST_DEST i
                   stride := [0, 0, 0, 0], sbase := 2 ^ 40 }
  let o : Opd := { po := 0, handle := 0, td := td, loc := .sram tile, off := [0, 0, 0, 0], ext := [n, 1, 1, 1], enc := s.slotEnc td.slot }
  let c : Ctx := { pol := pol, fn := 0, step := s.bit .ACB_RGN_CTRL_STEP i && s.stepOpen pol, ord := 0, fresh := false, prog := none, handles := none
                   lanes := s.lanesOf none s.tile.lanes, work := s.io.free
                   seed := match s.stepOf pol with
                     | some st => st.seed
                     | none => Config.freeNat s.io.free }
  let unit := unitNo 1 (tile / 48) (tile % 48)
  let items : List Item := (List.range n).map fun k =>
    { lane := 128 + k % 128 / 2, dst := some (k, 0, 0, 0)
      x := f32Val (s.tile.acb.getD (tile * 65536 + s.fld .ACB_RGN_RANGE_BASE i * 128 + k) 0).toNat, exact := false }
  let v := s.convert c (Conv.start c) o unit items
  let plan : Plan := .ok (rankTile tile) (some (tsqOf tile)) ([.sram tile (v.cells.filter fun w => decide (w.addr < 2 ^ 40)), .acbDone tile rgn]
    ++ s.slotEffs c o v ++ blkEff tile o v ++ v.events (tile / 48) ++ cvEff .DU_BWD_FLAGS tile v.fl ++ v.laneEffs c) 1
  s.bump.stageAll (plan.effs.map (plan.one { c with step := false }))

/-- REGION_FLUSH (R148). -/
def execRegionFlush (d : Fin 4) (t : Fin 48) (rgn : Fin 16) (s : State) : Host.Outcome State Fault Refusal :=
  s.when (s.m.flushDue (d.val * 48 + t.val) rgn.val) (s.m.flushRgn (d.val * 48 + t.val) rgn.val)

/-! ## Row operations (R152 to R155, R327) -/

/-- ROW_OP: the block of R327; operands absent or unused (R327), ε and τ (R152). -/
def blkRowOp (s : Mod) (pol : Nat) (ps : List Word) : Chk Unit := do
  lenChk ps 176
  rsvChk ps [.t 0, .t 0x20, .t 0x40, .t 0x60, .t 0x80, .w 0xA0 0x000007FF, .w 0xAC 0xFFFFFFFF]
  s.tileChk pol ps 0xA0
  let op := bits (pw ps 0xA0) 23 20
  ensure (decide (1 ≤ op ∧ op ≤ 6)) 0x04 (detailAt 0xA0)
  let want (o : Nat) (b : Bool) : Chk Unit := ensure ((pw ps o % 65536 != 0) == b) 0x04 (detailAt o)
  want 0 true
  want 0x20 (decide (op ≤ 4))
  want 0x40 (op == 1)
  want 0x60 (op == 2 || op == 4 || op == 6)
  let eps := f32Val (pw ps 0xA4)
  let tau := f32Val (pw ps 0xA8)
  ensure (decide (5 ≤ op) || (eps.isFin && !eps.isNeg && !eps.isZero)) 0x1C (detailAt 0xA4)
  ensure (decide (op ≤ 4) || (tau.isFin && !tau.isZero)) 0x1C (detailAt 0xA8)

/-- Whether an operation is a backward one. -/
def rowBwd (op : Nat) : Bool := op == 2 || op == 4 || op == 6

/-- The operands of a row operation. -/
structure RowOpds where
  x : Opd
  gamma : Option Opd
  beta : Option Opd
  dy : Option Opd
  out : Opd
  deriving DecidableEq, Repr

/-- The checks of ROW_OP in the order of R508: the operands, and whether the operation is empty. -/
def chkRow (s : Mod) (c : Ctx) (ps : List Word) : Chk (RowOpds × Bool) := do
  let w := pw ps 0xA0
  let tile := ctrlTile w
  let op := bits w 23 20
  let x? ← s.operand c tile ps 0 true
  let gamma ← s.operand c tile ps 0x20 false
  let beta ← s.operand c tile ps 0x40 false
  let dy ← s.operand c tile ps 0x60 false
  let out? ← s.operand c tile ps 0x80 true
  match x?, out? with
  | some x, some out =>
    let all := [some x, gamma, beta, dy, some out]
    allChk (all.map fun o => optChk o Opd.bounds)
    s.slotChk c x
    ensure x.enc.fmt.isFloat 0x1C (detailAt 0)
    optChk gamma fun o => do
      s.slotChk c o
      ensure (o.enc.fmt == .f32) 0x1C (detailAt 0x20)
    optChk beta fun o => do
      s.slotChk c o
      ensure (o.enc.fmt == .f32) 0x1C (detailAt 0x40)
    optChk dy fun o => do
      s.slotChk c o
      ensure o.enc.fmt.isFloat 0x1C (detailAt 0x60)
    if rowBwd op then s.bwdOut c out
    else do
      s.slotChk c out
      ensure (out.enc.slot.isNone || out.enc.fmt.isN || out.enc.fmt == .w16) 0x30 (detailAt 0x80)
      ensure (out.enc.fmt == .f32 || out.enc.fmt == .w16 || (out.enc.fmt.isN && out.td.axis == 0)) 0x1C (detailAt 0x80)
    allChk (all.map fun o => optChk o Opd.inTile)
    s.destPlace out
    out.writable
    if all.any (fun o => match o with
      | some o => o.isEmpty
      | none => false) then .ok (⟨x, gamma, beta, dy, out⟩, true)
    else do
      let n := at4 x.ext 0
      let same (o : Opd) : Chk Unit := ensure ([0, 1, 2, 3].all fun d => at4 o.ext d == at4 x.ext d) 0x04 noDetail
      optChk gamma fun o => ensure (o.is2d n 1) 0x04 noDetail
      optChk beta fun o => ensure (o.is2d n 1) 0x04 noDetail
      optChk dy same
      same out
      ensure (decide (n ≤ 65536)) 0x1F noDetail
      allChk ((rowRegions ps).map fun r => s.rgnChk tile r n (detailAt 0xA0))
      .ok (⟨x, gamma, beta, dy, out⟩, false)
  | _, _ => .error (0x10, detailAt 0)

/-- Passes of an operation (R152). -/
def rowPasses (op : Nat) : Nat := if op = 3 then 2 else if op = 2 ∨ op = 6 then 4 else 3

/-- Columns summed in F32 over rows in rising order (R153). -/
def sumRows (rows : List (List Nat)) (n : Nat) : List Nat := rows.foldl (fun a r => (a.zip r).map fun p => f32Add p.1 p.2) (List.replicate n 0)

/-- The work of a row operation whose checks passed (R152 to R155). -/
def rowWork (s : Mod) (c : Ctx) (ps : List Word) (o : RowOpds) : Plan :=
  let w := pw ps 0xA0
  let tile := ctrlTile w
  let op := bits w 23 20
  let eps := pw ps 0xA4
  let tau := pw ps 0xA8
  let n := at4 o.x.ext 0
  let rows := at4 o.x.ext 1 * at4 o.x.ext 2 * at4 o.x.ext 3
  let co (r i : Nat) : Co := o.x.co (r * n + i)
  let row (t : Opd) (r : Nat) := (List.range n).map fun i => s.elemF32 t (co r i)
  let vec (t : Option Opd) : List Nat := match t with
    | some t => (List.range n).map fun i => (s.elemF32 t (i, 0, 0, 0)).1
    | none => []
  let gamma := vec o.gamma
  let beta := vec o.beta
  let xs := (List.range rows).map (row o.x)
  let dys := match o.dy with
    | some t => (List.range rows).map (row t)
    | none => []
  let srcFl := (xs ++ dys).foldl (fun a r => r.foldl (fun a e => a ||| e.2) a) (0 : CvFlags)
  let outs := (List.range rows).map fun r =>
    let x := (xs.getD r []).map (·.1)
    let dy := (dys.getD r []).map (·.1)
    if op = 1 then normFwd false x gamma beta eps
    else if op = 2 then normBwd false x gamma dy eps
    else if op = 3 then normFwd true x gamma beta eps
    else if op = 4 then normBwd true x gamma dy eps
    else if op = 5 then smFwdRow x tau
    else smBwdRow x dy tau
  let accFl := outs.zipIdx.foldl (fun a r => if (List.range n).any fun i => (o.out.stored (co r.2 i)).isSome then a.or r.1.fl else a) AccFlags.none
  let unit := unitNo 1 (tile / 48) (tile % 48)
  let items : List Item := (List.range rows).flatMap fun r => (List.range n).map fun i =>
    let y := ((outs.getD r ⟨[], [], .none⟩).y).getD i 0
    { lane := 192 + i % 64, dst := o.out.stored (co r i), x := f32Val y, exact := o.out.enc.fmt == .f32, raw := if o.out.enc.fmt = .f32 then some y else none }
  let v := s.convert c (Conv.start c) o.out unit items
  let contrib (rgn : Nat) (rows : List (List Nat)) : List Eff :=
    [.acb tile rgn c.work ((sumRows rows n).zipIdx.map fun p => Deliver.of p.2 (f32Val p.1))]
  let grads : List Eff := if !w.testBit 11 then [] else
    (if op = 2 ∨ op = 4 then contrib (bits w 19 16) (outs.map (·.dg)) else [])
      ++ (if op = 2 then contrib (bits w 15 12) (dys.map fun r => r.map (·.1)) else [])
  let cycles := 64 + rows * (rowPasses op * ceilDiv n 64 + 48)
  { rank := rankTile tile, eng := some (tsqOf tile), bound := s.framesFor cycles, result := 0, status := 0x00, sr := v.fl &&& cvSRUSED != 0, inexact := accFl.inexact
    now := v.laneEffs c
    effs := o.out.loc.eff v.cells :: (s.slotEffs c o.out v ++ blkEff tile o.out v ++ v.events (tile / 48) ++ grads ++ (rowRegions ps).map (Eff.acbUse tile)
      ++ accEff .DU_ROW_STATUS tile accFl ++ cvEff .DU_BWD_FLAGS tile (srcFl ||| v.fl) ++ [.event (tile / 48) 19 (rows * n * rowPasses op)]) }

/-- ROW_OP: an operation without rows or elements completes with OK_EMPTY and counts one use of each region it names (R155). -/
def planRowOp (s : Mod) (c : Ctx) (ps : List Word) : Chk Plan := do
  let (o, empty) ← chkRow s c ps
  .ok (if empty then .empty ((rowRegions ps).map (Eff.acbUse (ctrlTile (pw ps 0xA0)))) else rowWork s c ps o)

/-- The parameter block of work: its packet's, or the program's own. -/
def Mod.workParams (s : Mod) (w : Work) : List Word :=
  match w with
  | .packet c => match s.cmd c with
    | some x => x.params
    | none => []
  | .program _ ps => ps

/-- Run a row operation. -/
def Mod.runRow (s : Mod) (w : Work) : Mod := s.runWork 0x2001 w blkRowOp planRowOp fun ps => some (tsqOf (ctrlTile (pw ps 0xA0)))

/-- Whether a row operation of this OP may run now. -/
def Mod.rowReady (s : Mod) (w : Work) (op : Nat) : Bool := s.workReady w 0x2001 && bits (pw (s.workParams w) 0xA0) 23 20 == op

/-- LN_FWD (R153). -/
def execLnFwd (w : Work) (s : State) : Host.Outcome State Fault Refusal := s.when (s.m.rowReady w 1) (s.m.runRow w)

/-- LN_BWD (R153). -/
def execLnBwd (w : Work) (s : State) : Host.Outcome State Fault Refusal := s.when (s.m.rowReady w 2) (s.m.runRow w)

/-- RMS_FWD (R153). -/
def execRmsFwd (w : Work) (s : State) : Host.Outcome State Fault Refusal := s.when (s.m.rowReady w 3) (s.m.runRow w)

/-- RMS_BWD (R153). -/
def execRmsBwd (w : Work) (s : State) : Host.Outcome State Fault Refusal := s.when (s.m.rowReady w 4) (s.m.runRow w)

/-- SM_FWD (R153). -/
def execSmFwd (w : Work) (s : State) : Host.Outcome State Fault Refusal := s.when (s.m.rowReady w 5) (s.m.runRow w)

/-- SM_BWD (R153). -/
def execSmBwd (w : Work) (s : State) : Host.Outcome State Fault Refusal := s.when (s.m.rowReady w 6) (s.m.runRow w)

/-! ## EXPAND_W (R324) -/

/-- EXPAND_W: its block. -/
def blkExpandW (s : Mod) (pol : Nat) (ps : List Word) : Chk Unit := do
  lenChk ps 68
  rsvChk ps [.t 0, .t 0x20, .w 0x40 0x00FFFFFF]
  s.tileChk pol ps 0x40

/-- EXPAND_W writes w of R79 for each element; dimension 1 of the source selects the channel (R324). -/
def planExpandW (s : Mod) (c : Ctx) (ps : List Word) : Chk Plan := do
  let tile := ctrlTile (pw ps 0x40)
  let x? ← s.operand c tile ps 0 true
  let d? ← s.operand c tile ps 0x20 true
  match x?, d? with
  | some x, some d =>
    x.bounds
    d.bounds
    ensure (x.enc.fmt == .i4 || x.enc.fmt == .i8) 0x1C (detailAt 0)
    ensure (s.pcsMatch tile x.td.bank (at4 x.ext 1) x.enc.fmt) 0x1A (detailAt 0)
    s.slotChk c d
    ensure (d.enc.slot.isNone || d.enc.fmt == .w16) 0x30 (detailAt 0x20)
    ensure (d.enc.fmt == .w16) 0x1C (detailAt 0x20)
    x.inTile
    d.inTile
    s.destPlace d
    d.writable
    if x.isEmpty || d.isEmpty then .ok (.empty []) else do
    ensure ([0, 1, 2, 3].all fun k => at4 x.ext k == at4 d.ext k) 0x04 noDetail
    let els := (List.range x.count).map fun i => (x.co i, s.elW x tile (x.co i).2.1 (x.co i))
    let cells := els.flatMap fun e => match d.stored e.1 with
      | some st => d.cellsAt st (exactConvert .w16 e.2.v)
      | none => []
    let kept := els.filter fun e => (d.stored e.1).isSome
    let fl := kept.foldl (fun a e => a ||| e.2.fl) (0 : CvFlags)
    -- the elements converted under a slot are binned (R167)
    let bins := if d.enc.slot.isNone then [] else kept.foldl (fun b e => if e.2.pad then b else binAdd b (histBin .w16 127 e.2.v)) []
    .ok (.ok (rankTile tile) (some (tsqOf tile)) (d.loc.eff cells :: (cvEff .DU_BWD_FLAGS tile fl ++ s.slotEffs c d { Conv.start c with bins := bins })) (s.framesFor (128 + ceilDiv x.count 64)))
  | _, _ => .error (0x10, detailAt 0)

/-- EXPAND_W (R324). -/
def execExpandW (w : Work) (s : State) : Host.Outcome State Fault Refusal :=
  s.when (s.m.workReady w 0x2002) (s.m.runWork 0x2002 w blkExpandW planExpandW fun ps => some (tsqOf (ctrlTile (pw ps 0x40))))

end Sys2Proof.Machine
end

