-- ==== Sys2Proof/Machine/Quant.lean ====
section
/-! DEFINITION. Scale and quantization, class 0x3 (06_scaling_and_error_control.md R160 to R168, R176, R177; R328, R329). -/

namespace Sys2Proof.Machine

/-- QUANTIZE: its block. -/
def blkQuantize (s : Mod) (pol : Nat) (ps : List Word) : Chk Unit := do
  lenChk ps 100
  rsvChk ps [.t 0, .t 0x20, .t 0x40, .w 0x60 0x00FFFFFF]
  s.tileChk pol ps 0x60

/-- Whether two regions have equal extents in every dimension. -/
def Opd.sameExt (a b : Opd) : Bool := [0, 1, 2, 3].all fun d => at4 a.ext d == at4 b.ext d

/-- The items of a conversion from one region to another, in linear order: the source is read with the destination's SUB (R84). Lanes are those that
`lane` gives an element's number. The source flags come with them. -/
def Mod.convItems (s : Mod) (x d : Opd) (lane : Nat → Nat) : List Item × CvFlags :=
  let same := x.enc.fmt == d.enc.fmt && x.enc.blk == 0 && d.enc.blk == 0
  let exact := x.enc.blk == 0 && d.enc.blk == 0 && exactInto x.enc.fmt d.enc.fmt
  (List.range x.count).foldl (fun (acc : List Item × CvFlags) i =>
    let co := x.co i
    let v := s.elemVal x (d.enc.sub && !same) co
    let raw := if same then (x.stored co).map (s.codeAt x) else none
    (acc.1 ++ [{ lane := lane i, dst := d.stored (d.co i), x := v.1, exact := exact, raw := raw, pad := (x.stored co).isNone }],
      if (d.stored (d.co i)).isSome then acc.2 ||| v.2 else acc.2)) ([], 0)

/-- The work of a quantization without brine (R163, R164). -/
def quantPlain (s : Mod) (c : Ctx) (tile : Nat) (x d : Opd) : Conv × List Eff :=
  let its := s.convItems x d fun i => i % 128 / 2
  let v := s.convert c (Conv.start c) d (unitNo 0 (tile / 48) (tile % 48)) its.1
  ({ v with fl := v.fl ||| its.2 }, [d.loc.eff v.cells])

/-- The work of a quantization with brine (R176, R177): codes, scales and brine commit together, and with the open step. -/
def quantBrine (s : Mod) (c : Ctx) (tile : Nat) (x d b : Opd) : Conv × List Eff :=
  let its := s.convItems x d fun i => i % 128 / 2
  let brine (i : Nat) := (s.elemVal b false (b.co i)).1
  let items := its.1.zipIdx.map fun p => { p.1 with x := p.1.x.add (brine p.2), exact := false, raw := none, pad := p.1.pad && (b.stored (b.co p.2)).isNone }
  let v := s.convBlocks c (Conv.start c) d (unitNo 0 (tile / 48) (tile % 48)) items
  let after := s.putLoc d.loc v.cells
  -- the brine conversion, under its own slot where it names one
  let w := items.zipIdx.foldl (fun (w : Conv) p =>
    match p.1.dst, b.stored (b.co p.2) with
    | some st, some bs =>
      let q := (d.enc.fmt.decode (after.codeAt d st)).scale ((after.scaleAt d st : Int) - 127)
      let x := if p.1.x.isFin then p.1.x.sub q else .zero
      let n := narrow .w16 false none x
      { w with cells := w.cells ++ b.cellsAt bs n.1, fl := w.fl ||| n.2, bins := if b.enc.slot.isSome then binAdd w.bins (histBin .w16 127 x) else w.bins
               cSat := w.cSat + (if b.enc.slot.isSome && n.2 &&& cvSAT != 0 then 1 else 0) }
    | _, _ => w) (Conv.start c)
  ({ v with fl := v.fl ||| its.2 ||| w.fl },
    (if c.step then .sramStep c.pol tile (v.cells ++ w.cells) else .sram tile (v.cells ++ w.cells)) :: s.slotEffs c b w)

/-- QUANTIZE: the checks in the order of R508, then the work (R176, R177, R328, R506). -/
def planQuantize (s : Mod) (c : Ctx) (ps : List Word) : Chk Plan := do
  let tile := ctrlTile (pw ps 0x60)
  let x? ← s.operand c tile ps 0 true
  let d? ← s.operand c tile ps 0x20 true
  let b ← s.operand c tile ps 0x40 false
  match x?, d? with
  | some x, some d =>
    x.bounds
    d.bounds
    optChk b Opd.bounds
    s.slotChk c x
    ensure x.enc.fmt.isFloat 0x18 (detailAt 0)
    s.slotChk c d
    ensure d.enc.fmt.isFloat 0x18 (detailAt 0x20)
    optChk b fun o => do
      s.slotChk c o
      ensure (o.enc.slot.isNone || o.enc.fmt == .w16) 0x30 (detailAt 0x40)
      ensure ((d.enc.fmt == .n4 || d.enc.fmt == .n6) && !d.enc.rnd) 0x32 (detailAt 0x20)
      ensure (o.enc.fmt == .w16) 0x32 (detailAt 0x40)
    x.inTile
    d.inTile
    s.destPlace d
    optChk b fun o => do
      o.inTile
      s.destPlace o
    d.writable
    optChk b Opd.writable
    if x.isEmpty || d.isEmpty || (match b with
      | some o => o.isEmpty
      | none => false) then .ok (.empty []) else do
    ensure (x.sameExt d) 0x04 noDetail
    optChk b fun o => ensure (o.sameExt x) 0x32 noDetail
    let r := match b with
      | some b => quantBrine s c tile x d b
      | none => quantPlain s c tile x d
    .ok { Plan.ok (rankTile tile) (some (tsqOf tile)) (r.2 ++ s.slotEffs c d r.1 ++ blkEff tile d r.1 ++ r.1.events (tile / 48) ++ cvEff .XZ_CV_FLAGS tile r.1.fl)
            (s.framesFor (128 + 2 * ceilDiv x.count 64)) with now := r.1.laneEffs c, sr := r.1.fl &&& cvSRUSED != 0 }
  | _, _ => .error (0x10, detailAt 0)

/-- QUANTIZE (R328). -/
def execQuantize (w : Work) (s : State) : Host.Outcome State Fault Refusal :=
  s.when (s.m.workReady w 0x3000) (s.m.runWork 0x3000 w blkQuantize planQuantize fun ps => some (tsqOf (ctrlTile (pw ps 0x60))))

/-- AMAX: its block. -/
def blkAmax (s : Mod) (pol : Nat) (ps : List Word) : Chk Unit := do
  lenChk ps 36
  rsvChk ps [.t 0, .w 0x20 0x00FFFFFF]
  s.tileChk pol ps 0x20

/-- AMAX returns the region's amax as F32, and whether a NaN was skipped; an empty region completes with OK_EMPTY and +0 (R83, R328). It converts nothing, so that no subnormal is
flushed. An integer format and S8 count by the values of their codes; I4 and I8 codes have none, and fail with DESC_INVALID (R79; DESIGN CHOICE, log entry 95). -/
def planAmax (s : Mod) (c : Ctx) (ps : List Word) : Chk Plan := do
  let tile := ctrlTile (pw ps 0x20)
  match ← s.operand c tile ps 0 true with
  | none => .error (0x10, detailAt 0)
  | some x =>
    x.bounds
    ensure (x.enc.fmt != .i4 && x.enc.fmt != .i8) 0x10 (detailAt 0)
    x.inTile
    if x.isEmpty then .ok (.empty []) else
    let a := amax ((List.range x.count).map fun i => (s.elemVal x false (x.co i)).1)
    let fl := if a.2 then cvNANIN else 0
    .ok { Plan.ok (rankTile tile) (some (tsqOf tile)) (cvEff .XZ_CV_FLAGS tile fl) (s.framesFor (128 + ceilDiv x.count 64)) with
            result := a.1.satF32 + (if a.2 then 2 ^ 32 else 0) }

/-- AMAX (R328). -/
def execAmax (w : Work) (s : State) : Host.Outcome State Fault Refusal :=
  s.when (s.m.workReady w 0x3001) (s.m.runWork 0x3001 w blkAmax planAmax fun ps => some (tsqOf (ctrlTile (pw ps 0x20))))

/-- HIST_READ: SLOT and DEST. -/
def blkHistRead (_ : Mod) (_ : Nat) (ps : List Word) : Chk Unit := do
  lenChk ps 16
  rsvChk ps [.w 0 0xFFFFF000, .w 4 0xFFFFFFFF, .addr 8]

/-- The counts of a slot, zero where none is kept. -/
def SlotStat.zero : SlotStat := ⟨0, 0, 0, List.replicate 32 0, 0⟩

/-- A slot's counts. -/
def Mod.slotStat (s : Mod) (n : Nat) : SlotStat := s.ue.stats.getD n .zero

/-- The 160 bytes of HIST_READ (R329). -/
def histBytes (t : SlotStat) : List Byte :=
  (t.bins.flatMap fun b => leBytes b 4) ++ leBytes t.conv 8 ++ leBytes t.flag 8 ++ leBytes t.sat 8 ++ leBytes t.step 8

/-- HIST_READ writes the slot's committed counts (R329). -/
def planHistRead (s : Mod) (c : Ctx) (ps : List Word) : Chk Plan := do
  let n := pw ps 0
  ensure (s.slotUsable c.pol n) 0x30 (detailAt 0)
  s.destChk c.pol (pq ps 8) 160 8
  .ok (resultPlan c (pq ps 8) (histBytes (s.slotStat n)))

/-- HIST_READ (R329). -/
def execHistRead (c : CmdId) (s : State) : Host.Outcome State Fault Refusal := s.when (s.m.granted c 0x3002) (s.m.runCmd c planHistRead)

/-- SLOT_CLEAR: SLOT. -/
def blkSlotClear (_ : Mod) (_ : Nat) (ps : List Word) : Chk Unit := do
  lenChk ps 4
  rsvChk ps [.w 0 0xFFFFF000]

/-- Whether a slot is step state: the loaded step program of an open step names it (R162). -/
def Mod.slotHeld (s : Mod) (p n : Nat) : Bool :=
  s.stepOpen p && match s.ue.progs.get p with
    | some sp => has sp.slots n
    | none => false

/-- SLOT_CLEAR zeroes the slot's OFS and flag arrays, 262,144 blocks a frame, and its narrowing state (R328). -/
def planSlotClear (s : Mod) (c : Ctx) (ps : List Word) : Chk Plan := do
  let n := pw ps 0
  ensure (s.slotUsable c.pol n) 0x30 (detailAt 0)
  ensure (!s.slotHeld c.pol n) 0x22 (detailAt 0)
  let b := s.fld .GS_BLOCKS_BLOCKS n
  let as := [s.pair .GS_OFS_ADDR_LO .GS_OFS_ADDR_HI n, s.pair .GS_FLAG_ADDR_LO .GS_FLAG_ADDR_HI n]
  ensure (!as.any fun a => s.readonly c.pol a b) 0x14 noDetail
  allChk (as.map fun a => s.reachChk c.pol a b)
  let k := ceilDiv b 262144
  let run (a i : Nat) := wcells (a + i * 262144) (List.replicate (min 262144 (b - i * 262144)) 0)
  .ok { Plan.ok rankUe none [.regBits .GS_BASE n 0xFFFF0000#32 0] (max 1 k) with
          units := (List.range k).map fun i => .mem c.pol (as.flatMap fun a => run a i) }

/-- SLOT_CLEAR (R328): it runs at its rate, in as many frames as it has runs of 262,144 blocks. -/
def Mod.runSlotClear (s : Mod) (c : CmdId) : Mod :=
  match s.cmd c with
  | none => s
  | some x => match planSlotClear s (s.ctxOf x) x.params with
    | .error (st, d) => if s.closedTo x then s.finish x 0x05 noDetail else s.failAt x st d
    | .ok p => s.landIn x p p.bound

/-- SLOT_CLEAR (R328). -/
def execSlotClear (c : CmdId) (s : State) : Host.Outcome State Fault Refusal := s.when (s.m.granted c 0x3003) (s.m.runSlotClear c)

end Sys2Proof.Machine
end

