-- ==== Sys2Proof/Machine/Transform.lean ====
section
/-! DEFINITION. Layout transforms of the copy engines (07_tiles_tensors_and_layout.md R202 to R208, R330, R506). -/

namespace Sys2Proof.Machine

/-- TRANSFORM: its block; XFORM 6 and 7 name no transform; TILE (R206). -/
def blkTransform (s : Mod) (pol : Nat) (ps : List Word) : Chk Unit := do
  lenChk ps 100
  rsvChk ps [.t 0, .t 0x20, .t 0x40, .w 0x60 0x00007FFF]
  s.dieChk pol ps 0x60
  ensure (decide (bits (pw ps 0x60) 20 15 < s.tilesOn (bits (pw ps 0x60) 31 30))) 0x04 (detailAt 0x60)
  ensure (decide (bits (pw ps 0x60) 27 25 < 6)) 0x04 (detailAt 0x60)

/-- The code that a read of a position gives: the stored code, or the padding value's (R199). -/
def Mod.codeOr (s : Mod) (o : Opd) (c : Co) : Nat :=
  match o.stored c with
  | some st => s.codeAt o st
  | none => if o.td.padv = 1 then (o.enc.fmt.infCode true).getD 0 else 0

/-- Stored elements of a block (R194): whole blocks have the block size, the last along the axis may be short. -/
def Opd.blockSize (o : Opd) (c : Co) : Nat :=
  let d := o.td.axis
  min o.enc.blk (at4 o.td.ext d - c.get d / o.enc.blk * o.enc.blk)

/-- Whether every destination block gets all the elements of exactly one source block (R506): pairs of destination block and source block with its size. -/
def blocksMatch (pairs : List (Nat × Option (Nat × Nat))) : Bool :=
  (dedup (pairs.map (·.1))).all fun b =>
    let mine := (pairs.filter fun p => p.1 == b).map (·.2)
    match mine with
    | some (k, n) :: _ => mine.all (· == some (k, n)) && mine.length == n
    | _ => false

/-- Whether two operands' footprints or scale arrays overlap (R206). -/
def Opd.overlaps (a b : Opd) : Bool :=
  a.loc == b.loc &&
  let ra := [(a.td.base, a.td.footLen a.enc.fmt), (a.td.sbase, a.td.scaleLen a.enc.blk)]
  let rb := [(b.td.base, b.td.footLen b.enc.fmt), (b.td.sbase, b.td.scaleLen b.enc.blk)]
  ra.any fun x => rb.any fun y => meets x.1 x.2 y.1 y.2

/-- A coordinate with two dimensions exchanged. -/
def Co.swap (c : Co) (x y : Nat) : Co :=
  let g (d : Nat) := if d = x then c.get y else if d = y then c.get x else c.get d
  (g 0, g 1, g 2, g 3)

/-- An index position's value and the code's two's complement (R202). -/
def Mod.indexAt (s : Mod) (o : Opd) (i : Nat) : Int :=
  match o.enc.fmt.decode (s.codeOr o (i, 0, 0, 0)) with
  | .fin neg m _ => if neg then -(m : Int) else m
  | _ => 0

/-- How an index resolves (R202, R203): a row, a null index, or an error. -/
inductive IdxRes where
  | row (v : Nat)
  | null
  | bad (v : Int)
  deriving DecidableEq, Repr

/-- The index of a position against a table. -/
def Mod.resolve (s : Mod) (idx table : Opd) (i : Nat) : IdxRes :=
  let v := s.indexAt idx i
  if 0 ≤ v ∧ v < (at4 table.td.ext 1 : Int) then .row v.toNat
  else if idx.td.nullNeg && v == -1 then .null
  else .bad v

/-- The index errors of a command: position in the index tensor and value (R203, R210). -/
def Mod.indexErrs (s : Mod) (idx table : Opd) : List (Nat × Nat) :=
  (List.range (at4 idx.ext 0)).filterMap fun i => match s.resolve idx table i with
    | .bad v => some (at4 idx.off 0 + i, (v % (2 ^ 64 : Nat)).toNat)
    | _ => none

/-- The stored element of a table row at the region's dimension-0 position (R202); none at padding. -/
def Opd.rowAt (o : Opd) (v i0 : Nat) : Option Co :=
  let l0 := at4 o.off 0 + i0
  let b0 := at4 o.td.bef 0
  if b0 ≤ l0 ∧ l0 < b0 + at4 o.td.ext 0 then some (l0 - b0, v, at4 o.off 2, at4 o.off 3) else none

/-- The checks that gathers and scatters make of their table and index (R202), steps 1, 3, 4 and 7 of R508. -/
structure RowOpdsX where
  table : Opd
  idx : Opd
  other : Opd
  deriving DecidableEq, Repr

/-- Handles of a table and an index tensor: INDEX set, no padding on the table's dimension 1 (R202). -/
def rowHandles (r : RowOpdsX) : Chk Unit := do
  ensure r.idx.td.index 0x10 (detailAt r.idx.po)
  ensure (at4 r.table.td.bef 1 == 0 && at4 r.table.td.aft 1 == 0) 0x10 (detailAt r.table.po)

/-- Formats of a gather or scatter (R202, R206). -/
def rowFormats (r : RowOpdsX) : Chk Unit := do
  ensure (r.table.enc.fmt == r.other.enc.fmt && r.table.enc.blk == r.other.enc.blk) 0x14 noDetail
  ensure (r.table.enc.blk == 0 || r.table.td.axis == 0) 0x14 (detailAt r.table.po)

/-- Extents of a gather or scatter (R202, R206). -/
def rowShape (r : RowOpdsX) : Chk Unit := do
  ensure (at4 r.table.ext 2 == 1 && at4 r.table.ext 3 == 1) 0x04 (detailAt r.table.po)
  ensure (at4 r.other.ext 0 == at4 r.table.ext 0 && at4 r.other.ext 1 == at4 r.idx.ext 0 && at4 r.other.ext 2 == 1 && at4 r.other.ext 3 == 1) 0x14 noDetail

/-- Whole blocks of a gather (R506): each destination block takes one block of one row. -/
def rowBlocks (r : RowOpdsX) (gather : Bool) : Bool :=
  r.table.enc.blk == 0 ||
  let n := at4 r.table.ext 0
  blocksMatch ((List.range (at4 r.idx.ext 0)).flatMap fun i => (List.range n).filterMap fun j =>
    let t := (r.table.rowAt 0 j).map fun c => (i * 2 ^ 32 + c.1 / r.table.enc.blk, r.table.blockSize c)
    let o := (r.other.stored (j, i, 0, 0)).map fun c => (r.other.td.block r.other.enc.blk c, r.other.blockSize c)
    if gather then o.map fun o => (o.1, t) else t.map fun t => (t.1, o))

/-- GATHER: rows of the table as the index resolves (R203): the destination's writes. -/
def Mod.gatherCells (s : Mod) (res : Nat → IdxRes) (r : RowOpdsX) : List WCell :=
  let n := at4 r.table.ext 0
  (List.range (at4 r.idx.ext 0)).flatMap fun i =>
    (List.range n).flatMap fun j => match r.other.stored (j, i, 0, 0) with
      | none => []
      | some st =>
        let (code, sc) := match res i with
          | .row v => match r.table.rowAt v j with
            | some t => (s.codeAt r.table t, s.scaleAt r.table t)
            | none => (if r.table.td.padv = 1 then (r.table.enc.fmt.infCode true).getD 0 else 0, 127)
          | _ => (0, 127)
        r.other.cellsAt st code ++ (if r.other.enc.blk = 0 then [] else [r.other.scaleCell (r.other.td.block r.other.enc.blk st) sc])

/-- SCATTER_WRITE: source rows to the table rows named by the index, in increasing position (R205). -/
def Mod.scatterCells (s : Mod) (r : RowOpdsX) : List WCell :=
  let n := at4 r.table.ext 0
  (List.range (at4 r.idx.ext 0)).flatMap fun i => match s.resolve r.idx r.table i with
    | .row v => (List.range n).flatMap fun j => match r.table.rowAt v j with
      | none => []
      | some t => r.table.cellsAt t (s.codeOr r.other (j, i, 0, 0))
          ++ (if r.table.enc.blk = 0 then [] else [r.table.scaleCell (r.table.td.block r.table.enc.blk t) (match r.other.stored (j, i, 0, 0) with
              | some st => s.scaleAt r.other st
              | none => 127)])
    | _ => []

/-- The reducers' kind of a format (R230). -/
def Fmt.reduceKind : Fmt → Option Nat
  | .f32 => some 0 | .w16 => some 1 | .i32 => some 2 | .i64 => some 3 | _ => none

/-- SCATTER_ADD: one contribution per element (R205, R230). -/
def Mod.scatterAdds (s : Mod) (r : RowOpdsX) : List Contrib :=
  let n := at4 r.table.ext 0
  let kind := (r.table.enc.fmt.reduceKind).getD 0
  (List.range (at4 r.idx.ext 0)).flatMap fun i => match s.resolve r.idx r.table i with
    | .row v => (List.range n).filterMap fun j => (r.table.rowAt v j).map fun t =>
        Contrib.of (r.table.td.unitAt r.table.enc.fmt t).1 kind (r.other.enc.fmt.decode (s.codeOr r.other (j, i, 0, 0)))
    | _ => []

/-- The 32-byte granules of a row of a table (R228). -/
def Opd.rowGranules (o : Opd) (v : Nat) : List Nat :=
  dedup ((List.range (at4 o.ext 0)).flatMap fun j => match o.rowAt v j with
    | none => []
    | some t => (o.td.unitAt o.enc.fmt t).1 / 32 :: (if o.enc.blk = 0 then [] else [(o.td.sbase + o.td.block o.enc.blk t) / 32]))

/-- What the narrow path of a die counts for rows of a table in device memory: granules moved, and requests served by another's read (R204, R228, R436). -/
def Mod.napEvents (s : Mod) (die : Nat) (idx table : Opd) (gather : Bool) : List Eff :=
  match table.loc with
  | .sram _ => []
  | .dev _ =>
    let reqs := (List.range (at4 idx.ext 0)).flatMap fun i => match s.resolve idx table i with
      | .row v => table.rowGranules v
      | _ => []
    let n := (dedup reqs).length
    .event die 22 n :: (if gather then [.event die 23 (reqs.length - n)] else [])

/-- A scatter-add's destination (R230, R507): device memory, each element aligned to its own size, not read-only. -/
def Mod.reduceDest (s : Mod) (o : Opd) : Chk Unit :=
  match o.loc with
  | .sram _ => .error (0x14, detailAt o.po)
  | .dev p => do
    ensure ((o.td.base :: o.td.stride).all fun a => a % o.enc.fmt.unitBytes == 0) 0x17 (detailAt o.po)
    ensure (!s.readonly p o.td.base (o.td.footLen o.enc.fmt)) 0x17 (detailAt o.po)

/-- The contributions' format against the table's (R206, R230): a reducer adds elements of their own format, and F32 to W16; others mismatch. A format without a reducer fails
placement as R206's requirements do. -/
def addFormats (r : RowOpdsX) : Chk Unit := do
  ensure r.table.enc.fmt.reduceKind.isSome 0x14 (detailAt r.table.po)
  ensure (r.table.enc.fmt == r.other.enc.fmt || r.table.enc.fmt == .w16 && r.other.enc.fmt == .f32) 0x17 noDetail
  ensure (r.table.enc.blk == 0 && r.other.enc.blk == 0) 0x14 noDetail

/-- Every SPACE = 1 tensor lies in TILE's SRAM; with none, TILE is 0 (R206). -/
def tileField (os : List Opd) (tile det : Nat) : Chk Unit := ensure (tile == 0 || os.any fun o => o.td.space == 1) 0x14 det

/-- The operands of a transform. -/
structure XfOpds where
  src : Opd
  dst : Opd
  idx : Option Opd
  deriving DecidableEq, Repr

/-- Formats and block axes of a transform (step 3 of R508; R69, R206). -/
def xfFormats (code x y : Nat) (src dst : Opd) : Chk Unit :=
  if code = 2 then do
    ensure (src.enc.fmt == dst.enc.fmt || (src.enc.fmt.isFloat && dst.enc.fmt.isFloat)) 0x18 noDetail
    ensure (dst.enc.blk == 0 || (src.enc.blk == dst.enc.blk && src.td.axis == dst.td.axis)) 0x14 noDetail
  else do
    ensure (src.enc.fmt == dst.enc.fmt && src.enc.blk == dst.enc.blk) 0x14 noDetail
    ensure (code != 1 || src.enc.blk == 0 || dst.td.axis == (if src.td.axis = x then y else if src.td.axis = y then x else src.td.axis)) 0x14 (detailAt dst.po)

/-- Extents of COPY, TRANSPOSE and CONVERT (R206). -/
def xfShape (code x y : Nat) (src dst : Opd) : Bool :=
  let e : Co := (at4 src.ext 0, at4 src.ext 1, at4 src.ext 2, at4 src.ext 3)
  let e := if code = 1 then e.swap x y else e
  [0, 1, 2, 3].all fun d => e.get d == at4 dst.ext d

/-- Whole blocks of COPY, TRANSPOSE and CONVERT (R506). -/
def xfBlocks (code x y : Nat) (src dst : Opd) : Bool :=
  dst.enc.blk == 0 || !xfShape code x y src dst ||
  blocksMatch ((List.range dst.count).filterMap fun i =>
    let c := dst.co i
    (dst.stored c).map fun st => (dst.td.block dst.enc.blk st, (src.stored (if code = 1 then c.swap x y else c)).map fun sc =>
      (src.td.block src.enc.blk sc, src.blockSize sc)))

/-- COPY, TRANSPOSE and CONVERT as conversions of the destination's elements in linear order: writes and flags. -/
def Mod.xfConv (s : Mod) (c : Ctx) (ce code x y : Nat) (src dst : Opd) : Conv :=
  let from_ (i : Nat) : Co := let c := dst.co i; if code = 1 then c.swap x y else c
  let same := src.enc.fmt == dst.enc.fmt && (dst.enc.blk != 0 || src.enc.blk == 0)
  let exact := exactInto src.enc.fmt dst.enc.fmt && (dst.enc.blk != 0 || src.enc.blk == 0)
  -- the source value: without its scale where the destination keeps the scale (R206)
  let val (sc : Co) : Val × CvFlags := match src.stored sc with
    | none => (src.td.pad, 0)
    | some st => if dst.enc.blk ≠ 0 then (let v := src.enc.fmt.source dst.enc.sub (s.codeAt src st); (v.1, if s.scaleAt src st = 255 then v.2 ||| cvNANIN else v.2)) else s.elemVal src dst.enc.sub sc
  let scales := if dst.enc.blk = 0 then [] else (List.range dst.count).filterMap fun i => match dst.stored (dst.co i), src.stored (from_ i) with
    | some st, some sc => some (dst.scaleCell (dst.td.block dst.enc.blk st) (s.scaleAt src sc))
    | _, _ => none
  let items := (List.range dst.count).map fun i =>
    let sc := from_ i
    let v := if same then (Val.zero, 0) else val sc
    (({ lane := i % 16, dst := dst.stored (dst.co i), x := v.1, exact := exact, raw := if same then some (s.codeOr src sc) else none, pad := (src.stored sc).isNone } : Item), v.2)
  let fl := items.foldl (fun a i => if i.1.dst.isSome then a ||| i.2 else a) (0 : CvFlags)
  -- an identity takes no draw and sets no flag of the converter
  let its := items.map fun i => if i.1.raw.isSome then { i.1 with exact := true } else i.1
  let v := (Conv.start c).plain { dst with enc := { dst.enc with slot := none } } (unitNo 3 (ce / 4) (ce % 4)) its
  { v with cells := v.cells ++ scales, fl := v.fl ||| fl
           cSat := if dst.enc.slot.isSome && dst.enc.blk == 0 && v.fl &&& cvSAT != 0 then 1 else 0 }

/-- The checks of TRANSFORM in the order of R508: the operands, and whether the command is empty. -/
def chkXf (s : Mod) (c : Ctx) (ps : List Word) : Chk (XfOpds × Bool) := do
  let w := pw ps 0x60
  let code := bits w 27 25
  let x := bits w 24 23
  let y := bits w 22 21
  let t := bits w 20 15
  let tile := bits w 31 30 * 48 + t
  let src? ← s.operand c tile ps 0 true
  let dst? ← s.operand c tile ps 0x20 true
  let idx ← if 3 ≤ code then s.operand c tile ps 0x40 true else .ok none
  match src?, dst? with
  | some src, some dst =>
    let r : Option RowOpdsX := idx.map fun i => if code = 3 then ⟨src, i, dst⟩ else ⟨dst, i, src⟩
    let rows (f : RowOpdsX → Chk Unit) : Chk Unit := match r with
      | some r => f r
      | none => .ok ()
    rows rowHandles
    src.bounds
    dst.bounds
    optChk idx Opd.bounds
    s.slotChk c src
    s.slotChk c dst
    if code < 3 then xfFormats code x y src dst else rows (if code = 5 then addFormats else rowFormats)
    tileField (src :: dst :: idx.toList) t (detailAt 0x60)
    if code = 5 then s.reduceDest dst else do
      ensure (!src.overlaps dst) 0x14 noDetail
      s.destPlace dst
      ensure (if code < 3 then xfBlocks code x y src dst else match r with
        | some r => rowBlocks r (code == 3)
        | none => true) 0x14 (detailAt 0x20)
    dst.writable
    if src.isEmpty || dst.isEmpty || (match idx with
      | some i => i.isEmpty
      | none => false) then .ok (⟨src, dst, idx⟩, true)
    else do
      if code < 3 then ensure (xfShape code x y src dst) 0x14 noDetail else rows rowShape
      s.opdSeal src false false
      s.opdSeal dst (code != 5) false
      optChk idx fun i => s.opdSeal i false false
      .ok (⟨src, dst, idx⟩, false)
  | _, _ => .error (0x10, detailAt 0)

/-- Whether an operand's row v in device memory holds a poisoned granule of the region's part (R236). -/
def Mod.rowPoison (s : Mod) (o : Opd) (v : Nat) : Bool :=
  match o.loc with
  | .sram _ => false
  | .dev p => !s.mem.poison.isEmpty && (o.rowGranules v).any fun g => s.poisoned p (32 * g) 32

/-- The traffic of the rows of a table that an index names, a granule at a time (R225, R228): of kind 1 or, for contributions, 3. -/
def Mod.rowTraffic (s : Mod) (r : RowOpdsX) (kind : Nat) : List (Nat × Nat × Nat) :=
  match r.table.loc with
  | .sram _ => []
  | .dev _ => (dedup ((List.range (at4 r.idx.ext 0)).flatMap fun i => match s.resolve r.idx r.table i with
    | .row v => r.table.rowGranules v
    | _ => [])).map fun g => (kind, 32 * g, 32)

/-- Whether a gather consumes poisoned data: in its index, or in a row that the index names (R202, R236). -/
def Mod.gatherPoison (s : Mod) (r : RowOpdsX) : Bool :=
  s.opdPoison r.idx || (!s.mem.poison.isEmpty && (List.range (at4 r.idx.ext 0)).any fun i => match s.resolve r.idx r.table i with
    | .row v => s.rowPoison r.table v
    | _ => false)

/-- A list in runs of n at most. -/
def runsOf {α : Type} (n : Nat) (l : List α) : List (List α) := (List.range (ceilDiv l.length n)).map fun i => (l.drop (i * n)).take n

/-- The masked writes of a copy engine in the runs in which they become visible (R208): 256 bytes at a time. -/
def Loc.runs (l : Loc) (cells : List WCell) : List Eff := (runsOf 256 cells).map l.eff

/-- The work of a transform whose checks passed: its writes and contributions become visible frame by frame (R208). -/
def xfWork (s : Mod) (c : Ctx) (ps : List Word) (o : XfOpds) : Plan :=
  let w := pw ps 0x60
  let code := bits w 27 25
  let ce := ctrlCe w
  let die := bits w 31 30
  let bytes := (if 4 ≤ code then (match o.idx with
      | some i => at4 i.ext 0
      | none => 0) else at4 o.dst.ext 1 * at4 o.dst.ext 2 * at4 o.dst.ext 3) * (ceilDiv (at4 o.dst.ext 0) o.dst.enc.fmt.unitElems * o.dst.enc.fmt.unitBytes)
  let moved : List (Nat × Nat × Nat) := match o.idx with
    | some i => i.traffic false ++ (if code = 3 then s.rowTraffic ⟨o.src, i, o.dst⟩ 1 ++ o.dst.traffic true
        else o.src.traffic false ++ s.rowTraffic ⟨o.dst, i, o.src⟩ (if code = 4 then 1 else 3))
    | none => o.src.traffic false ++ o.dst.traffic true
  let bound := max (s.framesFor (160 + ceilDiv (5 * ceilDiv bytes 256) 4 + 800)) (s.qFrames c.pol moved)
  if (match o.idx with
    | some i => if code = 3 then s.gatherPoison ⟨o.src, i, o.dst⟩ else s.opdPoison o.src || s.opdPoison i
    | none => s.opdPoison o.src) then poisonPlan c else
  let errs (r : RowOpdsX) : List Eff := match s.indexErrs r.idx r.table with
    | [] => []
    | l => [.indexErr c.pol die code r.idx.handle l]
  let base (units effs : List Eff) (st : Nat) : Plan :=
    { Plan.ok (rankCe die (ce % 4)) (some (ceOf ce)) effs bound with status := st, units := units, note := noteTiles (tilesOf (o.src :: o.dst :: o.idx.toList)) }
  let rows (r : RowOpdsX) (es : List Eff) : Plan := base es (errs r ++ s.napEvents die r.idx r.table (code == 3)) (if (s.indexErrs r.idx r.table).isEmpty then 0x00 else 0x13)
  match o.idx with
  | some i =>
    if code = 3 then rows ⟨o.src, i, o.dst⟩ (o.dst.loc.runs (s.gatherCells (s.resolve i o.src) ⟨o.src, i, o.dst⟩))
    else if code = 4 then rows ⟨o.dst, i, o.src⟩ (o.dst.loc.runs (s.scatterCells ⟨o.dst, i, o.src⟩))
    else rows ⟨o.dst, i, o.src⟩ ((runsOf 64 (s.scatterAdds ⟨o.dst, i, o.src⟩)).map (.reduce c.pol))
  | none =>
    let v := s.xfConv c ce code (bits w 24 23) (bits w 22 21) o.src o.dst
    { base (o.dst.loc.runs v.cells) (v.events die ++ cvEff .CE_CV_FLAGS ce v.fl) 0x00 with now := v.laneEffs c, sr := v.fl &&& cvSRUSED != 0 }

/-- TRANSFORM: the plan (R206, R330). -/
def planTransform (s : Mod) (c : Ctx) (ps : List Word) : Chk Plan := do
  let (o, empty) ← chkXf s c ps
  .ok (if empty then .empty [] else xfWork s c ps o)

/-- Run a transform. -/
def Mod.runXf (s : Mod) (w : Work) : Mod := s.runWork 0x4003 w blkTransform planTransform fun ps => some (ceOf (ctrlCe (pw ps 0x60)))

/-- Whether a transform of this code may run now. -/
def Mod.xfReady (s : Mod) (w : Work) (code : Nat) : Bool := s.workReady w 0x4003 && bits (pw (s.workParams w) 0x60) 27 25 == code

/-- COPY (R206). -/
def execCopy (w : Work) (s : State) : Host.Outcome State Fault Refusal := s.when (s.m.xfReady w 0) (s.m.runXf w)

/-- TRANSPOSE (R206). -/
def execTranspose (w : Work) (s : State) : Host.Outcome State Fault Refusal := s.when (s.m.xfReady w 1) (s.m.runXf w)

/-- CONVERT (R206). -/
def execConvert (w : Work) (s : State) : Host.Outcome State Fault Refusal := s.when (s.m.xfReady w 2) (s.m.runXf w)

/-- GATHER (R206). -/
def execGather (w : Work) (s : State) : Host.Outcome State Fault Refusal := s.when (s.m.xfReady w 3) (s.m.runXf w)

/-- SCATTER_WRITE (R206). -/
def execScatterWrite (w : Work) (s : State) : Host.Outcome State Fault Refusal := s.when (s.m.xfReady w 4) (s.m.runXf w)

/-- SCATTER_ADD (R206). -/
def execScatterAdd (w : Work) (s : State) : Host.Outcome State Fault Refusal := s.when (s.m.xfReady w 5) (s.m.runXf w)

end Sys2Proof.Machine
end

