-- ==== Sys2Proof/Machine/Embed.lean ====
section
/-! DEFINITION. The embedding service, class 0x7 (R34, R339 to R341). -/

namespace Sys2Proof.Machine

/-- A staging object's head as committed (R340): width, group, CAP, S and G, with its object. -/
structure StageHead where
  obj : Nat
  base : Nat
  width : Nat
  group : Nat
  cap : Nat
  stride : Nat
  grad : Nat
  deriving DecidableEq, Repr

/-- The head of a live staging object. -/
def Mod.stageHead (s : Mod) (p n : Nat) : Option StageHead :=
  (s.obj p n).map fun o =>
    let h (k : Nat) := s.getN p (o.base + 4 * k) 4
    ⟨n, o.base, h 0 / 65536, h 0 % 4096, h 1, h 3, h 4⟩

/-- The rows that hold entries of a staging object in the step, in entry order. -/
def Mod.stageRows (s : Mod) (p n : Nat) : List Nat := s.ue.staging.getD (objKey p n) []

/-- The rows with those that take entries in this frame. -/
def Mod.stageRowsNow (s : Mod) (p n : Nat) : List Nat :=
  s.stageRows p n ++ s.stg.flatMap fun e => match e.eff with
    | .stageUse q m rows => if q = p ∧ m = n then rows else []
    | _ => []

/-- S of R340. -/
def stageStride (width : Nat) : Nat := 64 * ceilDiv (4 * width) 64

/-- G of R340. -/
def stageGrad (cap : Nat) : Nat := 64 * ceilDiv (64 + 8 * cap) 64

/-- Entries of a lookup's positions, taken in increasing order (R341): rows that newly take entries, and for each position its entry, none for −1, with
whether it counts as an index error. -/
def assignEntries (cap : Nat) (held : List Nat) (res : List IdxRes) : List Nat × List (Option Nat × Bool) :=
  res.foldl (fun (acc : List Nat × List (Option Nat × Bool)) r => match r with
    | .row v =>
      let rows := held ++ acc.1
      match rows.findIdx? (· == v) with
      | some i => (acc.1, acc.2 ++ [(some i, false)])
      | none => if rows.length < cap then (acc.1 ++ [v], acc.2 ++ [(some rows.length, false)]) else (acc.1, acc.2 ++ [(none, true)])
    | .null => (acc.1, acc.2 ++ [(none, false)])
    | .bad _ => (acc.1, acc.2 ++ [(none, true)])) ([], [])

/-- EMB_LOOKUP: its block; a STAGING object needs PK_OPCODE.STEP (R341). -/
def blkEmbLookup (step : Bool) (s : Mod) (pol : Nat) (ps : List Word) : Chk Unit := do
  lenChk ps 132
  rsvChk ps [.t 0, .t 0x20, .t 0x40, .t 0x60, .w 0x80 0x0FC00000]
  s.dieChk pol ps 0x80
  ensure (decide (bits (pw ps 0x80) 21 16 < s.tilesOn (bits (pw ps 0x80) 31 30))) 0x04 (detailAt 0x80)
  ensure (step || pw ps 0x80 % 65536 == 0) 0x04 (detailAt 0x80)

/-- The checks of a lookup in the order of R508; whether it is empty. -/
def chkLookup (s : Mod) (c : Ctx) (ps : List Word) : Chk (RowOpdsX × Option Opd × Bool) := do
  let w := pw ps 0x80
  let tile := bits w 31 30 * 48 + bits w 21 16
  let t? ← s.operand c tile ps 0 true
  let i? ← s.operand c tile ps 0x20 true
  let d? ← s.operand c tile ps 0x40 true
  let map ← s.operand c tile ps 0x60 false
  match t?, i?, d? with
  | some table, some idx, some dst =>
    let r : RowOpdsX := ⟨table, idx, dst⟩
    rowHandles r
    table.bounds
    idx.bounds
    dst.bounds
    optChk map Opd.bounds
    s.slotChk c table
    s.slotChk c dst
    rowFormats r
    optChk map fun m => ensure (m.enc.fmt == .i32) 0x14 (detailAt 0x60)
    tileField (table :: idx :: dst :: map.toList) (bits w 21 16) (detailAt 0x80)
    ensure (!table.overlaps dst) 0x14 noDetail
    s.destPlace dst
    optChk map s.destPlace
    ensure (rowBlocks r true) 0x14 (detailAt 0x40)
    dst.writable
    optChk map Opd.writable
    if table.isEmpty || dst.isEmpty || idx.isEmpty then .ok (r, map, true) else do
      rowShape r
      optChk map fun m => ensure (at4 m.ext 0 == at4 idx.ext 0 && at4 m.ext 1 == 1 && at4 m.ext 2 == 1 && at4 m.ext 3 == 1) 0x04 noDetail
      ensure (w % 65536 == 0 || (s.obj c.pol (w % 65536)).isSome) 0x04 (detailAt 0x80)
      s.opdSeal table false true
      s.opdSeal idx false false
      s.opdSeal dst true false
      optChk map fun m => s.opdSeal m true false
      .ok (r, map, false)
  | _, _, _ => .error (0x10, detailAt 0)

/-- Device memory as the embedding service sees it while pass two runs: rows that it has written show the previous values, which their staging entries hold (R268). -/
def Mod.embView (s : Mod) (p : Nat) : Mod :=
  ((s.stepOf p).elim [] (·.pass.rows)).foldl (fun t r => t.putMem p (wcells r.1 (s.getBs p r.2.1 r.2.2))) s

/-- The work of a lookup: rows as committed (R34), entries of the staging object at sluice e, and the map. -/
def lookupWork (s : Mod) (c : Ctx) (ps : List Word) (r : RowOpdsX) (map : Option Opd) : Plan :=
  let w := pw ps 0x80
  let ce := ctrlCe w
  let die := bits w 31 30
  let n := at4 r.idx.ext 0
  if s.gatherPoison r then poisonPlan c else
  let res := (List.range n).map (s.resolve r.idx r.table)
  let seen := s.embView c.pol
  let head := if w % 65536 = 0 then none else s.stageHead c.pol (w % 65536)
  let (rows, ents) : List Nat × List (Option Nat × Bool) := match head with
    | some h => assignEntries h.cap (s.stageRowsNow c.pol h.obj) res
    | none => ([], res.map fun (x : IdxRes) => match x with
        | .bad _ => (none, true)
        | _ => (none, false))
  -- a position without a free entry is served as an error: zero codes (worked example of chapter 11)
  let res' (i : Nat) : IdxRes := match ents[i]? with
    | some (_, true) => .bad 0
    | _ => (res[i]?).getD .null
  let errs : List (Nat × Nat) := (List.range n).filterMap fun i => match ents[i]? with
    | some (_, true) => some (at4 r.idx.off 0 + i, (s.indexAt r.idx i % (2 ^ 64 : Nat)).toNat)
    | _ => none
  let bytes := n * (ceilDiv (at4 r.other.ext 0) r.other.enc.fmt.unitElems * r.other.enc.fmt.unitBytes)
  let mapCells := match head, map with
    | some _, some m => (List.range n).flatMap fun i => match m.stored (i, 0, 0, 0) with
      | some st => m.cellsAt st (match ents[i]? with
          | some (some e, _) => e
          | _ => 0xFFFFFFFF)
      | none => []
    | _, _ => []
  { Plan.ok (rankCe die (ce % 4)) (some (ceOf ce))
      ((if errs.isEmpty then [] else [.indexErr c.pol die 3 r.idx.handle errs]) ++ .event (4 + c.pol) 20 n :: s.napEvents die r.idx r.table true)
      (max (s.framesFor (160 + ceilDiv (5 * ceilDiv bytes 256) 4 + 800)) (s.qFrames c.pol (r.idx.traffic false ++ s.rowTraffic r 1 ++ r.other.traffic true ++ map.toList.flatMap fun m => m.traffic true))) with
    status := if errs.isEmpty then 0x00 else 0x13
    units := r.other.loc.runs (seen.gatherCells res' r) ++ match map with
      | some m => m.loc.runs mapCells
      | none => []
    now := match head with
      | some h => if rows.isEmpty then [] else [.stageUse c.pol h.obj rows]
      | none => []
    note := noteTiles (tilesOf (r.table :: r.idx :: r.other :: map.toList)) }

/-- EMB_LOOKUP: the plan. -/
def planEmbLookup (s : Mod) (c : Ctx) (ps : List Word) : Chk Plan := do
  let (r, map, empty) ← chkLookup s c ps
  .ok (if empty then .empty [] else lookupWork s c ps r map)

/-- Whether a program's work belongs to the step. -/
def Mod.workStep (s : Mod) (w : Work) : Bool :=
  match w with
  | .packet c => match s.cmd c with
    | some x => x.step
    | none => false
  | .program r _ => match s.prog r with
    | some p => p.step
    | none => false

/-- EMB_LOOKUP (R339): lookups that name one staging object act in acceptance order, for each holds it alone (R286, R341). -/
def execEmbLookup (w : Work) (s : State) : Host.Outcome State Fault Refusal :=
  s.when (s.m.workReady w 0x7000) (s.m.runWork 0x7000 w (blkEmbLookup (s.m.workStep w)) planEmbLookup fun ps => some (ceOf (ctrlCe (pw ps 0x80))))

/-- EMB_SCATTER_ADD: its block. -/
def blkEmbScatterAdd (s : Mod) (pol : Nat) (ps : List Word) : Chk Unit := do
  lenChk ps 100
  rsvChk ps [.t 0, .t 0x20, .t 0x40, .w 0x60 0x0FC0FFFF]
  s.dieChk pol ps 0x60
  ensure (decide (bits (pw ps 0x60) 21 16 < s.tilesOn (bits (pw ps 0x60) 31 30))) 0x04 (detailAt 0x60)

/-- EMB_SCATTER_ADD adds as SCATTER_ADD, under R34 (R339). -/
def planEmbScatterAdd (s : Mod) (c : Ctx) (ps : List Word) : Chk Plan := do
  let w := pw ps 0x60
  let tile := bits w 31 30 * 48 + bits w 21 16
  let t? ← s.operand c tile ps 0 true
  let i? ← s.operand c tile ps 0x20 true
  let x? ← s.operand c tile ps 0x40 true
  match t?, i?, x? with
  | some table, some idx, some src =>
    let r : RowOpdsX := ⟨table, idx, src⟩
    rowHandles r
    table.bounds
    idx.bounds
    src.bounds
    s.slotChk c table
    s.slotChk c src
    addFormats r
    tileField [table, idx, src] (bits w 21 16) (detailAt 0x60)
    s.reduceDest table
    table.writable
    if table.isEmpty || src.isEmpty || idx.isEmpty then return .empty []
    rowShape r
    s.opdSeal idx false false
    s.opdSeal src false false
    s.opdSeal table false true
    if s.opdPoison src || s.opdPoison idx then return poisonPlan c
    let ce := ctrlCe w
    let errs := s.indexErrs idx table
    let bytes := at4 idx.ext 0 * (ceilDiv (at4 table.ext 0) table.enc.fmt.unitElems * table.enc.fmt.unitBytes)
    .ok { Plan.ok (rankCe (ce / 4) (ce % 4)) (some (ceOf ce))
            ((if errs.isEmpty then [] else [.indexErr c.pol (ce / 4) 5 idx.handle errs]) ++ s.napEvents (ce / 4) idx table false)
            (max (s.framesFor (160 + ceilDiv (5 * ceilDiv bytes 256) 4 + 800)) (s.qFrames c.pol (idx.traffic false ++ src.traffic false ++ s.rowTraffic r 3))) with
          status := if errs.isEmpty then 0x00 else 0x13
          units := (runsOf 64 (s.scatterAdds r)).map (.reduce c.pol)
          note := noteTiles (tilesOf [table, idx, src]) }
  | _, _, _ => .error (0x10, detailAt 0)

/-- EMB_SCATTER_ADD (R339). -/
def execEmbScatterAdd (w : Work) (s : State) : Host.Outcome State Fault Refusal :=
  s.when (s.m.workReady w 0x7001) (s.m.runWork 0x7001 w blkEmbScatterAdd planEmbScatterAdd fun ps => some (ceOf (ctrlCe (pw ps 0x60))))

/-- EMB_STAGE_BIND: OBJECT, GROUP, CAPACITY. -/
def blkEmbStageBind (_ : Mod) (_ : Nat) (ps : List Word) : Chk Unit := do
  lenChk ps 12
  rsvChk ps [.w 0 0xFFFF0000, .w 4 0xFFFFF000]

/-- EMB_STAGE_BIND writes the head of a staging object for a row group (R340). -/
def planEmbStageBind (s : Mod) (c : Ctx) (ps : List Word) : Chk Plan := do
  let n := pw ps 0
  let g := s.group (pw ps 4)
  let cap := pw ps 8
  match s.obj c.pol n with
  | none => .error (0x56, detailAt 0)
  | some o =>
    ensure (s.groupUsable c.pol (pw ps 4) && g.isRow) 0x34 (detailAt 4)
    ensure (cap != 0 && decide (stageGrad cap + stageStride g.width * cap ≤ o.pages * 2 ^ 21)) 0x56 (detailAt 8)
    ensure (!(s.stepOpen c.pol && ((s.ue.progs.get c.pol).any (fun sp => has sp.stages n) || !(s.stageRows c.pol n).isEmpty))) 0x22 (detailAt 0)
    s.destChk c.pol o.base 64 0
    .ok (resultPlan c o.base (leBytes (g.width * 65536 + g.num) 4 ++ leBytes cap 4 ++ leBytes 0 4 ++ leBytes (stageStride g.width) 4 ++ leBytes (stageGrad cap) 4
      ++ List.replicate 44 0))

/-- EMB_STAGE_BIND (R340). -/
def execEmbStageBind (c : CmdId) (s : State) : Host.Outcome State Fault Refusal := s.when (s.m.granted c 0x7002) (s.m.runCmd c planEmbStageBind)

end Sys2Proof.Machine
end

