-- ==== Sys2Proof/Machine/Links.lean ====
section
/-! DEFINITION. Zwiet links: training, flits, messages, routes and delivery (12_links_and_board.md R344 to R368). -/

namespace Sys2Proof.Machine

/-! ## Links -/

/-- A transmitter with nothing to send. -/
def LinkTx.none : LinkTx := ⟨[], [[], [], [], []], [], false, [0, 0, 0, 0], false, false⟩

/-- A link as reset leaves it (R372). -/
def LinkS.zero : LinkS := ⟨.disabled, 0, false, false, 0, 0, 0, .none, [0, 0, 0, 0], [0, 0, 0, 0], [], [], 0⟩

/-- A link by number. -/
def Mod.link (s : Mod) (l : Nat) : LinkS := s.zl.links.getD l .zero

/-- The state with a link set. -/
def Mod.setLink (s : Mod) (l : Nat) (v : LinkS) : Mod := { s with zl := { s.zl with links := s.zl.links.set l v } }

/-- Credits of a fresh link by channel (R355). -/
def linkCredits : List Nat := [16, 32, 448, 128]

/-- Whether a polder is in a reset of its own, of the hub or of the module. -/
def Mod.polderReset (s : Mod) (p : Nat) : Bool := s.rel.resets.any fun r => (r.kind == 4 && r.index == p) || r.kind == 2 || r.kind == 5

/-- A link leaves UP: unacknowledged flits, what was still to send, and partial messages are discarded, DOWN_EVENT and the LINK alert set (R349). -/
def Mod.leaveUp (s : Mod) (l : Nat) (st : LinkSt) (cause : Nat) : Mod :=
  let k := s.link l
  let s := s.setLink l { k with st := st, cause := cause, rising := false, wasDown := k.wasDown || st != .disabled, sent := 0, acked := 0, expect := 0, tx := .none, partials := [], credits := [0, 0, 0, 0], leftAt := if k.st = .up then s.fc.num + 1 else k.leftAt }
  if k.st = .up then (s.raise .ZL_STATUS_DOWN_EVENT l).alertAll .CQ_ALERT_CAUSE_LINK else s

/-- The link groups of the module toward a slot, in increasing number (R361). -/
def groupsTo (topo mine slot : Nat) : List Nat :=
  let quad (j : Nat) := [2 * j, 2 * j + 1]
  if topo = 1 then (if mine < 2 ∧ slot + mine = 1 then [0, 1, 2, 3, 4, 5, 6, 7] else [])
  else if topo = 2 then
    (if mine = slot then [] else if mine = 8 then (if slot < 4 then quad slot else []) else if 4 ≤ mine then []
      else if slot = 8 then quad mine else if slot < 4 then quad slot else [])
  else if topo = 3 then
    (if mine = slot then [] else if mine = 8 then (if slot < 8 then [slot] else []) else if slot = 8 then [mine] else if slot < 8 then [slot] else [])
  else if topo = 4 then
    (if 8 ≤ mine then [] else (if slot = (mine + 1) % 8 then [0, 1, 2, 3] else []) ++ (if slot = (mine + 7) % 8 then [4, 5, 6, 7] else []))
  else []

/-- The slot that the topology names for a link's group, if it uses the group (R361, R362). -/
def Mod.slotOfLink (s : Mod) (l : Nat) : Option Nat :=
  (List.range 9).find? fun j => has (groupsTo (s.fld .ZL_TOPO_TOPO 0) (s.fld .ZL_NODE_SLOT 0) j) (l / 4)

/-- A link starts training; in a module whose slot is none of the nine it stays DOWN with cause ID (R348, R474). -/
def Mod.beginTraining (s : Mod) (l : Nat) : Mod :=
  let k := s.link l
  s.setLink l (if 8 < s.fld .ZL_NODE_SLOT 0 then { k with st := .down, cause := 6 } else { k with st := .training, cause := 0 })

/-- Whether a link is in training. -/
def Mod.training (s : Mod) (l : Nat) : Bool := ((s.link l).st == .training || (s.link l).st == .retrain) && !(s.link l).rising

/-- What the module's own training flits carry on a link (R347). -/
def Mod.ownId (s : Mod) (l : Nat) : PeerId :=
  ⟨BitVec.ofNat 16 (s.fld .HC_ID_PART 0), BitVec.ofNat 8 (s.fld .HC_ID_STEPPING 0), BitVec.ofNat 4 (s.fld .ZL_NODE_SLOT 0), BitVec.ofNat 4 (s.fld .ZL_NODE_NODE 0), BitVec.ofNat 8 l,
   BitVec.ofNat 5 s.log2, BitVec.ofNat 8 (Nat.log2 (s.fld .HC_CONTRACT_LEVELS 0))⟩

/-- Training ends for a link whose lanes locked as given and whose peer sent its training flits, or not yet; with its lanes locked the link sends its own (R347, R348, R362). -/
def Mod.trainLink (s : Mod) (l : Nat) (lanes : BitVec 8) (peer : Option PeerId) : Mod :=
  let s := s.setFld .ZL_STATUS_LANES_OK l lanes.toNat
  let k := s.link l
  if lanes ≠ 0xFF#8 then s.setLink l { k with st := .down, cause := 2, wasDown := true }
  else
    let s := s.emit (.training l (s.ownId l))
    match peer with
    | none => s
    | some q =>
      let s := s.put .ZL_PEER l (BitVec.ofNat 32 (q.slot.toNat * 2 ^ 20 + q.node.toNat * 2 ^ 16 + q.link.toNat * 256 + q.log2.toNat * 8))
      if s.slotOfLink l = some q.slot.toNat then s.setLink l { k with rising := true, sent := 0, acked := 0, expect := 0, tx := .none, credits := linkCredits, partials := [] }
      else s.setLink l { k with st := .down, cause := 6, wasDown := true }

/-- LINK_TRAINING (R347). -/
def execLinkTraining (l : Fin 32) (lanes : BitVec 8) (peer : Option PeerId) (s : State) : Host.Outcome State Fault Refusal :=
  s.when (s.m.training l) (s.m.trainLink l lanes peer)

/-- TRAIN_TIMEOUT: training not complete within 120 ms (R348). -/
def execTrainTimeout (l : Fin 32) (s : State) : Host.Outcome State Fault Refusal :=
  s.when (s.m.training l) (s.m.setLink l { s.m.link l with st := .down, cause := 3, wasDown := true })

/-- RETRAIN_INTERVAL: a DOWN link with ENABLE set trains again (R348). -/
def execRetrainInterval (l : Fin 32) (s : State) : Host.Outcome State Fault Refusal :=
  s.when ((s.m.link l).st == .down && s.m.bit .ZL_CTRL_ENABLE l) (s.m.beginTraining l)

/-- LANE_LOCK_LOSS: RETRAIN, or DOWN with LOSS when every lane loses its signal (R349). -/
def execLaneLockLoss (l : Fin 32) (allLost : Bool) (s : State) : Host.Outcome State Fault Refusal :=
  s.when ((s.m.link l).st == .up || (allLost && s.m.training l)) (s.m.leaveUp l (if allLost then .down else .retrain) (if allLost then 1 else 2))

/-- ACK_TIMEOUT: flits outstanding and no acknowledgement for 2 µs (R349). -/
def execAckTimeout (l : Fin 32) (s : State) : Host.Outcome State Fault Refusal :=
  s.when ((s.m.link l).st == .up && (s.m.link l).sent != (s.m.link l).acked) (s.m.leaveUp l .retrain 4)

/-- Links that finished training become UP at the sluice (R347). -/
def Mod.raiseLinks (s : Mod) : Mod :=
  (List.range 32).foldl (fun s l =>
    let k := s.link l
    if k.rising then
      let s := s.setLink l { k with st := .up, rising := false, wasDown := false, cause := 0 }
      if k.wasDown then s.raiseNow .ZL_STATUS_RETRAINED l else s
    else s) s

/-! ## Sending -/

/-- F(k) of R357: flits of a link in a frame. -/
def flitsPerFrame (log2 : Nat) : Nat := (2 ^ log2 - 128) * 225 / 1024

/-- The route entry of an endpoint: LOOP, HOPS, SLOT, MASK (R363, R374). -/
def Mod.route (s : Mod) (e : Nat) : Option (Bool × Nat × Nat × Nat) :=
  if s.bit .ZL_ROUTE_VALID e then some (s.bit .ZL_ROUTE_LOOP e, s.fld .ZL_ROUTE_HOPS e, s.fld .ZL_ROUTE_SLOT e, s.fld .ZL_ROUTE_MASK e) else none

/-- The links of a route: those of its neighbour's masked groups (R363). -/
def Mod.routeLinks (s : Mod) (e : Nat) : List Nat :=
  match s.route e with
  | some (false, _, slot, mask) =>
    ((groupsTo (s.fld .ZL_TOPO_TOPO 0) (s.fld .ZL_NODE_SLOT 0) slot).zipIdx.filter fun g => mask.testBit g.2).flatMap fun g => [0, 1, 2, 3].map fun i => 4 * g.1 + i
  | _ => []

/-- The bytes of a message: header, body, and zeros to 8 bytes (R353). -/
def Msg.bytes (m : Msg) : List Byte :=
  leBytes (m.dst * 2 ^ 26 + m.src * 2 ^ 20 + m.kind * 2 ^ 16 + m.body.length % 32768) 4 ++ leBytes m.a 4 ++ leBytes m.b 8 ++ m.body
    ++ List.replicate (ceilDiv m.body.length 8 * 8 - m.body.length) 0

/-- The bytes of a channel's messages of the frame that no flit holds yet. -/
def LinkTx.left (x : LinkTx) (vc : Nat) : Nat := ((x.waits.getD vc []).map (·.2.length)).sum

/-- Whether a message fits in the rest of a link's frame: the flits of its channel that were sent, and those that the waiting bytes and its own would fill (R353, R356, R357). -/
def Mod.roomOn (s : Mod) (l : Nat) (m : Msg) : Bool :=
  let k := s.link l
  let n (v : Nat) : Nat := k.used.getD v 0 + ceilDiv (k.tx.left v + if v = m.vc then m.bytes.length else 0) 232
  if m.vc = 0 then decide (n 0 ≤ 4) else if m.vc = 1 then decide (n 1 ≤ 4) else decide (n 2 + n 3 ≤ flitsPerFrame s.log2 - 8)

/-- A message joins the byte stream of its channel on a link in this frame (R353). -/
def Mod.sendOn (s : Mod) (l : Nat) (m : Msg) : Mod :=
  let k := s.link l
  let p := m.src % 4
  let mine := m.src / 4 == s.fld .ZL_NODE_NODE 0
  let x := k.tx
  let x := { x with waits := setNth x.waits m.vc (x.waits.getD m.vc [] ++ [(if mine ∧ 2 ≤ m.vc then p + 1 else 0, m.bytes)])
                    srcs := if mine ∧ m.kind < 4 then addOnce x.srcs p else x.srcs }
  (s.setLink l { k with tx := x }).hubEvent s.fc.num p 16 (if mine ∧ m.kind = 4 then 1 else 0)

/-- CRC-32C of bytes, reflected, as polynomial 0x1EDC_6F41 is commonly applied (R350; log entry 30). -/
def crc32c (bs : List Byte) : Nat :=
  let bit (c : Nat) := if c % 2 = 1 then (c / 2) ^^^ 0x82F63B78 else c / 2
  (bs.foldl (fun c b => bit (bit (bit (bit (bit (bit (bit (bit (c ^^^ b.toNat))))))))) 0xFFFFFFFF) ^^^ 0xFFFFFFFF

/-- The 256 bytes of a flit whose header has a value (R350). -/
def flitBytes (header : Nat) (data : List Byte) : List Byte :=
  let body := leBytes header 8 ++ data
  let all := body ++ leBytes (crc32c body) 4
  all ++ leBytes (Config.linkParity all).toNat 12

/-- The header of a flit that a link sends now: what it returns to its peer, and the flit's own number, channel and frame (R351). -/
def LinkS.header (k : LinkS) (f : Flit) : Nat :=
  let cv := (k.tx.back.findIdx? fun n => decide (0 < n)).getD 0
  min 255 (k.tx.back.getD cv 0) * 2 ^ 56 + cv * 2 ^ 54 + (if k.tx.nak then 2 ^ 53 else 0) + (k.expect + 4095) % 4096 * 2 ^ 41 + f.seq * 2 ^ 29 + f.vc * 2 ^ 16 + f.frame

/-- A flit leaves on a link; its header returns the credits of one channel, the last flit received in sequence, and a NAK that is owed (R351, R352, R355). -/
def Mod.putFlit (s : Mod) (l : Nat) (f : Flit) : Mod :=
  let k := s.link l
  let cv := (k.tx.back.findIdx? fun n => decide (0 < n)).getD 0
  (s.setLink l { k with tx := { k.tx with nak := false, owes := false, back := setNth k.tx.back cv (k.tx.back.getD cv 0 - 255) } }).emit (.flit l (flitBytes (k.header f) f.data))

/-- A payload of 232 bytes: messages' bytes, and a PAD header where they end before it does (R353). -/
def padded (bs : List Byte) : List Byte := (bs ++ [0, 0, 15, 0] ++ List.replicate 232 0).take 232

/-- A new flit takes the link's next sequence number and a place in its replay buffer (R358). -/
def Mod.newFlit (s : Mod) (l vc : Nat) (data : List Byte) : Mod :=
  let k := s.link l
  let f : Flit := ⟨vc, k.sent, s.fc.num % 65536, padded data, 1⟩
  (s.setLink l { k with sent := (k.sent + 1) % 4096, tx := { k.tx with replay := k.tx.replay ++ [f] } }).putFlit l f

/-- Up to n bytes from the front of a channel's messages. -/
def takeStream : Nat → List (Nat × List Byte) → List (Nat × List Byte) × List (Nat × List Byte)
  | _, [] => ([], [])
  | n, x :: rest =>
    if n = 0 then ([], x :: rest)
    else if x.2.length ≤ n then match takeStream (n - x.2.length) rest with
      | (a, b) => (x :: a, b)
    else ([(x.1, x.2.take n)], (x.1, x.2.drop n) :: rest)

/-- The channel that a link serves next: VC 0 first, VC 1 second, VC 2 and VC 3 in turn, of those with bytes and a credit (R355). -/
def LinkS.nextVc (k : LinkS) : Option Nat :=
  (if k.tx.turn then [0, 1, 3, 2] else [0, 1, 2, 3]).find? fun v => !(k.tx.waits.getD v []).isEmpty && decide (0 < k.credits.getD v 0)

/-- Flits leave an UP link one after the other, while a channel has bytes and a credit and the replay buffer has room for its 128 (R355, R358). -/
def Mod.flushLink (l : Nat) : Nat → Mod → Mod
  | 0, s => s
  | n + 1, s =>
    let k := s.link l
    if k.st ≠ .up ∨ 128 ≤ k.tx.replay.length then s else
    match k.nextVc with
    | none => s
    | some v =>
      let (took, rest) := takeStream 232 (k.tx.waits.getD v [])
      let s := s.setLink l { k with credits := setNth k.credits v (k.credits.getD v 0 - 1), used := setNth k.used v (k.used.getD v 0 + 1)
                                    tx := { k.tx with waits := setNth k.tx.waits v rest, turn := if 2 ≤ v then v == 2 else k.tx.turn } }
      let s := (dedup (took.map (·.1))).foldl (fun s p => if p = 0 then s else s.hubEvent s.fc.num (p - 1) 14 1) s
      Mod.flushLink l n (s.newFlit l v (took.flatMap (·.2)))

/-- What a link still owes its peer goes out in a flit of padding alone, which takes no credit and is none of the frame's flits (log entry 29). -/
def Mod.answer (s : Mod) (l : Nat) : Mod :=
  let k := s.link l
  if k.st = .up ∧ k.tx.owes ∧ k.tx.replay.length < 128 then s.newFlit l 0 [] else s

/-- The links whose frame ends with flits unsent: their transmitters overrun (R357). -/
def Mod.unsent (s : Mod) : List Engine :=
  (List.finRange 32).filterMap fun (l : Fin 32) => if (s.link l).st = .up ∧ [0, 1, 2, 3].any (fun v => !((s.link l).tx.waits.getD v []).isEmpty) then some (.link l) else none

/-- The link at which a message is counted that no UP link of its route can take: the first of its route, else of its neighbour, else link 0 (log entry 99). -/
def Mod.dropLink (s : Mod) (e : Nat) : Nat :=
  match s.routeLinks e, s.route e with
  | l :: _, _ => l
  | [], some (_, _, slot, _) => 4 * (groupsTo (s.fld .ZL_TOPO_TOPO 0) (s.fld .ZL_NODE_SLOT 0) slot).headD 0
  | [], none => 0

/-- One message that is due: to the module's own hub, to one UP link of its route in round-robin, dropped and counted with no link UP, or kept until there is room
(R353, R363). -/
def Mod.sendOne (s : Mod) (m : Msg) : Mod × Bool :=
  match s.route m.dst with
  | none => (s.countLater .ZL_DROP (s.dropLink m.dst) 1, true)
  | some (true, _, _, _) =>
    let k := s.link 32
    (s.setLink 32 { k with inbox := k.inbox ++ [{ m with at_ := s.fc.num + 1, frame := s.fc.num }] }, true)
  | some (false, _, _, _) =>
    let up := (s.routeLinks m.dst).filter fun l => (s.link l).st == .up
    if up.isEmpty then (s.countLater .ZL_DROP (s.dropLink m.dst) 1, true)
    else
      let last := s.zl.rr.getD m.dst 0
      let order := (up.filter fun l => decide (last ≤ l)) ++ up.filter fun l => decide (l < last)
      match order.find? fun l => s.roomOn l m with
      | none => (s, false)
      | some l => ({ s.sendOn l m with zl := { (s.sendOn l m).zl with rr := s.zl.rr.set m.dst (l + 1) } }, true)

/-- Messages due in this frame join their links, as far as there is room, and flits leave (R353, R355, R363). -/
def Mod.pump (s : Mod) : Mod :=
  let q := s.zl.sendq
  let s := q.foldl (fun s m =>
    if s.fc.num < m.at_ then { s with zl := { s.zl with sendq := s.zl.sendq ++ [m] } }
    else match s.sendOne m with
      | (s, true) => s
      | (s, false) => { s with zl := { s.zl with sendq := s.zl.sendq ++ [m] } }) { s with zl := { s.zl with sendq := [] } }
  (List.range 32).foldl (fun s l => Mod.flushLink l 128 s) s

/-- Queue a message to be sent in a frame. -/
def Mod.send (s : Mod) (m : Msg) : Mod := { s with zl := { s.zl with sendq := s.zl.sendq ++ [m] } }

/-- The start of a frame on the links: the frame's flit counts start anew, an IDLE message goes out on every UP link (R354, R356), and due messages are sent. -/
def Mod.startLinks (s : Mod) : Mod :=
  let s := (List.range 32).foldl (fun s l =>
    let k := s.link l
    let s := if k.used = [0, 0, 0, 0] ∧ k.tx.srcs = [] then s else s.setLink l { k with used := [0, 0, 0, 0], tx := { k.tx with srcs := [] } }
    if (s.link l).st = .up then
      s.sendOn l ⟨0, 6, 0, 0, s.log2 * 2 ^ 27 + s.fld .FC_SYNC_STATUS_LOCKED 0 * 2 ^ 26 + s.fld .ZL_NODE_SLOT 0 * 2 ^ 16 + s.fld .ZL_NODE_NODE 0 * 2 ^ 12,
        s.fc.num, [], 0, 0⟩
    else s) s
  s.pump

/-! ## Receiving -/

/-- The channel of a message kind (R354). -/
def kindVc (kind : Nat) : Option Nat :=
  if kind = 0 ∨ kind = 1 ∨ kind = 5 then some 2 else if kind = 2 ∨ kind = 3 then some 1 else if kind = 4 then some 3 else if kind = 6 ∨ kind = 7 then some 0 else none

/-- Messages of a channel's byte stream: complete messages, the bytes of one that goes on, and how many are malformed (R353). -/
def parseStream (vc at_ frame : Nat) : Nat → List Byte → List Msg × List Byte × Nat
  | 0, _ => ([], [], 0)
  | fuel + 1, bs =>
    if bs.length < 8 then ([], [], 0)
    else
      let w := leNat (bs.take 4)
      let kind := bits w 19 16
      if kind = 15 then ([], [], 0)
      else if bs.length < 16 then ([], bs, 0)
      else
        let len := if bits w 15 0 = 0 ∧ (kind = 0 ∨ kind = 1 ∨ kind = 5) then 32768 else bits w 15 0
        if len % 4 ≠ 0 ∨ 32768 < len then ([], [], 1)
        else
          let total := 16 + ceilDiv len 8 * 8
          if bs.length < total then ([], bs, 0)
          else
            let m : Msg := ⟨vc, kind, bits w 25 20, bits w 31 26, leNat ((bs.drop 4).take 4), leNat ((bs.drop 8).take 8), (bs.drop 16).take len, at_, frame⟩
            match parseStream vc at_ frame fuel (bs.drop total) with
            | (ms, rest, e) => (m :: ms, rest, e)

/-- Whether an endpoint is one of the module: a polder that its layout has (R354, R363). -/
def Mod.ownEndpoint (s : Mod) (e : Nat) : Bool := e / 4 == s.fld .ZL_NODE_NODE 0 && decide (e % 4 < s.polders)

/-- A received message enters the link's inbox, is forwarded in the frame after the sluice that makes it visible (R364), or is discarded and counted (R354). -/
def Mod.takeMsg (s : Mod) (l : Nat) (m : Msg) : Mod :=
  let bad := s.countLater .ZL_PROTO_ERR l 1
  match kindVc m.kind with
  | none => bad
  | some v =>
    if v ≠ m.vc then bad
    else if m.kind = 6 ∨ m.kind = 7 ∨ s.ownEndpoint m.dst then let k := s.link l; s.setLink l { k with inbox := k.inbox ++ [m] }
    else if m.dst / 4 = s.fld .ZL_NODE_NODE 0 then bad
    else match s.route m.dst with
      | some _ => s.send { m with at_ := m.at_ + 1 }
      | none => bad

/-- Whether a rejoin reads this link's IDLE messages, whose frame tags are not the module's (R367, R368). -/
def Mod.rejoinOn (s : Mod) (l : Nat) : Bool :=
  match s.zl.rejoin with
  | some (k, _, none) => k == l
  | _ => false

/-- Messages that came too late are lost: a ROWADD sets ROW_LOST, and the open step of its polder, which the sender's is, reports PEER (R359). -/
def Mod.loseMsgs (s : Mod) (l : Nat) (ms : List Msg) : Mod :=
  let rows := ms.filter fun m => m.kind == 4
  if rows.isEmpty then s else
  let hit (p : Nat) : Bool := rows.any fun m => s.ownEndpoint m.dst && m.dst % 4 == p
  let s := s.raise .ZL_STATUS_ROW_LOST l
  { s with ue := { s.ue with steps := s.ue.steps.map fun p st => if hit p then { st with reasons := st.reasons ||| 2 ^ 9 } else st } }

/-- The polders of the module for whose endpoints a payload carries bytes: the messages that end in it, and the one that goes on. -/
def Mod.forPolders (s : Mod) (ms : List Msg) (rest : List Byte) : List Nat :=
  let ds := ms.map (·.dst) ++ if rest.isEmpty then [] else [bits (leNat (rest.take 4)) 31 26]
  dedup ((ds.filter s.ownEndpoint).map (· % 4))

/-- The payload of a flit in sequence (R48, R353): accepted with the frame number g or g − 1; else its messages are lost, and it is counted (R359). -/
def Mod.takePayload (s : Mod) (l vc tag : Nat) (bs : List Byte) : Mod :=
  let g := s.fc.num
  let at? := if tag = g % 65536 then some (g + 1) else if tag = (g + 65535) % 65536 then some g else if vc = 0 ∧ s.rejoinOn l then some g else none
  let k := s.link l
  -- a partial message goes on only in flits of its own frame tag
  let old := (k.partials.find? fun p => p.1 == vc && p.2.1 == tag).map (·.2.2)
  match parseStream vc (at?.getD 0) tag 64 (old.getD [] ++ bs) with
  | (ms, rest, e) =>
    let parts := k.partials.filter fun p => p.1 != vc
    let s := s.setLink l { k with partials := if rest.isEmpty then parts else parts ++ [(vc, tag, rest)] }
    match at? with
    | none => ((s.countLater .ZL_SKEW l 1).countFldLater .FC_SYNC_STATUS_SKEW_COUNT 0 1).loseMsgs l ms
    | some _ =>
      let s := if vc < 2 then s else (s.forPolders ms rest).foldl (fun s p => s.hubEvent s.fc.num p 15 1) s
      ms.foldl (fun s m => s.takeMsg l m) (if e = 0 then s else s.countLater .ZL_PROTO_ERR l e)

/-- A NAK: every flit after the last acknowledged one is sent again, in order; one that was sent 8 times ends in RETRAIN (R349, R358). -/
def Mod.resend (s : Mod) (l : Nat) : Mod :=
  let k := s.link l
  if k.tx.replay.isEmpty then s
  else if k.tx.replay.any fun f => decide (8 ≤ f.times) then s.leaveUp l .retrain 4
  else
    let fs := k.tx.replay.map fun f => { f with times := f.times + 1 }
    fs.foldl (fun s f => s.putFlit l f) ((s.setLink l { k with tx := { k.tx with replay := fs } }).countLater .ZL_RETRY l 1)

/-- The acknowledgement and credits of the header of a flit in sequence (R351, R358). -/
def Mod.takeHeader (s : Mod) (l h : Nat) : Mod :=
  let k := s.link l
  let cv := bits h 55 54
  let k := { k with credits := setNth k.credits cv (min (linkCredits.getD cv 0) (k.credits.getD cv 0 + bits h 63 56)) }
  let next := (bits h 52 41 + 1) % 4096
  let got := (next + 4096 - k.acked) % 4096
  let k := if got ≤ k.tx.replay.length then { k with acked := next, tx := { k.tx with replay := k.tx.replay.drop got } } else k
  let s := s.setLink l k
  if h.testBit 53 then s.resend l else s

/-- A flit that is dropped: it is counted, and the next header carries a NAK (R352). -/
def Mod.dropFlit (s : Mod) (l : Nat) : Mod :=
  let k := s.link l
  ((s.countLater .ZL_CRC_ERR l 1).setLink l { k with tx := { k.tx with nak := true, owes := true } }).answer l

/-- A flit as corrected by its parity (R352; log entry 31). -/
def Mod.takeFlit (s : Mod) (l : Nat) (flit : List Byte) (corrected : Nat) : Mod :=
  let s := if corrected = 0 then s else s.countLater .ZL_FEC_CORR l corrected
  let k := s.link l
  let h := leNat (flit.take 8)
  if crc32c (flit.take 240) ≠ leNat ((flit.drop 240).take 4) then s.dropFlit l
  else if bits h 28 18 ≠ 0 then s.countLater .ZL_PROTO_ERR l 1
  else if bits h 40 29 ≠ k.expect then s.dropFlit l
  else
    let vc := bits h 17 16
    let data := (flit.drop 8).take 232
    -- the credit of a payload goes back; padding alone took none (log entry 29)
    let pad := leNat (data.take 4) / 65536 % 16 == 15 && !k.partials.any fun p => p.1 == vc
    let back := if pad then k.tx.back else setNth k.tx.back vc (k.tx.back.getD vc 0 + 1)
    let s := s.setLink l { k with expect := (k.expect + 1) % 4096, tx := { k.tx with back := back, owes := true } }
    let s := s.takeHeader l h
    if (s.link l).st ≠ .up then s else ((s.takePayload l vc (bits h 15 0) data).pump).answer l

/-- FLIT_RECEIVE (R352). -/
def execFlitReceive (l : Fin 32) (flit : List Byte) (corrected : Nat) (s : State) : Host.Outcome State Fault Refusal :=
  s.when ((s.m.link l).st == .up && flit.length == 256) (s.m.takeFlit l flit corrected)

/-! ## Messages made visible -/

/-- The first message of a kind in a link's inbox that the sluice of this frame makes visible, and the state without it. -/
def Mod.popMsg (s : Mod) (l kind : Nat) : Option (Msg × Mod) :=
  let k := s.link l
  match k.inbox.find? fun m => m.kind == kind && decide (m.at_ ≤ s.fc.num) with
  | some m => some (m, s.setLink l { k with inbox := k.inbox.erase m })
  | none => none

/-- The sluice until which an endpoint holds a message: H hops after its first sending, whatever its route (R254, R364). -/
def Mod.heldUntil (s : Mod) (p : Nat) (m : Msg) : Nat :=
  let hops := match s.route m.src with
    | some (_, h, _, _) => max 1 h
    | none => 1
  m.at_ - hops + max 1 (s.fld .UE_RG_CTRL_HOPS p)

/-- The first message of a kind in a link's inbox that its endpoint holds until this frame's sluice (R254), and the state without it. -/
def Mod.popHeld (s : Mod) (l kind : Nat) : Option (Msg × Mod) :=
  let k := s.link l
  match k.inbox.find? fun m => m.kind == kind && decide (s.heldUntil (m.dst % 4) m ≤ s.fc.num) with
  | some m => some (m, s.setLink l { k with inbox := k.inbox.erase m })
  | none => none

/-- A row that handles a message of a kind at the sluice until which it is held. -/
def State.onHeld (s : State) (l : Fin 32) (kind : Nat) (f : Mod → Msg → Mod) : Host.Outcome State Fault Refusal :=
  match s.m.popHeld l kind with
  | some (m, t) => .next { s with m := f t m }
  | none => .refused .notEnabled

/-- A row that handles a message of a kind. -/
def State.onMsg (s : State) (l : Fin 32) (kind : Nat) (f : Mod → Msg → Mod) : Host.Outcome State Fault Refusal :=
  match s.m.popMsg l kind with
  | some (m, t) => .next { s with m := f t m }
  | none => .refused .notEnabled

/-- Whether a polder's rank map names an endpoint (R364). -/
def Mod.rankNames (s : Mod) (p e : Nat) : Bool := (List.range 64).any fun r => s.bit .ZL_RANK_VALID (p * 64 + r) && s.fld .ZL_RANK_ENDPOINT (p * 64 + r) == e

/-- A refusal of the dike counts at its polder, at the frame's sluice (R28, R418). -/
def Mod.denied (s : Mod) (p : Nat) : Mod := s.countLater .SP_DIKE_DENIED p 1

/-- Deliver a message to its polder: nothing while the polder is in reset, and nothing that the dike refuses (R354, R364). -/
def Mod.deliver (s : Mod) (m : Msg) (f : Mod → Nat → Mod) : Mod :=
  let p := m.dst % 4
  if s.polderReset p then s
  else if s.polders ≤ p then s
  else if !s.rankNames p m.src then s.denied p
  else f s p

/-- A rejoin fails: ARM is cleared, and the module keeps its own count. -/
def Mod.failRejoin (s : Mod) (reason : Nat) : Mod :=
  ((({ s with zl := { s.zl with rejoin := none }, fc := { s.fc with astray := true } }).setFld .ZL_REJOIN_ARM 0 0).setFld .ZL_REJOIN_STATUS_REASON 0 reason).raise .ZL_REJOIN_STATUS_FAIL 0

/-- An IDLE message (R354): the peer's frame and node; a rejoin reads the first that is LOCKED (R368). -/
def Mod.onIdle (l : Nat) (s : Mod) (m : Msg) : Mod :=
  let s := (s.stage (rankLink l) (.reg .ZL_PEER_FRAME_LO l (BitVec.ofNat 32 m.b))).stage (rankLink l) (.reg .ZL_PEER_FRAME_HI l (BitVec.ofNat 32 (m.b / 2 ^ 32)))
  let s := s.setFld .ZL_PEER_NODE l (bits m.a 15 12)
  match s.zl.rejoin with
  | some (k, f, none) =>
    if k = l ∧ m.a.testBit 26 then
      if bits m.a 31 27 = s.log2 then { s with zl := { s.zl with rejoin := some (k, f, some m.b) } }
      else s.failRejoin 2
    else s
  | _ => s

/-- IDLE (R354). -/
def execIdle (l : Fin 32) (s : State) : Host.Outcome State Fault Refusal := s.onMsg l 6 (Mod.onIdle l)

/-- MGMT: delivered to the management controller, whose functions the spec does not give (R354; log entry 32). -/
def execMgmt (l : Fin 32) (s : State) : Host.Outcome State Fault Refusal := s.onMsg l 7 fun m _ => m

/-- An XFER message writes its bytes at the destination in step 4 (R45, R354); bytes outside every object and in read-only objects are dropped. -/
def Mod.onXfer (l : Nat) (s : Mod) (m : Msg) : Mod :=
  s.deliver m fun s p =>
    if s.mapped p m.b m.body.length && !s.readonly p m.b m.body.length then s.stage (rankLink l) (.mem p (wcells m.b m.body)) else s.denied p

/-- XFER (R354). -/
def execXfer (l : Fin 32) (s : State) : Host.Outcome State Fault Refusal := s.onMsg l 5 (Mod.onXfer l)

/-- A ROWADD message becomes contributions of the next frame (R355): to the gradient row of the table row's staging entry, which a row that has none takes,
or to the table row itself where no staging object of the loaded program is bound to its group (R267; log entry 33). -/
def Mod.onRowadd (l : Nat) (s : Mod) (m : Msg) : Mod :=
  s.deliver m fun s p =>
    let s := s.hubEvent s.fc.num p 16 1
    let g := s.group (m.a % 4096)
    let row := m.b % 2 ^ 40
    let vals := (List.range (m.body.length / 4)).map fun i => f32Val (leNat ((m.body.drop (4 * i)).take 4))
    let add (s : Mod) (addr : Nat → Nat) (kind : Nat) : Mod :=
      let cs := vals.zipIdx.map fun v => Contrib.of (addr v.2) kind v.1
      { s with ue := { s.ue with later := s.ue.later ++ [(s.fc.num + 1, ⟨rankLink l, none, none, .reduce p cs⟩)] } }
    if !(s.groupUsable p (m.a % 4096) && g.isRow) || m.body.length != 4 * g.width || decide (g.count ≤ row) then s.denied p
    else
      let heads := ((s.ue.progs.get p).elim [] (·.stages)).filterMap fun n => (s.stageHead p n).filter fun h => h.group == g.num
      match heads.findSome? (fun h => ((s.stageRowsNow p h.obj).findIdx? (· == row)).map fun i => (h, i)) with
      | some (h, i) => add s (fun j => h.base + h.grad + h.stride * i + 4 * j) 0
      | none => match heads.find? (fun h => decide ((s.stageRowsNow p h.obj).length < h.cap)) with
        | some h =>
          let i := (s.stageRowsNow p h.obj).length
          add (s.stage (rankLink l) (.stageUse p h.obj [row])) (fun j => h.base + h.grad + h.stride * i + 4 * j) 0
        | none => if heads.isEmpty then add s (fun j => g.base + row * g.width * 2 + 2 * j) 1 else s

/-- ROWADD (R355). -/
def execRowadd (l : Fin 32) (s : State) : Host.Outcome State Fault Refusal := s.onMsg l 4 (Mod.onRowadd l)

/-! ## Rejoin -/

/-- REJOIN_NO_PEER: no usable IDLE message within 64 frames of the commit (R368). -/
def Mod.rejoinLate (s : Mod) : Bool :=
  match s.zl.rejoin with
  | some (_, f, none) => s.sluiceB.any fun g => decide (f + 64 ≤ g + 1)
  | _ => false

end Sys2Proof.Machine
end

