-- ==== Sys2Proof/Machine/Buckets.lean ====
section
/-! DEFINITION. Gradient buckets: declaration, closing, the two stages of their reduction, and pass one (09_gradient_exchange_and_update.md R244 to R254,
R261, R262). -/

namespace Sys2Proof.Machine

/-! ## Declaration -/

/-- The payload format of a bucket. -/
def Bucket.fmt (b : Bucket) : Fmt := if b.bfmt = 6 then .w16 else .f32

/-- Payload elements of a bucket. -/
def Bucket.elems (b : Bucket) : Nat := (b.segs.map fun x => x.2.1).sum

/-- Payload bytes of a bucket. -/
def Bucket.bytes (b : Bucket) : Nat := b.elems * b.fmt.unitBytes

/-- The bucket that a header declares, idle, due at a sluice (R245, R246). -/
def Mod.bucketAt (s : Mod) (p addr due : Nat) (owner : Option (Nat × Nat)) : Bucket :=
  let h (k : Nat) := s.getN p (addr + 4 * k) 4
  let seg := h 4 + 2 ^ 32 * bits (h 5) 15 0
  { addr := addr, num := bits (h 0) 11 0, bfmt := bits (h 0) 27 24, size := bits (h 1) 10 0 * 65536, weir := bits (h 2) 13 0, due := due
    part := h 6 + 2 ^ 32 * bits (h 7) 15 0
    segs := (List.range (bits (h 5) 31 16)).map fun i =>
      (s.getN p (seg + 16 * i) 2 % 4096, s.getN p (seg + 16 * i + 4) 4, s.getN p (seg + 16 * i + 8) 6 % 2 ^ 40)
    state := 0, cause := 0, failed := false, final := false, sat := false, nonfinite := false, contrib := 0, filled := false, cut := false, closed := none, s1at := 0
    s1done := false, sum := [], got := [], ownDone := false, present := [], finalAt := none, passOne := false, owner := owner }

/-- The buffers of a bucket: the result buffer and one partial buffer for each die of its polder (R244). -/
def Mod.bucketBufs (s : Mod) (b : Bucket) : List (Nat × Nat) :=
  (b.addr, b.size) :: (List.range (4 / max 1 s.polders)).map fun d => (b.part + d * b.size, b.size)

/-- The checks of one bucket, with its groups' checks for a step (R247); the detail names the parameter that names it. -/
def Mod.bucketChk (s : Mod) (p addr det : Nat) (groups : Bool) : Chk Unit := do
  ensure (s.mapped p addr 64) 0x16 det
  let h (k : Nat) := s.getN p (addr + 4 * k) 4
  let seg := h 4 + 2 ^ 32 * bits (h 5) 15 0
  let n := bits (h 5) 31 16
  ensure (s.mapped p seg (16 * n)) 0x16 det
  let b := s.bucketAt p addr 0 none
  ensure ((s.bucketBufs b).all fun x => s.mapped p x.1 x.2) 0x16 det
  ensure (!((addr, 64) :: s.bucketBufs b).any fun x => s.readonly p x.1 x.2) 0x14 det
  ensure (decide (16 ≤ bits (h 1) 10 0 ∧ bits (h 1) 10 0 ≤ 1024)) 0x35 det
  ensure (b.bfmt == 6 || b.bfmt == 7) 0x35 det
  ensure (bits (h 0) 31 28 == 0 && bits (h 0) 23 12 == 0 && bits (h 1) 31 11 == 0 && bits (h 2) 31 14 == 0 && bits (h 7) 31 16 == 0 && bits (h 9) 29 8 == 0 && h 13 == 0 && h 14 == 0
    && h 15 == 0 && bits (h 4) 3 0 == 0 && bits (h 6) 15 0 == 0) 0x35 det
  ensure ((List.range n).all fun i => s.getN p (seg + 16 * i) 4 / 4096 == 0 && s.getN p (seg + 16 * i + 13) 3 == 0) 0x35 det
  ensure (decide (b.bytes ≤ b.size - 64)) 0x35 det
  if groups then do
    ensure (b.segs.all fun x => s.groupUsable p x.1 && !(s.group x.1).isRow) 0x34 det
    ensure (b.segs.all fun x => decide (x.2.2 + x.2.1 ≤ (s.group x.1).count)) 0x35 det
  else .ok ()

/-- The checks of a list of buckets against one another (R247). -/
def Mod.bucketsChk (s : Mod) (bs : List Bucket) : Bool :=
  let ok (a b : Bucket) : Bool := a.num != b.num && (s.bucketBufs a).all fun x => (s.bucketBufs b).all fun y => !meets x.1 x.2 y.1 y.2
  let segs := bs.flatMap (·.segs)
  let apart : List (Nat × Nat × Nat) → Bool := fun l => (pairs l).all fun x => x.1.1 != x.2.1 || !meets x.1.2.2 x.1.2.1 x.2.2.2 x.2.2.1
  (pairs bs).all (fun x => ok x.1 x.2) && apart segs
where
  /-- The pairs of entries at two places of a list. -/
  pairs {α : Type} : List α → List (α × α)
    | [] => []
    | x :: rest => rest.map (fun y => (x, y)) ++ pairs rest

/-! ## Buckets in the state -/

/-- The buckets of a polder: of its step and of REDUCE commands. -/
def Mod.bkts (s : Mod) (p : Nat) : List Bucket := s.ue.buckets.getD p []

/-- A polder's bucket by number. -/
def Mod.bkt (s : Mod) (p n : Nat) : Option Bucket := (s.bkts p).find? (·.num == n)

/-- The state with a polder's buckets set. -/
def Mod.setBkts (s : Mod) (p : Nat) (l : List Bucket) : Mod :=
  { s with ue := { s.ue with buckets := if l.isEmpty then s.ue.buckets.del p else s.ue.buckets.set p l } }

/-- The BH_STATUS word. -/
def Bucket.status (b : Bucket) : Nat :=
  b.state * 2 ^ 30 + b.cause * 16 + (if b.failed then 8 else 0) + (if b.final then 4 else 0) + (if b.sat then 2 else 0) + (if b.nonfinite then 1 else 0)

/-- A bucket's status and contributions as its header holds them: BH_STATUS and BH_CONTRIB. -/
def Bucket.cells (b : Bucket) : List WCell := wcells (b.addr + 0x24) (leBytes b.status 4 ++ leBytes b.contrib 8)

/-- A write of the hub's buckets: staged in the frame that runs (R46), made at once while a sluice is being taken. -/
def Mod.writeAt (s : Mod) (p : Nat) (cells : List WCell) : Mod :=
  if s.fc.window.isNone then s.stage rankBucket (.mem p cells) else s.writeLate ⟨rankBucket, none, none, .mem p cells⟩

/-- The state with a polder's bucket changed, and its header written. -/
def Mod.setBkt (s : Mod) (p : Nat) (b : Bucket) : Mod :=
  (s.setBkts p ((s.bkts p).map fun x => if x.num = b.num then b else x)).writeAt p b.cells

/-- The header of a bucket that opens: status, contributions and element count (R245, R248). -/
def Mod.openBkt (p : Nat) (s : Mod) (b : Bucket) : Mod :=
  s.writeAt p (wcells (b.addr + 0x24) (leBytes b.status 4 ++ leBytes 0 8 ++ leBytes b.elems 4))

/-- A point in a bucket's life is traced and counted in its polder's bank (R437, R443). -/
def Mod.noteBkt (s : Mod) (p f : Nat) (b : Bucket) (i n : Nat) : Mod :=
  (s.note p f (.of 8 (5 * 65536) b.num b.status (((s.ue.steps.get p).map (·.num)).getD 0) 0)).hubEvent f p i n

/-- Whether a bucket is in flight (R249). -/
def Bucket.inFlight (b : Bucket) : Bool := b.state == 2 && !b.failed

/-- Buckets in flight in a polder (R249). -/
def Mod.inFlight (s : Mod) (p : Nat) : Nat := ((s.bkts p).filter (·.inFlight)).length

/-! ## The reduction group (R251) -/

/-- N of a polder's reduction group. -/
def Mod.members (s : Mod) (p : Nat) : Nat := s.fld .UE_RG_CTRL_MEMBERS_M1 p + 1

/-- The polder's rank. -/
def Mod.rank (s : Mod) (p : Nat) : Nat := s.fld .UE_RG_CTRL_RANK p

/-- H of a polder's reduction group. -/
def Mod.hops (s : Mod) (p : Nat) : Nat := max 1 (s.fld .UE_RG_CTRL_HOPS p)

/-- The endpoint of a rank. -/
def Mod.endpoint (s : Mod) (p r : Nat) : Nat := s.fld .ZL_RANK_ENDPOINT (p * 64 + r)

/-- The rank of an endpoint in a polder's group. -/
def Mod.rankOf (s : Mod) (p e : Nat) : Option Nat :=
  (List.range (s.members p)).find? fun r => s.bit .ZL_RANK_VALID (p * 64 + r) && s.endpoint p r == e

/-- The polder's own endpoint (R363). -/
def Mod.self (s : Mod) (p : Nat) : Nat := s.fld .ZL_NODE_NODE 0 * 4 + p

/-- A message to a rank of the group, due in a frame. -/
def Mod.sendRank (s : Mod) (p r vc kind a b frame : Nat) (body : List Byte) : Mod :=
  s.send ⟨vc, kind, s.self p, s.endpoint p r, a, b, body, frame, 0⟩

/-- The other ranks of the group. -/
def Mod.peers (s : Mod) (p : Nat) : List Nat := (List.range (s.members p)).filter (· != s.rank p)

/-- The elements of shard j: its first, and its length (R252). -/
def shardOf (e n j : Nat) : Nat × Nat := (j * e / n, (j + 1) * e / n - j * e / n)

/-! ## Failure and completion -/

/-- The first failure of a bucket is recorded (R276). -/
def Mod.firstFail (s : Mod) (p : Nat) (b : Bucket) : Mod :=
  if s.bit .UE_BKT_FIRST_FAIL_VALID p then s else s.put .UE_BKT_FIRST_FAIL p (BitVec.ofNat 32 (2 ^ 31 + b.cause * 2 ^ 24 + b.num))

/-- A REDUCE command completes at sluice f, its bucket with it (R333). -/
def Mod.endReduce (s : Mod) (p f status : Nat) (b : Bucket) : Mod :=
  match b.owner with
  | none => s
  | some (q, k) =>
    let s := s.setBkts p ((s.bkts p).filter fun x => x.num != b.num)
    match s.cq.cmds.find? fun c => !c.mgmt && c.qn == q && c.seq == k with
    | some c => s.setCmd { c with phase := .decided, status := status, detail := noDetail, fin := f }
    | none => s

/-- A bucket fails (R249, R253). -/
def Mod.failBkt (s : Mod) (p f cause : Nat) (b : Bucket) : Mod :=
  let b := { b with failed := true, cause := cause, sum := [], got := [] }
  let s := ((s.setBkt p b).firstFail p b).noteBkt p f b 7 1
  s.endReduce p f 0x44 b

/-- A bucket whose every element is present, or of which no element but every member's result header is, becomes FINAL at sluice f (R248, R252). -/
def Mod.bktFinal (s : Mod) (p f : Nat) (b : Bucket) : Mod :=
  if b.final || !b.s1done || (b.present.map (·.2)).sum < b.elems || b.elems == 0 && (decide (b.present.length + 1 < s.members p) || decide (1 < s.members p) && !b.ownDone) then s.setBkt p b else
  let b := { b with final := true, finalAt := some f, sum := [], got := [], state := if b.owner.isSome then 3 else b.state }
  let s := (s.setBkt p b).noteBkt p f b 6 1
  s.endReduce p f (if b.elems = 0 then 0x01 else 0x00) b

/-- Payload codes as bytes. -/
def Bucket.payload (b : Bucket) (codes : List Nat) : List Byte := codes.flatMap fun c => leBytes c b.fmt.unitBytes

/-- Payload elements written into the result buffer, as the hub's bucket writes (R46). -/
def Mod.putPayload (s : Mod) (p : Nat) (b : Bucket) (at_ : Nat) (codes : List Nat) : Mod × Bucket :=
  (s.writeAt p (wcells (b.addr + 64 + at_ * b.fmt.unitBytes) (b.payload codes)),
   { b with present := if codes.isEmpty then b.present else b.present ++ [(at_, codes.length)] })

/-! ## Closing and stage 1 -/

/-- A bucket closes at sluice f (R248, R249): BH_STEP and STATE are written, and stage 1 ends within the bound of R250 (log entry 6). -/
def Mod.closeBkt (s : Mod) (p f num : Nat) (b : Bucket) : Mod :=
  let full := decide (256 ≤ s.inFlight p)
  if full then (s.writeAt p (wcells (b.addr + 0x20) (leBytes num 4))).failBkt p f 2 { b with state := 2, closed := some f } else
    let m := spanOf (2 + ceilDiv b.bytes (1600 * s.budget)) (6 :: b.num :: s.placeOf b.owner.isNone p)
    let s := s.noteBkt p f { b with state := 2 } 8 b.bytes
    (s.setBkt p { b with state := 2, closed := some f, s1at := f + m }).writeAt p (wcells (b.addr + 0x20) (leBytes num 4))

/-- Whether a step's bucket closes at the sluice that is being taken: its fill weir released it. -/
def Mod.fillDone (s : Mod) (p n : Nat) : Bool :=
  s.sluiceB.isSome && match s.bkt p n with
  | some b => b.state == 1 && b.filled && !b.failed && b.owner.isNone
  | none => false

/-- BUCKET_CLOSE closes a step's bucket at the sluice that is being taken. -/
def Mod.onBucketClose (s : Mod) (p n : Nat) : Mod :=
  match s.bkt p n with
  | some b => s.closeBkt p s.fc.num (((s.stepOf p).map (·.num)).getD 0) b
  | none => s

/-- F32 addition in a reduction, and whether a NaN or an infinity was seen (R250, R252). -/
def reduceAdd (acc : Nat × Bool) (v : Val) : Nat × Bool :=
  let r := ((f32Val acc.1).add v).toF32
  (r, acc.2 || !v.isFin || !(f32Val r).isFin)

/-- The narrowed reduction of values in order: the code, and whether it was not finite or saturated (R250, R252). -/
def reduceVals (f : Fmt) (vs : List Val) : Nat × Bool × Bool :=
  let (a, nf) := vs.foldl reduceAdd (0, false)
  let (c, fl) := narrow f false none (f32Val a)
  (c, nf, fl &&& cvSAT != 0)

/-- This polder's sum of a bucket (R250). -/
def Mod.stageOne (s : Mod) (p : Nat) (b : Bucket) : List (Nat × Bool × Bool) :=
  let dies := s.diesOf p
  let k := 4 / max 1 s.polders
  (List.range b.elems).map fun i =>
    reduceVals b.fmt (dies.map fun d => b.fmt.decode (s.getN p (b.part + d % k * b.size + 64 + i * b.fmt.unitBytes) b.fmt.unitBytes))

/-- Whether stage 1 of a bucket completes at the sluice of this frame. -/
def Mod.stageOneDue (s : Mod) (p n : Nat) : Bool :=
  match s.bkt p n with
  | some b => b.state == 2 && !b.failed && !b.s1done && decide (b.s1at ≤ s.fc.num)
  | none => false

/-- The messages of a shard: bodies of at most 32,768 bytes, padded to a multiple of 4 (R252, R353); of a bucket without elements one with four
bytes of zeros, since a LEN of 0 says 32,768 (R248; log entry 100). -/
def Mod.sendShard (s : Mod) (p r kind frame : Nat) (b : Bucket) (shard step : Nat) (codes : List Nat) : Mod :=
  let per := 32768 / b.fmt.unitBytes
  (List.range (if b.elems = 0 then 1 else ceilDiv codes.length per)).foldl (fun s i =>
    let bs := b.payload ((codes.drop (i * per)).take per)
    s.sendRank p r 2 kind (b.num * 2 ^ 20 + shard * 2 ^ 14 + (if b.nonfinite then 2 ^ 13 else 0) + (if b.sat then 2 ^ 12 else 0))
      (step % 65536 * 2 ^ 48 + i * per) frame (bs ++ List.replicate (if bs.isEmpty then 4 else (4 - bs.length % 4) % 4) 0)) s

/-- The step number that a bucket's messages carry: its step's, and 0 for a REDUCE (log entry 36). -/
def Mod.bktStep (s : Mod) (p : Nat) (b : Bucket) : Nat := if b.owner.isSome then 0 else ((s.stepOf p).map (·.num)).getD 0

/-- STAGE_1_COMPLETE: with N = 1 the sum is the reduced payload; otherwise shards go to their owners in the next frame (R250, R252). -/
def Mod.onStageOne (s : Mod) (p n : Nat) : Mod :=
  match s.bkt p n with
  | some b =>
    let f := s.fc.num
    let v := s.stageOne p b
    let b := { b with s1done := true, nonfinite := b.nonfinite || v.any (·.2.1), sat := b.sat || v.any (·.2.2) }
    let codes := v.map (·.1)
    let members := s.members p
    if members = 1 then
      match s.putPayload p b 0 codes with
      | (s, b) => s.bktFinal p f { b with contrib := b.contrib ||| 1 }
    else
      let me := s.rank p
      let cut (j : Nat) := let (a, l) := shardOf b.elems members j; (codes.drop a).take l
      let s := (s.peers p).foldl (fun s j => s.sendShard p j 0 (f + 1) b j (s.bktStep p b) (cut j)) s
      s.bktFinal p f { b with sum := codes, got := b.got ++ [⟨me, 0, cut me, f⟩], contrib := b.contrib ||| 2 ^ me }
  | none => s

/-- STAGE_1_COMPLETE (R250). -/
def execStage1Complete (p : Fin 4) (b : BitVec 12) (s : State) : Host.Outcome State Fault Refusal :=
  s.when (s.m.inFrame && s.m.stageOneDue p b.toNat) (s.m.onStageOne p b.toNat)

/-! ## Stage 2 -/

/-- The bucket to which a SHARD or RESULT message belongs: not failed, not final, and of the step that the message names (R253, R333). -/
def Mod.msgBkt (s : Mod) (p : Nat) (m : Msg) : Option Bucket :=
  (s.bkts p).find? fun b => b.num == bits m.a 31 20 && !b.failed && !b.final && bits m.b 63 48 == s.bktStep p b % 65536

/-- The codes of a message's body that lie in a shard, from its element offset. -/
def msgCodes (b : Bucket) (m : Msg) (len : Nat) : List Nat :=
  let w := b.fmt.unitBytes
  (List.range (min (m.body.length / w) (len - m.b % 2 ^ 40))).map fun i => leNat ((m.body.drop (i * w)).take w)

/-- The message's NONFINITE and SAT bits are ORed into a bucket (R253). -/
def Bucket.orBits (b : Bucket) (m : Msg) : Bucket := { b with nonfinite := b.nonfinite || m.a.testBit 13, sat := b.sat || m.a.testBit 12 }

/-- SHARD: a member's contribution to the shard that this polder owns (R252). -/
def Mod.onShard (_ : Nat) (s : Mod) (m : Msg) : Mod :=
  s.deliver m fun s p =>
    match s.msgBkt p m, s.rankOf p m.src with
    | some b, some r =>
      let me := s.rank p
      if bits m.a 19 14 ≠ me then s else
      let (_, len) := shardOf b.elems (s.members p) me
      let b := { b.orBits m with got := b.got ++ [⟨r, m.b % 2 ^ 40, msgCodes b m len, s.fc.num⟩], contrib := b.contrib ||| 2 ^ r }
      s.setBkt p b
    | _, _ => s

/-- SHARD (R252). -/
def execShard (l : Fin 32) (s : State) : Host.Outcome State Fault Refusal := s.onHeld l 0 (Mod.onShard l)

/-- A rank's contribution to a shard of a length, once it is whole: codes in element order. -/
def shardCodes (b : Bucket) (r len : Nat) : Option (List Nat) :=
  let l := (sortBy (·.elem) (b.got.filter fun g => g.rank == r)).flatMap (·.codes)
  if l.length = len ∧ b.got.any (·.rank == r) then some l else none

/-- The sluice at which the owner's sum completes (R254): contributions in the order of their visibility at 1,024 additions a cycle. -/
def Mod.sumAt (s : Mod) (b : Bucket) : Nat :=
  let l := sortBy (·.at_) b.got
  (l.zipIdx.map fun g => g.1.at_ + max 1 (ceilDiv ((l.drop g.2).map fun x => x.codes.length).sum (1024 * s.budget))).foldl max 0

/-- The contributions of every rank, in rank order, when the owner's sum completes at the sluice of this frame. -/
def Mod.ownSum (s : Mod) (p : Nat) (b : Bucket) : Option (List (List Nat)) :=
  let (_, len) := shardOf b.elems (s.members p) (s.rank p)
  if b.state = 2 ∧ !b.failed ∧ b.s1done ∧ !b.ownDone ∧ 1 < s.members p ∧ (0 < len ∨ b.elems = 0) ∧ s.sumAt b ≤ s.fc.num then
    (List.range (s.members p)).mapM fun r => shardCodes b r len
  else none

/-- SHARD_OWNER_SUM: the reduced shard is written here and sent to every other member (R252). -/
def Mod.onOwnSum (s : Mod) (p n : Nat) : Mod :=
  match s.bkt p n with
  | some b =>
    let f := s.fc.num
    match s.ownSum p b with
    | none => s
    | some ls =>
      let me := s.rank p
      let (a, len) := shardOf b.elems (s.members p) me
      let x := (List.range len).map fun i => reduceVals b.fmt (ls.map fun l => b.fmt.decode (l.getD i 0))
      let b := { b with ownDone := true, nonfinite := b.nonfinite || x.any (·.2.1), sat := b.sat || x.any (·.2.2) }
      let codes := x.map (·.1)
      let s := (s.peers p).foldl (fun s j => s.sendShard p j 1 (f + 1) b me (s.bktStep p b) codes) s
      match s.putPayload p b a codes with
      | (s, b) => s.bktFinal p f b
  | none => s

/-- SHARD_OWNER_SUM (R252). -/
def execShardOwnerSum (p : Fin 4) (b : BitVec 12) (s : State) : Host.Outcome State Fault Refusal :=
  s.when (s.m.inFrame && match s.m.bkt p b.toNat with
    | some k => (s.m.ownSum p k).isSome
    | none => false) (s.m.onOwnSum p b.toNat)

/-- RESULT: a reduced shard enters the result buffer in step 4 (R46, R252). -/
def Mod.onResult (l : Nat) (s : Mod) (m : Msg) : Mod :=
  s.deliver m fun s p =>
    match s.msgBkt p m, s.rankOf p m.src with
    | some b, some r =>
      if bits m.a 19 14 ≠ r then s else
      let (a, len) := shardOf b.elems (s.members p) r
      let codes := msgCodes b m len
      let first := a + m.b % 2 ^ 40
      let first := if b.elems = 0 then r else first
      let b := { b.orBits m with present := if (codes.isEmpty ∧ b.elems ≠ 0) ∨ b.present.any (fun x => x.1 == first) then b.present else b.present ++ [(first, codes.length)] }
      let s := s.stage (rankLink l) (.mem p (wcells (b.addr + 64 + first * b.fmt.unitBytes) (b.payload codes)))
      s.bktFinal p s.fc.num b
    | _, _ => s

/-- RESULT (R252). -/
def execResult (l : Fin 32) (s : State) : Host.Outcome State Fault Refusal := s.onHeld l 1 (Mod.onResult l)

/-- Whether a bucket is not FINAL at its sluice O + DUE (R253). -/
def Mod.bktLate (s : Mod) (p n : Nat) : Bool :=
  match s.bkt p n, s.sluiceA with
  | some b, some f => !b.final && !b.failed && b.state != 0 && decide (b.due ≤ f)
  | _, _ => false

/-- BUCKET_LATE: the bucket fails with CAUSE LATE at the sluice that is being taken. -/
def Mod.onBucketLate (s : Mod) (p n : Nat) : Mod :=
  match s.bkt p n with
  | some k => s.failBkt p s.fc.num 1 k
  | none => s

/-! ## Pass one -/

/-- The sluices at which pass one of a polder's FINAL buckets ends, in the order of their FINAL sluice and then by number (R261). -/
def Mod.passTimes (s : Mod) (p : Nat) : List (Nat × Nat) :=
  let l := sortBy (fun b => b.finalAt.getD 0 * 4096 + b.num) ((s.bkts p).filter fun b => b.final && b.owner.isNone)
  (l.foldl (fun (acc : List (Nat × Nat) × Nat) b =>
    let t := max acc.2 (b.finalAt.getD 0) + ceilDiv b.elems (256 * s.budget)
    (acc.1 ++ [(b.num, t)], t)) ([], 0)).1

/-- Whether pass one of a bucket ends by the sluice that is being taken. -/
def Mod.passOneDue (s : Mod) (p n : Nat) : Bool :=
  match s.bkt p n, s.sluiceA with
  | some b, some f => b.final && !b.passOne && !b.failed && b.owner.isNone && (s.passTimes p).any fun t => t.1 == n && decide (t.2 ≤ f)
  | _, _ => false

/-- An exact square enters a norm accumulator (R262). -/
def normAdd (a : Nat × Bool) (v : Val) : Nat × Bool :=
  match v.mul v with
  | .fin _ m e => (a.1 + ((Val.fin false m e).int (-298)).toNat, a.2)
  | _ => (a.1, true)

/-- A group's accumulator. -/
def normOf (t : Tbl (Nat × Bool)) (g : Nat) : Nat × Bool := t.getD g (0, false)

/-- The gradient of R261: GSCALE times x, narrowed to F32. -/
def Group.grad (g : Group) (x : Val) : Val := f32Val ((f32Val g.gscale).mul x).satF32

/-- The reduced elements of a bucket with their group and element (R246): the x of each. -/
def Mod.bktElems (s : Mod) (p : Nat) (b : Bucket) : List (Nat × Nat × Val) :=
  let x (i : Nat) := b.fmt.decode (s.getN p (b.addr + 64 + i * b.fmt.unitBytes) b.fmt.unitBytes)
  (b.segs.foldl (fun (acc : List (Nat × Nat × Val) × Nat) sg =>
    (acc.1 ++ (List.range sg.2.1).map fun k => (sg.1, sg.2.2 + k, x (acc.2 + k)), acc.2 + sg.2.1)) ([], 0)).1

/-- The weight that the update engine reads: the master copy, or the stored weight (R261, R265). -/
def Mod.weightAt (s : Mod) (g : Group) (k : Nat) : Val :=
  match g.array? 1 with
  | some a => f32Val (s.getN g.pol (a + 4 * k) 4)
  | none => let w := if g.isRow then Fmt.w16 else g.wfmt; w.decode (s.getN g.pol (g.base + w.unitBytes * k) w.unitBytes)

/-- The norms with a bucket's elements added (R261). -/
def Mod.passNorms (s : Mod) (p : Nat) (b : Bucket) (n : Norms) : Norms :=
  (s.bktElems p b).foldl (fun n e =>
    let g := s.group e.1
    let v := g.grad e.2.2
    let n := { n with ng := n.ng.set e.1 (normAdd (normOf n.ng e.1) v) }
    let n := if g.clipIn then { n with nc := normAdd n.nc v } else n
    if g.rule = 3 then { n with nw := n.nw.set e.1 (normAdd (normOf n.nw e.1) (s.weightAt g e.2.1)) } else n) n

/-- PASS_ONE: the bucket's norms are in, and it is DONE (R255, R261). -/
def Mod.onPassOne (s : Mod) (p n : Nat) : Mod :=
  match s.bkt p n, s.stepOf p with
  | some b, some st =>
    let s := { s with ue := { s.ue with steps := s.ue.steps.set p { st with norms := s.passNorms p b st.norms } } }
    let s := s.hubEvent s.fc.num p 9 b.elems
    s.setBkt p { b with passOne := true, state := 3 }
  | _, _ => s

/-! ## REDUCE -/

/-- REDUCE: HDR and DUE. -/
def blkReduce (_ : Mod) (_ : Nat) (ps : List Word) : Chk Unit := do
  lenChk ps 12
  rsvChk ps [.addr 0]

/-- REDUCE checks its bucket, its number, and the routes of its group (R247, R333, R311). -/
def chkReduce (s : Mod) (p : Nat) (ps : List Word) : Chk Unit := do
  s.bucketChk p (pq ps 0) (detailAt 0) false
  let b := s.bucketAt p (pq ps 0) 0 none
  ensure ((s.bkts p).all fun x => x.num != b.num) 0x35 (detailAt 0)
  ensure (match s.ue.progs.get p with
    | some sp => sp.buckets.all fun a => s.getN p a 4 % 4096 != b.num
    | none => true) 0x35 (detailAt 0)
  ensure ((s.peers p).all fun r => s.bit .ZL_RANK_VALID (p * 64 + r) && (s.route (s.endpoint p r)).isSome) 0x41 noDetail
  ensure ((s.peers p).all fun r => match s.route (s.endpoint p r) with
    | some (true, _, _, _) => true
    | _ => (s.routeLinks (s.endpoint p r)).any fun l => (s.link l).st == .up) 0x40 noDetail
  s.destChk p (pq ps 0) (64 + b.bytes) 0

/-- REDUCE closes its bucket at sluice e, with O := e (R333): the commit of the closing is staged by the bucket's state at that sluice. -/
def Mod.runReduce (s : Mod) (c : CmdId) : Mod :=
  match s.cmd c with
  | none => s
  | some x =>
    if s.closedTo x then s.finish x 0x05 noDetail else
    match chkReduce s x.pol x.params with
    | .error (st, d) => s.failAt x st d
    | .ok () =>
      let b := s.bucketAt x.pol (pq x.params 0) (s.fc.num + pw x.params 8) (some (x.qn, x.seq))
      let s := s.setCmd { x with phase := .running, first := s.fc.num, fin := never, status := 0, detail := noDetail }
      let s := s.setBkts x.pol (s.bkts x.pol ++ [b])
      let s := s.openBkt x.pol b
      if 256 ≤ s.inFlight x.pol then
        let s := s.failBkt x.pol s.fc.num 2 { b with owner := none }
        (s.setBkts x.pol ((s.bkts x.pol).filter fun y => y.num != b.num)).finish x 0x44 noDetail
      else s.closeBkt x.pol s.fc.num 0 b

/-- REDUCE (R333). -/
def execReduce (c : CmdId) (s : State) : Host.Outcome State Fault Refusal := s.when (s.m.granted c 0x5000) (s.m.runReduce c)

end Sys2Proof.Machine
end

