-- ==== Sys2Proof/Machine/Update.lean ====
section
/-! DEFINITION. The update engine's arithmetic: clipping, the rules of pass two, update scaling and brine, slot selection and maintenance, and the replay
decision (09 R263 to R267, 06 R169 to R173, R178, R179). -/

namespace Sys2Proof.Machine

/-! ## Clipping -/

/-- The square root of a quotient of positive finite values, with a sticky last bit for one correct rounding (R263, R265). -/
def Val.sqrtDiv (x y : Val) : Val :=
  match x, y with
  | .fin _ a e, .fin _ b f =>
    if a = 0 ∨ b = 0 then (x.div y).sqrt
    else
      let k0 := 2 * stickyBits + 2 * Nat.log2 b
      let k := if (e - f - (k0 : Int)) % 2 = 0 then k0 else k0 + 1
      let n := a * 2 ^ k
      let r := isqrt (n / b)
      .fin false (2 * r + if r * r * b = n then 0 else 1) ((e - f - (k : Int)) / 2 - 1)
  | _, _ => x.sqrt.div y.sqrt

/-- The value of a norm accumulator. -/
def normVal (a : Nat × Bool) : Val := if a.2 then .nan else .fin false a.1 (-298)

/-- sqrt_rn of a norm accumulator, an F32 code (R262). -/
def normRoot (a : Nat × Bool) : Nat := (normVal a).sqrt.toF32

/-- c of R263, an F32 code: 1 where CLIP_MAX is 0 or not exceeded, else the exact quotient with one rounding. -/
def clipFactor (max : Val) (nc : Nat × Bool) : Nat :=
  let v := normVal nc
  if max.isZero || (!max.isNan && !v.isNan && !max.isNeg && !(max.mul max).lt v) then 0x3F800000
  else if max.isNan || v.isNan || max.isInf then (max.div v.sqrt).satF32
  else
    let r := Val.sqrtDiv (max.mul max) v
    (if max.isNeg then r.neg else r).satF32

/-! ## Update of one weight (R178, R179) -/

/-- Nothing noticed. -/
def UpdSeen.zero : UpdSeen := ⟨.zero, false, false⟩

/-- The weight format of a group's updates: the master copy's F32, or the stored format (R179, R265, R267). -/
def Group.wf (g : Group) : Fmt := if g.master then .f32 else if g.isRow then .w16 else g.wfmt

/-- The new weight and residual of an element with direction d: codes, and what was noticed (R178, R179). -/
def Group.step (g : Group) (w ub : Val) (d : Nat) (fin : Bool) : Nat × Nat × UpdSeen :=
  let x := (f32Val g.lr).mul (f32Val d)
  let (u, fl) := narrow g.ufmt false none (x.neg.scale (-g.lrx))
  let v := (w.add ((g.ufmt.decode u).scale g.lrx)).add (if g.ubrine then ub else .fin true 0 0)
  let code := (narrow g.wf false none v).1
  let ub' := if v.isFin then (narrow .w16 false none (v.sub (g.wf.decode code))).1 else 0
  (code, ub', ⟨x.abs, fl &&& cvSAT != 0, fin && !(g.wf.decode code).isFin⟩)

/-- Both noticed. -/
def UpdSeen.or (a b : UpdSeen) : UpdSeen := ⟨if b.amax.isNan then a.amax else a.amax.max b.amax, a.sat || b.sat, a.special || b.special⟩

/-- The cells of a new weight and its residual (R265). -/
def Group.weightCells (g : Group) (k code ub : Nat) : List WCell :=
  let stored (f : Fmt) (c : Nat) := wcells (g.base + f.unitBytes * k) (leBytes c f.unitBytes)
  (match g.array? 1 with
    | some a => wcells (a + 4 * k) (leBytes code 4) ++ stored .w16 (narrow .w16 false none (f32Val code)).1
    | none => stored g.wf code)
  ++ match g.array? 5 with
    | some a => wcells (a + 2 * k) (leBytes ub 2)
    | none => []

/-! ## The dense rules (R265) -/

/-- An F32 state word of an element, +0 where the array is absent. -/
def Mod.stateWord (s : Mod) (g : Group) (arr k : Nat) : Nat :=
  match g.array? arr with
  | some a => s.getN g.pol (a + 4 * k) 4
  | none => 0

/-- An element's residual. -/
def Mod.brineAt (s : Mod) (g : Group) (k : Nat) : Val :=
  match g.array? 5 with
  | some a => Fmt.decode .w16 (s.getN g.pol (a + 2 * k) 2)
  | none => .zero

/-- F32 one. -/
def f32One : Nat := 0x3F800000

/-- The clipped gradient gg of an element. -/
def Group.clipped (g : Group) (clip : Nat) (x : Val) : Nat := f32Mul (g.grad x).toF32 (if g.clipIn then clip else f32One)

/-- m and v of ADAMW and LAMB. -/
def Mod.moments (s : Mod) (g : Group) (k gg : Nat) : Nat × Nat :=
  (f32Add (f32Mul g.beta1 (s.stateWord g 2 k)) (f32Mul (f32Sub f32One g.beta1) gg),
   f32Add (f32Mul g.beta2 (s.stateWord g 3 k)) (f32Mul (f32Mul (f32Sub f32One g.beta2) gg) gg))

/-- d of ADAMW and LAMB from m, v and the weight. -/
def Group.adamDir (g : Group) (m v w : Nat) : Nat :=
  f32Add (f32Div (f32Div m (f32Sub f32One (f32Mul g.b1pow g.beta1)))
    (f32Add (f32Sqrt (f32Div v (f32Sub f32One (f32Mul g.b2pow g.beta2)))) g.eps)) (f32Mul g.wd w)

/-- Whether F32 codes are all finite. -/
def finCodes (l : List Nat) : Bool := l.all fun c => (f32Val c).isFin

/-- One element of a dense group under rules 1 and 2: its cells, and what was noticed. -/
def Mod.denseStep (s : Mod) (g : Group) (clip k : Nat) (x : Val) : List WCell × UpdSeen :=
  let w := s.weightAt g k
  let ub := s.brineAt g k
  let gg := g.clipped clip x
  let m := s.stateWord g 2 k
  let v := s.stateWord g 3 k
  let fin := x.isFin && w.isFin && ub.isFin && finCodes [m, v]
  let word (arr c : Nat) : List WCell := match g.array? arr with
    | some a => wcells (a + 4 * k) (leBytes c 4)
    | none => []
  let (d, cells, new) : Nat × List WCell × List Nat :=
    if g.rule = 1 then
      let d := f32Add gg (f32Mul g.wd w.toF32)
      if g.hasBeta1 then let m' := f32Add (f32Mul g.beta1 m) d; (m', word 2 m', [m']) else (d, [], [])
    else
      let (m', v') := s.moments g k gg
      (g.adamDir m' v' w.toF32, word 2 m' ++ word 3 v', [m', v'])
  let (code, ub', seen) := g.step w ub d fin
  (cells ++ g.weightCells k code ub', { seen with special := seen.special || (fin && !finCodes new) })

/-- An element in sweep A of LAMB: m and v written, and its direction, whose square goes to ND. -/
def Mod.lambA (s : Mod) (g : Group) (clip k : Nat) (x : Val) : List WCell × Val × UpdSeen :=
  let w := s.weightAt g k
  let old := [s.stateWord g 2 k, s.stateWord g 3 k]
  let (m, v) := s.moments g k (g.clipped clip x)
  let word (arr c : Nat) : List WCell := match g.array? arr with
    | some a => wcells (a + 4 * k) (leBytes c 4)
    | none => []
  (word 2 m ++ word 3 v, f32Val (g.adamDir m v w.toF32), { UpdSeen.zero with special := x.isFin && w.isFin && finCodes old && !finCodes [m, v] })

/-- An element in sweep B of LAMB, under its trust ratio. -/
def Mod.lambB (s : Mod) (g : Group) (trust k : Nat) : List WCell × UpdSeen :=
  let w := s.weightAt g k
  let ub := s.brineAt g k
  let m := s.stateWord g 2 k
  let v := s.stateWord g 3 k
  let (code, ub', seen) := g.step w ub (f32Mul trust (g.adamDir m v w.toF32)) (w.isFin && ub.isFin && finCodes [m, v])
  (g.weightCells k code ub', seen)

/-- The trust ratio, an F32 code (R265). -/
def trustOf (nw nd : Nat × Bool) : Nat :=
  if nw.2 || nd.2 then 0x7FC00000
  else if nw.1 = 0 ∨ nd.1 = 0 then f32One
  else (Val.sqrtDiv (normVal nw) (normVal nd)).satF32

/-- The elements of a dense group that the step's buckets carry, in increasing order, with their reduced gradients (log entry 37). -/
def Mod.groupElems (s : Mod) (p g : Nat) : List (Nat × Val) :=
  sortBy (·.1) (((s.bkts p).filter fun b => b.owner.isNone && b.final).flatMap fun b => (s.bktElems p b).filterMap fun e => if e.1 = g then some e.2 else none)

/-! ## The row rules (R267) -/

/-- One staging entry: the row's state, its weights, and the previous W16 values kept in the entry's gradient row. -/
def Mod.rowStep (s : Mod) (g : Group) (row grad : Nat) : List WCell × UpdSeen :=
  let n := g.width
  let gr := (List.range n).map fun j => f32Val (s.getN g.pol (grad + 4 * j) 4)
  let gs := gr.map fun x => (g.grad x).toF32
  let w (j : Nat) := s.weightAt g (row * n + j)
  let h := match g.array? 4 with
    | some a => s.getN g.pol (a + 4 * row) 4
    | none => 0
  let sq := gs.foldl (fun a c => normAdd a (f32Val c)) (0, false)
  let h' := f32Add h ((normVal sq).div (.fin false n 0)).satF32
  let root := f32Add (f32Sqrt h') g.eps
  let els := gs.zipIdx.map fun e =>
    let wv := w e.2
    let decay := f32Mul g.wd wv.toF32
    let d := if g.rule = 4 then f32Add (f32Div e.1 root) decay else f32Add e.1 decay
    let ub := s.brineAt g (row * n + e.2)
    let r := g.step wv ub d (wv.isFin && ub.isFin && (f32Val h).isFin && gr.all Val.isFin)
    (g.weightCells (row * n + e.2) r.1 r.2.1, r.2.2)
  let state := match g.rule == 4, g.array? 4 with
    | true, some a => wcells (a + 4 * row) (leBytes h' 4)
    | _, _ => []
  let fin := gr.all Val.isFin && (f32Val h).isFin
  (state ++ els.flatMap (·.1) ++ wcells grad ((List.range n).flatMap fun j => leBytes (s.getN g.pol (g.base + 2 * (row * n + j)) 2) 2),
   els.foldl (fun a e => a.or e.2) { UpdSeen.zero with special := g.rule == 4 && fin && !(f32Val h').isFin })

/-! ## Pass two (R264, R270) -/

/-- What pass two does in one sweep of an element, or for one row: sweep 0 or 1 of a LAMB group's element, 2 of another dense group's, 3 for a staging entry, whose
gradient row lies at `grad`. -/
structure PassItem where
  group : Nat
  sweep : Nat
  key : Nat
  x : Val
  grad : Nat
  deriving DecidableEq, Repr

/-- The items of pass two in their order: groups in increasing number, elements or staging entries in order, a LAMB group in two sweeps (R264). -/
def Mod.passItems (s : Mod) (p : Nat) (sp : StepProg) : List PassItem :=
  (sortBy id (dedup sp.groups)).flatMap fun n =>
    let g := s.group n
    let dense (sweep : Nat) : List PassItem := (s.groupElems p n).map fun e => ⟨n, sweep, e.1, e.2, 0⟩
    if g.rule = 0 then []
    else if g.isRow then (sp.stages.filterMap (s.stageHead p)).flatMap fun h =>
      if h.group ≠ n then [] else (s.stageRows p h.obj).zipIdx.map fun r => ⟨n, 3, r.1, .zero, h.base + h.grad + h.stride * r.2⟩
    else if g.rule = 3 then dense 0 ++ dense 1 else dense 2

/-- The element sweeps of an item (R272). -/
def Mod.itemElems (s : Mod) (i : PassItem) : Nat := if i.sweep = 3 then max 1 (s.group i.group).width else 1

/-- One item, on memory as the items before it leave it: its writes, and the pass after it. -/
def Mod.passItem (clip : Nat) (norms : Norms) (acc : Mod × List WCell × PassTwo) (i : PassItem) : Mod × List WCell × PassTwo :=
  let (s, cells, t) := acc
  let g := s.group i.group
  let (w, t, u) : List WCell × PassTwo × UpdSeen :=
    if i.sweep = 0 then
      let (w, d, u) := s.lambA g clip i.key i.x
      (w, { t with nd := t.nd.set i.group (normAdd (normOf t.nd i.group) d) }, u)
    else if i.sweep = 1 then let r := s.lambB g (trustOf (normOf norms.nw i.group) (normOf t.nd i.group)) i.key; (r.1, t, r.2)
    else if i.sweep = 2 then let r := s.denseStep g clip i.key i.x; (r.1, t, r.2)
    else let r := s.rowStep g i.key i.grad; (r.1, { t with rows := t.rows ++ [(g.base + 2 * (i.key * g.width), i.grad, 2 * g.width)] }, r.2)
  (s.putMem g.pol w, cells ++ w, { t with done := t.done + 1, seen := t.seen.set i.group ((t.seen.getD i.group UpdSeen.zero).or u) })

/-- Pass two before its first frame, spread over n frames. -/
def PassTwo.fresh (n : Nat) : PassTwo := ⟨0, n, [], .empty, .empty⟩

/-- The items that a frame takes: as many as n element sweeps allow. -/
def Mod.takeItems (s : Mod) (n : Nat) : List PassItem → List PassItem
  | [] => []
  | i :: rest => if n < s.itemElems i then [] else i :: s.takeItems (n - s.itemElems i) rest

/-- Pass two goes on in a frame: what is left is spread over the frames that are left, at 256 element sweeps a cycle at most (R264, R272); its writes, the record with them, and
whether an update was special. -/
def Mod.passFrame (s : Mod) (p : Nat) (st : Step) (sp : StepProg) : List WCell × PassTwo × Bool :=
  let items := (s.passItems p sp).drop st.pass.done
  let n := (items.map s.itemElems).sum
  let mine := s.takeItems (min (256 * s.budget) (max (ceilDiv n (max 1 st.pass.left)) ((items.map s.itemElems).foldl max 0))) items
  let r := mine.foldl (Mod.passItem st.clip st.norms) (s, [], st.pass)
  (r.2.1, { r.2.2 with left := st.pass.left - 1 }, mine.any fun i => (r.2.2.seen.getD i.group UpdSeen.zero).special && !(st.pass.seen.getD i.group UpdSeen.zero).special)

/-! ## A group's commit -/

/-- LRX for the next step (R178). -/
def Group.nextLrx (g : Group) (u : UpdSeen) : Int :=
  let l : Int := match u.amax with
    | .fin _ m e => if m = 0 then g.lrx else max (-128) (min 127 (floorLog2 m e - g.ufmt.htop + (g.margin : Int)))
    | _ => g.lrx
  if u.sat then min 127 (l + 1) else l

/-- LRX, the powers and the step counts of a step's groups commit at C (R269). -/
def Mod.commitGroups (s : Mod) (t : PassTwo) (sp : StepProg) : Mod :=
  (sortBy id (dedup sp.groups)).foldl (fun s n =>
    let g := s.group n
    let s := s.setFld .UE_GROUP_LRX_LRX n ((g.nextLrx (t.seen.getD n UpdSeen.zero)) % 256).toNat
    let s := s.put .UE_GROUP_B1POW n (BitVec.ofNat 32 ((f32Val g.b1pow).mul (f32Val g.beta1)).satF32)
    let s := s.put .UE_GROUP_B2POW n (BitVec.ofNat 32 ((f32Val g.b2pow).mul (f32Val g.beta2)).satF32)
    s.put .UE_GROUP_STEPS n (s.rd .UE_GROUP_STEPS n + 1#32)) s

/-! ## Slot selection and maintenance (R169 to R171) -/

/-- The DELAYED slots that a polder's step program names, in increasing number. -/
def Mod.delayedSlots (s : Mod) (p : Nat) : List Nat :=
  match s.ue.progs.get p with
  | some sp => (sortBy id (dedup sp.slots)).filter fun n => s.slotUsable p n && !s.bit .GS_CTRL_MODE n
  | none => []

/-- R169 for a slot; a replay never narrows, keeps NARROW_RUN, and takes a negative delta as 0 (R171). -/
def Mod.selectSlot (s : Mod) (replay : Bool) (n : Nat) : Selection :=
  let fmt := s.fld .GS_CTRL_FMT n
  let f := (Fmt.ofCode fmt).getD .w16
  let base := s.fld .GS_BASE_BASE n
  let run := s.fld .GS_BASE_NARROW_RUN n
  let h (i : Nat) := (s.slotStat n).bins.getD i 0
  let sum (lo hi : Nat) := ((List.range (hi + 1 - lo)).map fun k => h (lo + k)).sum
  let total := sum 1 30
  if total = 0 then ⟨n, fmt, base, run, 0, false⟩ else
  let lim := total / 2 ^ s.fld .GS_POLICY_OUT_LOG2 n
  let is := (List.range 30).map (· + 1)
  let hi := (is.find? fun i => decide (sum (i + 1) 30 ≤ lim)).getD 30
  let lo := ((is.reverse).find? fun i => decide (sum 1 (i - 1) ≤ lim)).getD 1
  let delta : Int := ((hi : Int) - (30 - (s.fld .GS_POLICY_MARGIN n : Int))) * (f.binW : Int)
  let delta := if replay then max delta 0 else delta
  let span : Int := ((hi : Int) - (lo : Int)) * (f.binW : Int)
  let narrower := (Fmt.ofCode (fmt - 1)).getD f
  let (fmt2, run2) :=
    if lim < h 1 ∧ fmt < s.fld .GS_CTRL_FMT_MAX n then (fmt + 1, 0)
    else if s.fld .GS_CTRL_FMT_MIN n < fmt ∧ span + (s.fld .GS_POLICY_NARROW_GAP n : Int) ≤ narrower.range then
      if max 1 (s.fld .GS_POLICY_HYST n) ≤ run + 1 then (fmt - 1, 0) else (fmt, min 255 (run + 1))
    else (fmt, 0)
  let fmt2 := if replay then max fmt fmt2 else fmt2
  let f2 := (Fmt.ofCode fmt2).getD f
  let b : Int :=
    if f2 = .w16 then 127
    else if f = .w16 then 127 + delta - (f2.htop - 63)
    else (base : Int) + delta - (f2.htop - f.htop)
  ⟨n, fmt2, (max 0 (min 254 b)).toNat, if replay then run else run2, delta, decide (b < 0 ∨ 254 < b)⟩

/-- The new offset of a block (R170). -/
def blockOffset (changed replay : Bool) (delta o : Int) (fl : Nat) : Int :=
  let ex : Int := (fl / 16 : Nat)
  let r : Int :=
    if changed then 0
    else if replay then
      let d := max delta 0
      if fl.testBit 0 then o + max (ex - d) 0 else if fl.testBit 2 then o - ex - d else o
    else if fl.testBit 0 then o + 1 else if fl.testBit 2 then o - 1 else o
  max (-127) (min 127 r)

/-- A slot's selection is applied, and its blocks are maintained (R169 to R171). -/
def Mod.applySelection (replay : Bool) (p : Nat) (s : Mod) (x : Selection) : Mod :=
  let changed := s.fld .GS_CTRL_FMT x.slot != x.fmt
  let ofs := s.pair .GS_OFS_ADDR_LO .GS_OFS_ADDR_HI x.slot
  let flg := s.pair .GS_FLAG_ADDR_LO .GS_FLAG_ADDR_HI x.slot
  let cells := (List.range (s.fld .GS_BLOCKS_BLOCKS x.slot)).flatMap fun b =>
    let o := blockOffset changed replay x.delta (signed8 (s.getB p (ofs + b)).toNat) (s.getB p (flg + b)).toNat
    [⟨ofs + b, BitVec.ofInt 8 o, 0xFF#8⟩, ⟨flg + b, 0#8, 0xFF#8⟩]
  let s := s.setFld .GS_CTRL_FMT x.slot x.fmt
  let s := s.setFld .GS_BASE_BASE x.slot x.base
  let s := s.setFld .GS_BASE_NARROW_RUN x.slot x.run
  let s := s.setFld .GS_BASE_LAST_DELTA x.slot ((max (-127) (min 127 x.delta)) % 256).toNat
  let s := if x.clamped then s.raiseNow .GS_BASE_CLAMPED x.slot else s
  s.writeNow p cells

/-! ## The replay decision (R173) -/

/-- What R173 decides: replay, the limit reached, causes (bit 1 FRACTION, 2 GUARD, 3 SHADOW), and the lowest slot that met a condition. -/
structure ReplaySay where
  replay : Bool
  limit : Bool
  causes : Nat
  slot : Option Nat
  deriving DecidableEq, Repr

/-- The replay decision of a polder's step (R173). -/
def Mod.replaySay (s : Mod) (p : Nat) (st : Step) : ReplaySay :=
  if !s.bit .SC_REPLAY_CTRL_ENABLE p then ⟨false, false, 0, none⟩ else
  let k := s.fld .SC_REPLAY_CTRL_FRAC_LOG2 p
  let t (n : Nat) := s.slotStat n
  let frac (n : Nat) : Bool := k != 0 && decide ((t n).conv < (t n).flag * 2 ^ k)
  let guard (n : Nat) : Bool := s.bit .GS_CTRL_GUARDED n && (t n).sat != 0
  let ns := s.delayedSlots p
  let shadow := s.bit .SC_REPLAY_CTRL_SHADOW_REPLAY p && st.shadowBad
  let any := ns.any frac || ns.any guard || shadow
  let lim := any && s.fld .SC_REPLAY_CTRL_REPLAY_MAX p == st.attempt
  ⟨any && !lim, lim, (if ns.any frac then 2 else 0) + (if ns.any guard then 4 else 0) + (if shadow then 8 else 0), ns.find? fun n => frac n || guard n⟩

end Sys2Proof.Machine
end

