-- ==== Sys2Proof/Machine/Apply.lean ====
section
/-! DEFINITION. How the staged effects of a frame are applied at its sluice, and how a step transaction stages and loses its work (02_frames_and_commit.md
R45, R46, R49; 05 R146 to R150; 06 R161, R166 to R168, R181; 08 R220 to R236). -/

namespace Sys2Proof.Machine

/-! ## The step transaction's staged work -/

/-- The ranges whose writes wait for the commit of a step: the state blocks of its groups, the OFS and flag arrays of its slots (R49, R336). -/
def Mod.commitRanges (s : Mod) (p : Nat) : List (Nat × Nat) :=
  match s.ue.progs.get p with
  | none => []
  | some sp => (sp.groups.map fun g => ((s.group g).base, (s.group g).blockLen))
      ++ sp.slots.flatMap fun n =>
        [(s.pair .GS_OFS_ADDR_LO .GS_OFS_ADDR_HI n, s.fld .GS_BLOCKS_BLOCKS n), (s.pair .GS_FLAG_ADDR_LO .GS_FLAG_ADDR_HI n, s.fld .GS_BLOCKS_BLOCKS n)]

/-- The tables that a polder's open step updates, while it is open (R34). -/
def Mod.stepTables (s : Mod) (p : Nat) : List (Nat × Nat) :=
  match s.stepOpen p, s.ue.progs.get p with
  | true, some sp => (sp.groups.filter fun g => (s.group g).isRow).map fun g => ((s.group g).base, (s.group g).blockLen)
  | _, _ => []

/-- Whether an address lies in one of some ranges. -/
def inRanges (rs : List (Nat × Nat)) (a : Nat) : Bool := rs.any fun r => decide (r.1 ≤ a ∧ a < r.1 + r.2)

/-- Contributions in some ranges wait with a step, the others are added at their sluice. -/
def splitAdds (e : Staged) (rs : List (Nat × Nat)) (p : Nat) (cs : List Contrib) (behind : Bool) : Option Staged × List StepStage :=
  let late := cs.filter fun c => inRanges rs c.addr
  if late.isEmpty then (some e, []) else (some { e with eff := .reduce p (cs.filter fun c => !inRanges rs c.addr) }, [⟨p, .reduce p late, behind⟩])

/-- What of a staged effect is applied at its sluice, and what waits for the commit of its polder's open step. Contributions of a host-issued scatter-add into a table
that the step updates wait behind the step, whenever they were begun (R34). -/
def Mod.splitStep (s : Mod) (e : Staged) : Option Staged × List StepStage :=
  match e.eff with
  | .sramStep p t cells => match e.step with
    | some _ => (none, [⟨p, .sram t cells, false⟩])
    | none => (some { e with eff := .sram t cells }, [])
  | .mem p cells => match e.step with
    | some _ =>
      let rs := s.commitRanges p
      let late := cells.filter fun w => inRanges rs w.addr
      if late.isEmpty then (some e, []) else (some { e with eff := .mem p (cells.filter fun w => !inRanges rs w.addr) }, [⟨p, .mem p late, false⟩])
    | none => (some e, [])
  | .reduce p cs => match e.step with
    | some _ => splitAdds e (s.commitRanges p) p cs false
    | none => if e.eng.isSome then splitAdds e (s.stepTables p) p cs true else (some e, [])
  | _ => (some e, [])

/-- The accumulation regions of a polder that a step's abandonment clears (R150), by index. -/
def Mod.stepRegions (s : Mod) (p : Nat) : List Nat :=
  (List.range 3072).filter fun i => s.dieOf (i / 768) == p && s.bit .ACB_RGN_CTRL_STEP i

/-- A region's entries return to +0, DONE to 0, and the region to IDLE (R148, R150). -/
def Mod.clearRegion (s : Mod) (i : Nat) : Mod :=
  let lo := i / 16 * 65536 + s.fld .ACB_RGN_RANGE_BASE i * 128
  let hi := lo + s.fld .ACB_RGN_RANGE_LEN i * 128
  let s := { s with tile := { s.tile with acb := s.tile.acb.filter fun k _ => !decide (lo ≤ k ∧ k < hi) } }
  (s.setFld .ACB_RGN_CTRL_DONE i 0).setFld .ACB_RGN_CTRL_STATE i 0

/-- The state with a polder's step changed. -/
def Mod.mapStep (s : Mod) (p : Nat) (f : Step → Step) : Mod :=
  { s with ue := { s.ue with steps := s.ue.steps.map fun q st => if q = p then f st else st } }

/-- Everything that a polder's step has staged is discarded, its programs stop, and its accumulation regions become IDLE (R43, R49, R150). -/
def Mod.dropWork (s : Mod) (p : Nat) : Mod :=
  let rgns := s.stepRegions p
  let gone (e : Staged) : Bool := e.step == some p || match e.eff with
    | .acb t r _ _ => has rgns (t * 16 + r)
    | .acbUse t r => has rgns (t * 16 + r)
    | _ => false
  let live (r : Prog) : Bool := match r.runner with
    | .step q _ => q.val != p
    | .cmd _ => true
  let s := { s with stg := s.stg.filter fun e => !gone e
                    ue := { s.ue with later := s.ue.later.filter fun (e : Nat × Staged) => !gone e.2
                                      behind := s.ue.behind.filter fun b => b.pol != p || b.behind
                                      running := (s.ue.running.filter live).map fun r => { r with land := r.land.filter fun (e : Nat × Staged) => !gone e.2 } } }
  rgns.foldl Mod.clearRegion s

/-- A polder's step is abandoned before its vote, with reason bits (R49, R256): its staged work goes, and the commands whose work it was complete with
TX_ABANDONED. `now` says that step 7 of the sluice is still to come; else
their signals are staged into the next frame (R290). -/
def Mod.abandonStep (s : Mod) (p reasons : Nat) (plain now : Bool) : Mod :=
  match s.stepOf p with
  | none => s
  | some st =>
    if st.phase != .executing && st.phase != .balloted then s else
    let s := (s.dropWork p).mapStep p fun st => { st with reasons := st.reasons ||| reasons, abandoned := true, plain := st.plain || plain, todo := [] }
    let hit (c : Cmd) : Bool := c.step && !c.mgmt && c.pol == p && (c.phase == .running || c.phase == .held)
    if now then
      let stop (c : Cmd) : Cmd := if hit c then { c with phase := .decided, status := 0x26, detail := noDetail, fin := s.fc.num } else c
      { s with cq := { s.cq with cmds := s.cq.cmds.map stop } }
    else s.endCmds hit 0x26 s.fc.num

/-! ## Data -/

/-- A window fill's piece as writes: the source as committed at the sluice before, with its poison (R233, R236). -/
def Mod.copyWrites (s : Mod) (p src dst n : Nat) : List Eff :=
  let bad := (List.range (n / 32)).filter fun k => s.poisoned p (src + 32 * k) 32
  .mem p (wcells dst (s.getBs p src n)) :: if bad.isEmpty then [] else [.poison p (bad.map fun k => dst / 32 + k)]

/-- The contents of a collector, with the deliveries of its last frame (R122, R321). -/
def Coll.image (k : Coll) : List Byte :=
  if k.mode = 0 then getBytes k.bytes 0 65536
  else (List.range (if k.mode = 2 then 2048 else 16384)).flatMap fun i => leBytes (match k.vals.get i with
    | some d => if k.mode = 2 then d.val.satF32 else d.val.toF32
    | none => 0) 4

/-- A delivery enters a collector (R120). -/
def Coll.take (k : Coll) (d : Deliver) : Coll :=
  let old := match k.vals.get d.at_ with
    | some x => x.val
    | none => .zero
  let new := if k.mode = 1 then (if d.val.isNan then old else old.max d.val) else old.add d.val
  { k with vals := k.vals.set d.at_ (Deliver.of d.at_ new) }

/-- The state with a collector changed. -/
def Mod.mapColl (s : Mod) (n : Nat) (f : Coll → Coll) : Mod :=
  { s with tile := { s.tile with colls := s.tile.colls.map fun i k => if i = n then f k else k } }

/-- Deliveries that a collector accepts are counted (R437). -/
def Mod.collEvent (s : Mod) (n m : Nat) : Mod :=
  match s.tile.colls.get n with
  | some k => s.hubEvent s.fc.num k.pol 21 m
  | none => s

/-- Contributions to a region's entries, each addition F32, in program order (R146). -/
def Mod.addAcb (s : Mod) (tile rgn : Nat) (ds : List Deliver) : Mod :=
  let i := tile * 16 + rgn
  let lo := tile * 65536 + s.fld .ACB_RGN_RANGE_BASE i * 128
  let put (t : Tbl Word) (d : Deliver) : Tbl Word :=
    let k := lo + d.at_
    let v := BitVec.ofNat 32 (f32Add (t.getD k 0).toNat d.val.toF32)
    if v = 0#32 then t.del k else t.set k v
  let s := { s with tile := { s.tile with acb := ds.foldl put s.tile.acb } }
  if s.fld .ACB_RGN_CTRL_STATE i = 0 then s.setFld .ACB_RGN_CTRL_STATE i 1 else s

/-- A use of a region is counted; at USES it enters FLUSHING (R146, R148). -/
def Mod.useAcb (s : Mod) (i : Nat) : Mod :=
  let n := s.fld .ACB_RGN_CTRL_DONE i + 1
  (s.setFld .ACB_RGN_CTRL_DONE i (min 255 n)).setFld .ACB_RGN_CTRL_STATE i (if s.fld .ACB_RGN_CTRL_USES i ≤ n then 2 else 1)

/-- Whether two sources write one granule (R46). -/
def conflicts : List (Nat × Nat) → Bool
  | [] => false
  | x :: rest => (rest.any fun y => y.1 == x.1 && y.2 != x.2) || conflicts rest

/-- The contributions of a frame to a polder's memory are added (R230 to R232); those into a range sealed for a result are dropped (R433); a special
result in the row staging of an open step counts as NONFINITE (R231, R256). -/
def Mod.applyReduce (s : Mod) (p : Nat) (cs : List Contrib) : Mod :=
  let shut (c : Contrib) : Bool := s.ue.seals.any fun x => x.1 == p && x.2.2.2.1 == 0 && meets x.2.1 x.2.2.1 c.addr (contribBytes c.kind)
  let s := if cs.any shut then s.raise .SP_SEAL_STATUS_WRITE_DROPPED p else s
  let cs := cs.filter fun c => !shut c
  let s := s.saveFirst p (dedup (cs.map fun c => c.addr / 65536 * 65536))
  match s.reduceAll p cs with
  | (s, special) =>
    let rows := ((s.ue.progs.get p).elim [] (·.stages)).filterMap fun o => (s.obj p o).map fun x => (x.base, x.pages * 2 ^ 21)
    if special.any (inRanges rows) then s.mapStep p fun st => { st with reasons := st.reasons ||| 1 } else s

/-- A chunk of an import: decrypted, and written where its tag checks; else the import stops and the key is withdrawn (R428 to R430). -/
def Mod.openChunk (s : Mod) (q k i : Nat) : Mod × List Staged :=
  match s.cq.cmds.find? fun c => !c.mgmt && c.qn == q && c.seq == k with
  | none => (s, [])
  | some x =>
    let p := x.pol
    let slot := pw x.params 20
    let src := pq x.params 0
    let n := pw x.params 16
    let len := min 65536 (n - 65536 * i)
    let at_ := src + 64 + 65552 * i
    let head := s.getBs p src 64
    match x.phase == .running, s.key p slot with
    | true, some key =>
      let s := s.hubEvent s.fc.num p 17 ((if i = 0 then 64 else 0) + len + 16)
      if s.poisoned p at_ (len + 16) then (s.setCmd { x with phase := .decided, fin := s.fc.num, status := 0xF8, detail := noDetail }, []) else
      match gcmOpen key.key ((head.drop 8).take 8 ++ (leBytes i 4).reverse) (head ++ leBytes i 8) (s.getBs p at_ len) (s.getBs p (at_ + len) 16) with
      | some plain =>
        let more (y : Nat × Nat × Nat × Nat × Nat) := if y.1 = q ∧ y.2.1 = k then (q, k, p, slot, i + 1) else y
        ({ s with sec := { s.sec with imports := s.sec.imports.map more } }.setCmd { x with result := BitVec.ofNat 64 (65536 * i + len) },
         [⟨rankImport, none, none, .mem p (wcells (pq x.params 8 + 65536 * i) (plain.take len))⟩])
      | none =>
        let s := { s with sec := { s.sec with keys := s.sec.keys.del (p * 16 + slot) } }
        ((s.raise .SP_CONF_KEY_WITHDRAWN p).stopImport x 2 i, [])
    | _, _ => (s, [])

/-- Whether a staged effect reads poisoned data for a command: its polder (R236). -/
def Mod.consumes (s : Mod) (e : Staged) : Option Nat :=
  match e.eff with
  | .uncorr p => some p
  | .toHost p _ _ _ dev _ n => if s.poisoned p dev n then some p else none
  | .importChunk p q k i => match s.cq.cmds.find? fun c => !c.mgmt && c.qn == q && c.seq == k with
    | some x => if s.poisoned p (pq x.params 0 + 64 + 65552 * i) (min 65536 (pw x.params 16 - 65536 * i) + 16) then some p else none
    | none => none
  | _ => none

/-- A piece of HOST_OUT or of a checkpoint's drain goes to the host; a poisoned one ends its command with MEM_UNCORR (R236, R331). -/
def Mod.sendHost (s : Mod) (t : Mod) (p fn q k dev host n : Nat) : Mod :=
  if t.poisoned p dev n then
    let stop (c : Cmd) : Cmd :=
      if !c.mgmt && c.qn == q && c.seq == k && (c.phase == .running) then { c with phase := .decided, fin := s.fc.num, status := 0xF8, detail := noDetail } else c
    { s with cq := { s.cq with cmds := s.cq.cmds.map stop } }
  else (s.hubEvent s.fc.num p 18 n).emit (.hostWrite fn host (t.getBs p dev n))

/-- Steps 3 and 4 of R45: pages that finish their migration move first, then checkpoints and restores go on at their pace; reads are of the state at the
sluice before; writes are applied in the order of R46, contributions after them (R223, R230, R394). With the writes, in that order. -/
def Mod.applyData (s : Mod) : Mod × List Staged :=
  let f := s.fc.num
  let stg := s.stg
  let s := stg.foldl (fun s e => match e.eff with
    | .migStart p l => s.putMigs p l
    | .migSub p page k => s.landSub p page k
    | _ => s) s
  let t := s
  let s := stg.foldl (fun s e => match e.eff with
    | .toHost p fn q k dev host n => s.sendHost t p fn q k dev host n
    | _ => s) s
  let (s, chunks) := stg.foldl (fun (acc : Mod × List Staged) e => match e.eff with
    | .importChunk _ q k i => let r := acc.1.openChunk q k i; (r.1, acc.2 ++ r.2)
    | _ => acc) (s, [])
  let (s, backs) := s.mem.restores.foldl (fun (acc : Mod × List Staged) r => let x := acc.1.paceRestore f r; (x.1, acc.2 ++ x.2)) (s, [])
  -- contributions to accumulation regions in the order in which their work began (R146), deliveries to collectors
  let s := (sortBy (·.1) (stg.filterMap fun e => match e.eff with
    | .acb tile r w ds => some (w, tile, r, ds)
    | _ => none)).foldl (fun (s : Mod) x => s.addAcb x.2.1 x.2.2.1 x.2.2.2) s
  let s := stg.foldl (fun s e => match e.eff with
    | .coll n ds => (s.collEvent n ds.length).mapColl n fun k => ds.foldl Coll.take k
    | .collBytes n _ _ at_ data => (s.collEvent n 1).mapColl n fun k => { k with bytes := (wcells at_ data).foldl putCell k.bytes }
    | .acbUse tile r => s.useAcb (tile * 16 + r)
    | .acbDone tile r => s.clearRegion (tile * 16 + r)
    | _ => s) s
  let closes := stg.filterMap fun e => match e.eff with
    | .collClose n p dest => (s.tile.colls.get n).map fun k => { e with eff := .mem p (wcells dest k.image) }
    | _ => none
  let s := stg.foldl (fun s e => match e.eff with
    | .collClose n _ _ => { s with tile := { s.tile with colls := s.tile.colls.del n } }
    | _ => s) s
  let written := (stg ++ backs ++ closes ++ chunks).flatMap fun e => ((s.splitStep e).1.toList.flatMap Staged.places)
  let (s, copies) := s.mem.ckpts.foldl (fun (acc : Mod × List Staged) k =>
    let hit := (k.subs.zipIdx.filter fun x => written.any fun w => w.1 == k.pol && meets w.2.1 w.2.2 x.1 65536).map (·.2)
    let x := acc.1.ckptCopies k (k.paced f ++ hit)
    (x.1, acc.2 ++ x.2)) (s, [])
  let ws := (stg ++ backs ++ copies).flatMap fun e => match e.eff with
    | .copyRange p src dst n => (t.copyWrites p src dst n).map fun x => { e with eff := x }
    | .collClose _ _ _ => []
    | _ => [e]
  let parts := (sortBy (·.rank) (ws ++ closes ++ chunks)).map s.splitStep
  let now := parts.filterMap (·.1)
  let touched := now.flatMap Staged.touches
  let pols := [0, 1, 2, 3]
  let adds (p : Nat) : List Contrib := now.flatMap fun e => match e.eff with
    | .reduce q cs => if q = p then cs else []
    | _ => []
  let mixed := pols.any fun p => (adds p).any fun c => touched.any fun x => x.1 == p * 2 ^ 60 + c.addr / 32
  let s := if conflicts touched || mixed then s.raise .FC_DET_STATUS_WRITE_CONFLICT 0 else s
  let s := { s with ue := { s.ue with behind := s.ue.behind ++ parts.flatMap (·.2) } }
  let s := now.foldl Mod.applyWrite s
  (pols.foldl (fun s p => if (adds p).isEmpty then s else s.applyReduce p (adds p)) s, now)

/-! ## Counts, records and allocations -/

/-- New rows take entries USED, USED + 1 and on: SG_ROW, a zero gradient row, and USED (R341). -/
def Mod.putStageUse (s : Mod) (p n : Nat) (rows : List Nat) : Mod :=
  match s.stageHead p n with
  | none => s
  | some h =>
    let held := s.stageRows p n
    let cells := rows.zipIdx.flatMap fun r =>
      let i := held.length + r.2
      wcells (h.base + 0x40 + 8 * i) (leBytes r.1 8) ++ wcells (h.base + h.grad + h.stride * i) (List.replicate (4 * h.width) 0)
    let s := s.writeNow p (cells ++ wcells (h.base + 8) (leBytes (held.length + rows.length) 4))
    { s with ue := { s.ue with staging := s.ue.staging.set (objKey p n) (held ++ rows) } }

/-- A slot's counts of a frame: a tile's counts under a seventeenth slot lose their histogram (R166 to R168). -/
def Mod.addSlot (s : Mod) (slot conv flag sat : Nat) (bins : List (Nat × Nat)) : Mod :=
  let t := s.slotStat slot
  let t := { t with conv := t.conv + conv, flag := t.flag + flag, sat := t.sat + sat
                    bins := bins.foldl (fun l b => setNth l b.1 (satCount (l.getD b.1 0) b.2)) t.bins }
  { s with ue := { s.ue with stats := s.ue.stats.set slot t } }

/-- The slots that a tile's earlier effects of a frame name, in order. -/
def slotsBefore (l : List Staged) (rank : Nat) : List Nat :=
  dedup (l.filterMap fun e => if e.rank = rank then (match e.eff with
    | .slotCount n _ _ _ _ => some n
    | _ => none) else none)

/-- Flag bytes of a slot's array take the status and EXCESS of the frame's encodings (R161). -/
def Mod.markBlocks (s : Mod) (p addr : Nat) (marks : List (Nat × Nat × Nat)) : Mod :=
  marks.foldl (fun s m => s.writeNow p [⟨addr + m.1, BitVec.ofNat 8 (flagByteOr (s.getB p (addr + m.1)).toNat m.2.1 m.2.2), 0xFF#8⟩]) s

/-- Index errors are counted, the first recorded, and the open step told (R203, R210). -/
def Mod.indexErrors (s : Mod) (p die xform handle : Nat) (errs : List (Nat × Nat)) : Mod :=
  let s := s.put .TD_IDX_COUNT p (s.rd .TD_IDX_COUNT p + BitVec.ofNat 32 errs.length)
  let s := match errs.head? with
    | some (pos, v) =>
      if s.bit .TD_IDX_FIRST_VALID p then s else
      let s := s.put .TD_IDX_FIRST p (BitVec.ofNat 32 (2 ^ 31 + die % 4 * 2 ^ 26 + xform * 65536 + handle))
      ((s.put .TD_IDX_POS p (BitVec.ofNat 32 pos)).putPair .TD_IDX_VALUE_LO .TD_IDX_VALUE_HI p v).putPair .TD_IDX_FRAME_LO .TD_IDX_FRAME_HI p s.fc.num
    | none => s
  let vote := if s.bit .TD_IDX_CTRL_VOTE_SKIP p then 16 else 0
  s.mapStep p fun st => if st.phase = .executing ∧ !st.abandoned then { st with indexErrors := st.indexErrors + errs.length, reasons := st.reasons ||| vote } else st

/-- A shadow check of an output tile ends (R180, R181). -/
def Mod.shadowEnd (s : Mod) (tile p seq outcome : Nat) : Mod :=
  if outcome = 0 then s.raiseNow .ST_STATUS_SHADOW_SKIPPED tile else
  let s := s.countReg .ST_SHADOW_CHECKED tile 1
  if outcome = 1 then s else
  let s := (s.countReg .ST_SHADOW_DISAGREE tile 1).raiseNow .ST_STATUS_SHADOW_DISAGREE tile
  let s := if s.bit .ST_SHADOW_FIRST_VALID tile then s
    else (s.put .ST_SHADOW_FIRST tile (BitVec.ofNat 32 (2 ^ 31 + seq % 2 ^ 24))).putPair .ST_SHADOW_FRAME_LO .ST_SHADOW_FRAME_HI tile s.fc.num
  let s := s.note p s.fc.num (.of 16 tile 0 0 0 0)
  (s.mapStep p fun st => if st.phase = .executing then { st with shadowBad := true } else st).alertNow .CQ_ALERT_CAUSE_SHADOW p

/-- The release of the object that holds a polder's trace buffer stops its capture (R446). -/
def Mod.stopIfIn (s : Mod) (p n : Nat) : Mod :=
  match s.ob.traces.get p, s.obj p n with
  | some t, some o => if o.holds t.base 1 then s.stopTrace p false else s
  | _, _ => s

/-- A per-channel entry (R104). -/
def Mod.putPcs (s : Mod) (idx : Nat) (ws : List Word) : Mod :=
  let s := (s.put .EX_PCS_CTRL idx (ws.getD 0 0)).put .EX_PCS_SCALE idx (ws.getD 1 0)
  (List.range 8).foldl (fun s i => s.put .EX_PCS_TABLE (idx * 8 + i) (ws.getD (2 + i) 0)) s

/-- The effects of a frame on registers, descriptors, objects and counts, in the order of their staging: step 5 of R45. -/
def Mod.applyOne (stg : List Staged) (s : Mod) (x : Staged × Nat) : Mod :=
  match x.1.eff with
  | .collOpen n p mode => { s with tile := { s.tile with colls := s.tile.colls.set n ⟨p, mode, .empty, []⟩ } }
  | .pcs idx ws => s.putPcs idx ws
  | .reg r idx v => s.put r idx v
  | .regBits r idx m v => s.put r idx ((s.rd r idx &&& ~~~m) ||| (v &&& m))
  | .count r idx n => s.countReg r idx n
  | .countFld f idx n => s.bumpFld f idx n
  | .flag r idx b => s.put r idx (s.rd r idx ||| b)
  | .descCreate p h d => { s with td := s.td.set (objKey p h) d }
  | .descDestroy p h => { s with td := s.td.del (objKey p h) }
  | .objAlloc p n o fs sys => s.putObj p n o fs sys
  | .objRelease p n => (s.stopIfIn p n).releaseObj p n
  | .migSub p page k => if k = 31 then s.landMig p page else s
  | .retire id => s.markRetire id
  | .slotCount n conv flag sat bins =>
    let seen := slotsBefore (stg.take x.2) x.1.rank
    if x.1.rank < 192 ∧ 16 ≤ seen.length ∧ !has seen n then (s.addSlot n conv flag sat []).raiseNow .ST_STATUS_HIST_DROP x.1.rank else s.addSlot n conv flag sat bins
  | .slotMarks p addr marks => s.markBlocks p addr marks
  | .lane none k v => { s with tile := { s.tile with lanes := s.tile.lanes.set k v } }
  | .lane (some r) k v => { s with ue := { s.ue with running := s.ue.running.map fun p => if p.runner = r then { p with lanes := p.lanes.set k v } else p } }
  | .indexErr p die xf h errs => s.indexErrors p die xf h errs
  | .tileSeq t n => { s with tile := { s.tile with seqs := s.tile.seqs.set t (s.tile.seqs.getD t 0 + n) } }
  | .shadow t p seq o => s.shadowEnd t p seq o
  | .stageUse p n rows => s.putStageUse p n rows
  | .stepLoad p prog => { s with ue := { s.ue with progs := s.ue.progs.set p prog } }
  | .event b i n => s.event s.fc.num b i n
  | .trace p 3 src _ _ _ _ _ _ _ => s.note p s.fc.num (.of 17 src 0 0 0 0)
  | .brkSet p id b => s.setBrk p id b
  | .brkResume p ids single => s.resumeBrk p ids single
  | .unseal owner => { s with ue := { s.ue with seals := s.ue.seals.filter fun y => y.2.2.2.1 != 0 || y.2.2.2.2 != owner } }
  | .importFail p reason slot chunk => s.importRecord p reason slot chunk
  | _ => s

/-- Every effect of the frame that is no data (R45 step 5). -/
def Mod.applyRest (s : Mod) : Mod := s.stg.zipIdx.foldl (Mod.applyOne s.stg) s

/-- An effect that waited for a step's commit, applied (R49). -/
def Mod.applyBehind (s : Mod) (b : StepStage) : Mod :=
  match b.eff with
  | .mem p cells => s.writeNow p cells
  | .sram t cells => s.putLoc (.sram t) cells
  | .reduce p cs => s.applyReduce p cs
  | _ => s

end Sys2Proof.Machine
end

