-- ==== Sys2Proof/Machine/Control.lean ====
section
/-! DEFINITION. Control and weir commands, class 0x0 (R318 to R320). -/

namespace Sys2Proof.Machine

/-- NOP: LEN 0. -/
def blkNop (_ : Mod) (_ : Nat) (ps : List Word) : Chk Unit := lenChk ps 0

/-- DELAY: N. -/
def blkDelay (_ : Mod) (_ : Nat) (ps : List Word) : Chk Unit := do
  lenChk ps 4
  rsvChk ps [.w 0 0xFFFF0000]

/-- A list of weirs: RSV bits, then the polder of every weir (R58). -/
def weirList (s : Mod) (pol : Nat) (ps : List Word) (mask shift : Nat) : Chk Unit := do
  lenRange ps 4 256 4
  rsvChk ps ((List.range ps.length).map fun k => .w (4 * k) mask)
  allChk ((List.range ps.length).map fun k => ensure (s.fld .WEIR_CTRL_POLDER (pw ps (4 * k) / 2 ^ shift % 16384) == pol) 0x50 (detailAt (4 * k)))

/-- SIGNAL: WEIR and ADD per word. -/
def blkSignal (s : Mod) (pol : Nat) (ps : List Word) : Chk Unit := weirList s pol ps 0xC0000000 16

/-- WEIR_CLEAR: WEIR per word. -/
def blkWeirClear (s : Mod) (pol : Nat) (ps : List Word) : Chk Unit := weirList s pol ps 0xFFFFC000 0

/-- The header of a frame program at an address, read in frame a + 1 (R319, R320): its checks in the order of R320. `nh` is the number of handles
given; the detail names the parameter that names the header. -/
def Mod.progHeader (s : Mod) (pol addr nh : Nat) (step : Option Bool) (st det : Nat) : Chk Unit := do
  let h (k : Nat) := s.getN pol (addr + 4 * k) 4
  let code := h 4 + 2 ^ 32 * bits (h 5) 15 0
  ensure (s.mapped pol addr 64) 0x16 det
  ensure (s.mapped pol code (h 6)) 0x16 det
  ensure ([0, 1, 2, 3].all fun d => !(h 1).testBit d || s.dieOf d == pol) 0x50 det
  ensure (h 0 / 2 ^ 29 == 0 && bits (h 0) 19 16 == 0 && h 1 / 32 == 0 && h 4 % 64 == 0 && h 5 / 65536 == 0 && h 6 % 64 == 0 && h 7 / 65536 == 0
    && [8, 9, 10, 11, 12, 13, 14, 15].all fun k => h k == 0) st det
  ensure ((s.rd .HC_CONTRACT 0).toNat.testBit (bits (h 0) 23 20)) st det
  ensure (bits (h 0) 15 0 != 0 && bits (h 1) 3 0 != 0 && decide (bits (h 7) 15 0 ≤ nh)) st det
  match step with
  | some b => ensure ((h 1).testBit 4 == b) st det
  | none => .ok ()

/-- RUN_PROGRAM: LEN 12 to 448, step 4; the handles past NHANDLES are 0; the header's checks follow (R320). -/
def blkRunProgram (step : Bool) (s : Mod) (pol : Nat) (ps : List Word) : Chk Unit := do
  lenRange ps 12 448 4
  let nh := pw ps 8 % 65536
  rsvChk ps [.addr 0, .w 8 0xFFFF0000]
  ensure (decide (nh ≤ 2 * (ps.length - 3))) 0x04 (detailAt 8)
  allChk ((List.range (2 * (ps.length - 3))).map fun k =>
    ensure (decide (k < nh) || pw ps (12 + k / 2 * 4) / 2 ^ (k % 2 * 16) % 65536 == 0) 0x04 (detailAt (12 + k / 2 * 4)))
  s.progHeader pol (pq ps 0) nh (some step) 0x04 (detailAt 0)

/-- NOP does no work (R279). -/
def planNop (_ : Mod) (_ : Ctx) (_ : List Word) : Chk Plan := .ok (.ok 0 none [] 1)

/-- NOP (R279). -/
def execNop (c : CmdId) (s : State) : Host.Outcome State Fault Refusal := s.when (s.m.granted c 0x0000) (s.m.runCmd c planNop)

/-- DELAY executes in frames e to e + N - 1; N = 0 completes with OK_EMPTY (R318). -/
def Mod.runDelay (s : Mod) (c : CmdId) : Mod :=
  match s.cmd c with
  | none => s
  | some x =>
    let n := pw x.params 0 % 65536
    if n = 0 then s.landIn x (.empty []) 1 else s.landIn x (.ok 0 none [] 1) n

/-- DELAY (R318). -/
def execDelay (c : CmdId) (s : State) : Host.Outcome State Fault Refusal := s.when (s.m.granted c 0x0001) (s.m.runDelay c)

/-- The frame sequencer that stands for a program's own actions: the first of its first die. -/
def Prog.fsq (p : Prog) : Option Engine := p.dies.head?.map fun d => .fsq ⟨d % 4, Nat.mod_lt _ (by decide)⟩ 0

/-- SIGNAL stages its signals in frame e with the header's signals (R318); a frame program's signals are staged in the frame in which it gives them (R55, R294). -/
def Mod.runSignal (s : Mod) (w : Work) : Mod :=
  match w with
  | .packet c => match s.cmd c with
    | none => s
    | some x =>
      if s.closedTo x then s.finish x 0x05 noDetail else
      s.landIn { x with sigs := x.params.map fun w => { weir := bits w.toNat 29 16, add := bits w.toNat 15 0, seq := x.seq, src := x.src } } (.ok 0 none [] 1) 1
  | .program r ps => match s.prog r with
    | none => s
    | some p => match blkSignal s p.pol ps with
      | .ok () => { s with wr := { s.wr with sigs := s.wr.sigs ++ ps.map fun w => { weir := bits w.toNat 29 16, add := bits w.toNat 15 0, seq := 0, eng := p.fsq, src := p.dies.headD 0 * 2 ^ 22 + 65536 } } }
      | .error e =>
        let s := if e.1 = 0x50 then s.countLater .SP_DIKE_DENIED p.pol 1 else s
        { s with fc := { s.fc with stuck := s.fc.stuck ++ p.fsq.toList } }

/-- SIGNAL (R318). -/
def execSignal (w : Work) (s : State) : Host.Outcome State Fault Refusal := s.when (s.m.workReady w 0x0002) (s.m.runSignal w)

/-- WEIR_CLEAR clears every listed weir at sluice e, before the frame's signals (R58, R318). -/
def Mod.runWeirClear (s : Mod) (c : CmdId) : Mod :=
  match s.cmd c with
  | none => s
  | some x =>
    if s.closedTo x then s.finish x 0x05 noDetail else
    let s := s.landIn x (.ok 0 none [] 1) 1
    { s with wr := { s.wr with clears := s.wr.clears ++ x.params.map fun w => w.toNat % 16384 } }

/-- WEIR_CLEAR (R318). -/
def execWeirClear (c : CmdId) (s : State) : Host.Outcome State Fault Refusal := s.when (s.m.granted c 0x0003) (s.m.runWeirClear c)

/-- FRAME_MARK: CR_RESULT receives e (R318). -/
def planFrameMark (s : Mod) (_ : Ctx) (_ : List Word) : Chk Plan := .ok { Plan.ok 0 none [] 1 with result := s.fc.num }

/-- FRAME_MARK (R318). -/
def execFrameMark (c : CmdId) (s : State) : Host.Outcome State Fault Refusal := s.when (s.m.granted c 0x0004) (s.m.runCmd c planFrameMark)

/-- The frame program that a header's words describe, from this frame on, with the descriptors that it latched. -/
def Mod.progAt (s : Mod) (r : Runner) (pol : Nat) (head : List Nat) (handles : Option (List (Nat × Desc))) : Prog :=
  let h (k : Nat) := head.getD k 0
  { runner := r, pol := pol, dies := [0, 1, 2, 3].filter fun d => (h 1).testBit d, first := s.fc.num, frames := bits (h 0) 15 0
    code := h 4 + 2 ^ 32 * bits (h 5) 15 0, step := (h 1).testBit 4, handles := handles, halted := 0, used := [], jobs := [], ended := false, lanes := .empty, land := [] }

/-- Handle k of a RUN_PROGRAM's list (R318). -/
def handleAt (ps : List Word) (k : Nat) : Nat := pw ps (12 + k / 2 * 4) / 2 ^ (k % 2 * 16) % 65536

/-- The checks of RUN_PROGRAM at e: the first COUNT handles (R198), then the frame length of the header that was read in frame a + 1 (R40, R319, R320). -/
def chkRunProgram (s : Mod) (c : Ctx) (ps : List Word) (head : List Nat) : Chk Unit := do
  allChk ((List.range (head.getD 7 0 % 65536)).map fun k =>
    let h := handleAt ps k
    ensure (match s.td.get (objKey c.pol h) with
      | some d => h != 0 && !d.stale
      | none => false) 0x10 (detailAt (12 + k / 2 * 4)))
  ensure (bits (head.getD 0 0) 28 24 == s.log2) 0x24 (detailAt 0)

/-- The descriptors of the first COUNT handles, as a RUN_PROGRAM latches them (R198, R320). -/
def Mod.latch (s : Mod) (pol : Nat) (ps : List Word) (count : Nat) : List (Nat × Desc) :=
  (List.range count).filterMap fun k => (s.td.get (objKey pol (handleAt ps k))).map fun d => (handleAt ps k, d)

/-- RUN_PROGRAM checks its handles and the frame length, and runs the program for its FRAMES on the named dies (R320, R40). -/
def Mod.runRunProgram (s : Mod) (c : CmdId) : Mod :=
  match s.cmd c with
  | none => s
  | some x =>
    let ps := x.params
    if s.closedTo x then s.finish x 0x05 noDetail else
    match chkRunProgram s (s.ctxOf x) ps x.header with
    | .error (st, d) => s.finish x st d
    | .ok () =>
      let p := s.progAt (.cmd c) x.pol x.header (some (s.latch x.pol ps (x.header.getD 7 0 % 65536)))
      let s := s.landIn x (.ok 0 none [] 1) p.frames
      { s with ue := { s.ue with running := s.ue.running ++ [p] } }

/-- RUN_PROGRAM (R320). -/
def execRunProgram (c : CmdId) (s : State) : Host.Outcome State Fault Refusal := s.when (s.m.granted c 0x0005) (s.m.runRunProgram c)

end Sys2Proof.Machine
end

