-- ==== Sys2Proof/Machine/Steps.lean ====
section
/-! DEFINITION. Steps: step programs, the step loop, the vote, and the closing of a step (09_gradient_exchange_and_update.md R255 to R270, 11 R334 to R338,
06 R171 to R174, 13 R397, R398). -/

namespace Sys2Proof.Machine

/-! ## STEP_LOAD -/

/-- STEP_LOAD: the block of R335; counts outside their limits (R336). -/
def blkStepLoad (_ : Mod) (_ : Nat) (ps : List Word) : Chk Unit := do
  lenChk ps 80
  let all := 0xFFFFFFFF
  rsvChk ps [.addr 0, .addr 0x10, .w 0x1C all, .addr 0x20, .w 0x2C all, .addr 0x30, .w 0x3C all, .addr 0x40, .w 0x4C all]
  ensure (decide (1 ≤ pw ps 8 ∧ pw ps 8 ≤ 256)) 0x04 (detailAt 8)
  allChk ([0x18, 0x28, 0x38, 0x48].map fun o => ensure (decide (pw ps o ≤ 4096)) 0x04 (detailAt o))

/-- The entries of a list in device memory. -/
def Mod.listAt (s : Mod) (p addr n w : Nat) : List Nat := (List.range n).map fun i => s.getN p (addr + w * i) w

/-- The frame schedule hash: the low 64 bits of SHA-384 over the headers in list order (R336). -/
def Mod.scheduleHash (s : Mod) (p : Nat) (progs : List Nat) : Nat := (sha384 (progs.flatMap fun a => s.getBs p a 64)).toNat % 2 ^ 64

/-- The step program that a STEP_LOAD block describes. -/
def Mod.stepProgAt (s : Mod) (p : Nat) (ps : List Word) : StepProg :=
  let progs := (s.listAt p (pq ps 0) (pw ps 8) 8).map (· % 2 ^ 48)
  { progs := progs, heads := progs.map fun a => (List.range 16).map fun k => s.getN p (a + 4 * k) 4, seed := pw ps 0xC, buckets := (s.listAt p (pq ps 0x10) (pw ps 0x18) 8).map (· % 2 ^ 48), slots := s.listAt p (pq ps 0x20) (pw ps 0x28) 2
    groups := s.listAt p (pq ps 0x30) (pw ps 0x38) 2, stages := s.listAt p (pq ps 0x40) (pw ps 0x48) 2, hash := s.scheduleHash p progs }

/-- STEP_LOAD checks its lists, programs, buckets, groups, slots and staging objects, and replaces the polder's step program (R336). -/
def planStepLoad (s : Mod) (c : Ctx) (ps : List Word) : Chk Plan := do
  let p := c.pol
  ensure (!s.stepping p) 0x04 noDetail
  allChk ([(0, 8, 8), (0x10, 0x18, 8), (0x20, 0x28, 2), (0x30, 0x38, 2), (0x40, 0x48, 2)].map fun x => s.srcChk p (pq ps x.1) (pw ps x.2.1 * x.2.2) x.1)
  let sp := s.stepProgAt p ps
  allChk (sp.progs.map fun a => do
    s.progHeader p a 0 (some true) 0x04 (detailAt 0)
    ensure (bits (s.getN p a 4) 28 24 == s.log2) 0x24 (detailAt 0))
  allChk (sp.buckets.map fun a => s.bucketChk p a (detailAt 0x10) true)
  ensure (s.bucketsChk (sp.buckets.map fun a => s.bucketAt p a 0 none)) 0x35 (detailAt 0x10)
  ensure (sp.groups.all fun g => decide (g < 4096) && s.groupUsable p g) 0x34 (detailAt 0x30)
  ensure (sp.slots.all fun n => decide (n < 4096) && s.slotUsable p n) 0x30 (detailAt 0x20)
  ensure (sp.stages.all fun n => (s.obj p n).isSome) 0x56 (detailAt 0x40)
  ensure (sp.stages.all fun n => match s.stageHead p n with
    | some h => s.groupUsable p h.group && (s.group h.group).isRow && h.width == (s.group h.group).width && h.cap != 0
    | none => false) 0x34 (detailAt 0x40)
  let n := pw ps 8 + pw ps 0x18 + pw ps 0x28 + pw ps 0x38 + pw ps 0x48
  .ok (.ok 0 none [.stepLoad p sp] (1 + ceilDiv n 256))

/-- STEP_LOAD (R336). -/
def execStepLoad (c : CmdId) (s : State) : Host.Outcome State Fault Refusal := s.when (s.m.granted c 0x6000) (s.m.runCmd c planStepLoad)

/-! ## STEP_RUN, loops -/

/-- STEP_RUN: BATCH_WEIR of the function's polder (R58), BATCH_ID. -/
def blkStepRun (s : Mod) (pol : Nat) (ps : List Word) : Chk Unit := do
  lenChk ps 16
  rsvChk ps [.w 0 0xFFFFC000, .w 4 0xFFFFFFFF]
  ensure (s.fld .WEIR_CTRL_POLDER (pw ps 0) == pol) 0x50 (detailAt 0)

/-- A command of the step loop begins: it runs until its end is known. -/
def Mod.beginRun (s : Mod) (x : Cmd) (waits : List WaitOn) : Mod :=
  s.setCmd { x with phase := .running, first := s.fc.num, fin := never, status := 0, detail := noDetail, waits := waits }

/-- STEP_RUN posts its wait on the batch weir (R337). -/
def Mod.runStepRun (s : Mod) (c : CmdId) : Mod :=
  match s.cmd c with
  | none => s
  | some x =>
    if s.closedTo x then s.finish x 0x05 noDetail
    else if (s.ue.progs.get x.pol).isNone then s.finish x 0x04 noDetail
    else s.beginRun x [⟨pw x.params 0, 0⟩]

/-- STEP_RUN (R337). -/
def execStepRun (c : CmdId) (s : State) : Host.Outcome State Fault Refusal := s.when (s.m.granted c 0x6001) (s.m.runStepRun c)

/-- LOOP_START: WEIR0, NWEIRS, STEPS, DONE_WEIR, BATCH_ID0; the weirs of the ring exist and are the polder's. -/
def blkLoopStart (s : Mod) (pol : Nat) (ps : List Word) : Chk Unit := do
  lenChk ps 24
  rsvChk ps [.w 0 0xFFFFC000, .w 4 0xFFFF8000, .w 12 0xFFFFC000]
  ensure (decide (1 ≤ pw ps 4 ∧ pw ps 0 + pw ps 4 ≤ 16384)) 0x04 (detailAt 4)
  ensure ((List.range (pw ps 4)).all fun i => s.fld .WEIR_CTRL_POLDER (pw ps 0 + i) == pol) 0x50 (detailAt 0)
  ensure (s.fld .WEIR_CTRL_POLDER (pw ps 12) == pol) 0x50 (detailAt 12)

/-- LOOP_START starts the polder's loop (R337). -/
def Mod.runLoopStart (s : Mod) (c : CmdId) : Mod :=
  match s.cmd c with
  | none => s
  | some x =>
    let ps := x.params
    if s.closedTo x then s.finish x 0x05 noDetail
    else if (s.ue.progs.get x.pol).isNone then s.finish x 0x04 noDetail
    else
      let l : Loop := { q := x.qn, seq := x.seq, weir0 := pw ps 0, nweirs := pw ps 4, steps := pw ps 8, doneWeir := pw ps 12, batch0 := pq ps 16
                        started := 0, committed := 0, released := false, stop := [] }
      let s := s.beginRun x []
      { s with ue := { s.ue with loops := s.ue.loops.set x.pol l } }

/-- LOOP_START (R337). -/
def execLoopStart (c : CmdId) (s : State) : Host.Outcome State Fault Refusal := s.when (s.m.granted c 0x6002) (s.m.runLoopStart c)

/-- LOOP_STOP: LEN 0. -/
def blkLoopStop (_ : Mod) (_ : Nat) (ps : List Word) : Chk Unit := lenChk ps 0

/-- LOOP_STOP ends a loop that waits on a batch weir at once, and another at its current step's closing sluice (R337). -/
def Mod.runLoopStop (s : Mod) (c : CmdId) : Mod :=
  match s.cmd c with
  | none => s
  | some x =>
    if s.closedTo x then s.finish x 0x05 noDetail else
    match s.ue.loops.get x.pol with
    | none => s.landIn x (.empty []) 1
    | some l =>
      let s := s.beginRun x []
      let l := { l with stop := l.stop ++ [(x.qn, x.seq)] }
      if (s.ue.steps.get x.pol).isNone && !l.released then s.endLoop x.pol s.fc.num 0x00 l
      else { s with ue := { s.ue with loops := s.ue.loops.set x.pol l } }

/-- LOOP_STOP (R337). -/
def execLoopStop (c : CmdId) (s : State) : Host.Outcome State Fault Refusal := s.when (s.m.granted c 0x6003) (s.m.runLoopStop c)

/-! ## Step records (R397) -/

/-- The physical address of a page of a polder's recovery area. -/
def Mod.areaAt (s : Mod) (p page : Nat) : Option Nat := (s.mem.recovery.find? fun a => a.1 == p && a.2.1 == page).map (·.2.2 * 2 ^ 21)

/-- Bytes at a physical address. -/
def Mod.physBs (s : Mod) (a n : Nat) : List Byte := getBytes s.mem.cells a n

/-- Bytes written at a physical address. -/
def Mod.putPhys (s : Mod) (a : Nat) (bs : List Byte) : Mod := { s with mem := { s.mem with cells := (wcells a bs).foldl putCell s.mem.cells } }

/-- The physical address of record i of a polder. -/
def Mod.recordAt (s : Mod) (p i : Nat) : Option Nat := (s.areaAt p 1).map fun a => a + 0x4000 * (i % 128)

/-- The 16 KiB step record of an attempt that ends at a sluice (R397). -/
def Step.record (st : Step) (hash f det : Nat) : List Byte :=
  let kind := if st.abandoned ∧ st.voteAt.isNone then 0 else match st.by_ with
    | .diag _ _ _ => 0
    | _ => st.outcome
  let top := leBytes st.num 8 ++ leBytes st.batch 8 ++ leBytes st.seed 4 ++ leBytes (st.attempt % 256 + kind * 256) 4 ++ leBytes hash 8 ++ leBytes st.opened 8
    ++ leBytes (st.voteAt.getD 0) 8 ++ leBytes f 8 ++ leBytes st.word 4 ++ leBytes det 4 ++ leBytes st.indexErrors 4
  let slots := (List.range 4096).flatMap fun n => leBytes (match st.image.find? fun x => x.1 == n with
    | some x => x.2
    | none => 0) 2
  let l := top ++ List.replicate (0x100 - top.length) 0 ++ slots
  l ++ List.replicate (0x4000 - l.length) 0

/-- An attempt's record is written; FC_DET_STATUS is captured into it and cleared (R64, R397). -/
def Mod.writeRecord (s : Mod) (p f : Nat) (st : Step) : Mod :=
  let i := s.ue.records.getD p 0
  let bs := st.record (((s.ue.progs.get p).map (·.hash)).getD 0) f (s.rd .FC_DET_STATUS 0).toNat
  let s := match s.recordAt p i with
    | some a => s.putPhys a bs
    | none => s
  { s.put .FC_DET_STATUS 0 0#32 with ue := { s.ue with records := s.ue.records.set p (i + 1) } }

/-- RECORD_READ: STEP and DEST. -/
def blkRecordRead (_ : Mod) (_ : Nat) (ps : List Word) : Chk Unit := do
  lenChk ps 16
  rsvChk ps [.addr 8]

/-- The held record of a step's last attempt, by its physical address. -/
def Mod.findRecord (s : Mod) (p num : Nat) : Option Nat :=
  let n := s.ue.records.getD p 0
  ((List.range (min 128 n)).filterMap fun k => s.recordAt p (n - 1 - k)).find? fun a => leNat (s.physBs a 8) == num

/-- RECORD_READ copies a held record (R338, R397). -/
def planRecordRead (s : Mod) (c : Ctx) (ps : List Word) : Chk Plan := do
  match s.findRecord c.pol (pq ps 0) with
  | none => .error (0x04, detailAt 0)
  | some a =>
    s.destChk c.pol (pq ps 8) 0x4000 8
    .ok (resultPlan c (pq ps 8) (s.physBs a 0x4000))

/-- RECORD_READ (R338). -/
def execRecordRead (c : CmdId) (s : State) : Host.Outcome State Fault Refusal := s.when (s.m.granted c 0x6007) (s.m.runCmd c planRecordRead)

/-! ## REPLAY_DIAG -/

/-- REPLAY_DIAG: RECORD and DEST. -/
def blkReplayDiag (_ : Mod) (_ : Nat) (ps : List Word) : Chk Unit := do
  lenChk ps 16
  rsvChk ps [.addr 0, .addr 8]

/-- The checks of REPLAY_DIAG (R338): no step or loop, the record and the destination mapped, the schedule hash the loaded program's. -/
def chkReplayDiag (s : Mod) (p : Nat) (ps : List Word) : Chk Unit := do
  ensure (!s.stepping p) 0x04 noDetail
  match s.ue.progs.get p with
  | none => .error (0x04, noDetail)
  | some sp =>
    s.srcChk p (pq ps 0) 0x4000 0
    s.destChk p (pq ps 8) (64 + 48 * sp.buckets.length) 8
    ensure (s.getN p (pq ps 0 + 0x18) 8 == sp.hash) 0x04 (detailAt 0)

/-- REPLAY_DIAG opens its step at sluice e (R338, R398). -/
def Mod.runReplayDiag (s : Mod) (c : CmdId) : Mod :=
  match s.cmd c with
  | none => s
  | some x =>
    if s.closedTo x then s.finish x 0x05 noDetail else
    match chkReplayDiag s x.pol x.params with
    | .error (st, d) => s.failAt x st d
    | .ok () => s.beginRun x []

/-- REPLAY_DIAG (R338). -/
def execReplayDiag (c : CmdId) (s : State) : Host.Outcome State Fault Refusal := s.when (s.m.granted c 0x6006) (s.m.runReplayDiag c)

/-! ## Opening -/

/-- What opens a polder's next step at sluice f, with its batch (R33, R337, R338). -/
def Mod.opener (s : Mod) (p f : Nat) : Option (StepBy × Nat) :=
  match s.ue.loops.get p with
  | some l => if l.released then some (.loop, l.batch0 + l.started) else none
  | none =>
    let ready (c : Cmd) : Bool := !c.mgmt && c.pol == p && c.phase == .running && decide (c.first ≤ f)
      && ((c.opcode == 0x6001 && c.waits.isEmpty) || c.opcode == 0x6006)
    (sortBy (·.ord) (s.cq.cmds.filter ready)).head?.map fun c =>
      if c.opcode = 0x6001 then (.run c.qn c.seq, pq c.params 8)
      else (.diag c.qn c.seq (pq c.params 8), s.getN p (pq c.params 0 + 8) 8)

/-- The record that a REPLAY_DIAG command names. -/
def Mod.diagRecord (s : Mod) (b : StepBy) : Option Nat :=
  match b with
  | .diag q k _ => (s.cq.cmds.find? fun c => !c.mgmt && c.qn == q && c.seq == k).map fun c => pq c.params 0
  | _ => none

/-- Whether a GROUP_INIT of a group that the step names still runs (R333). -/
def Mod.groupInit (s : Mod) (p : Nat) (sp : StepProg) : Bool :=
  s.cq.cmds.any fun c => !c.mgmt && c.pol == p && c.opcode == 0x5001 && (c.phase == .running || c.phase == .granted) && has sp.groups (pw c.params 0)

/-- Whether a polder's step opens at the sluice that is being taken. -/
def Mod.stepDue (s : Mod) (p : Nat) : Bool :=
  match s.sluiceB, s.ue.progs.get p with
  | some f, some sp => (s.ue.steps.get p).isNone && (s.opener p f).isSome && !s.groupInit p sp
  | _, _ => false

/-- Whether each die of a program has a free program slot (R294). -/
def Mod.slotsFree (s : Mod) (dies : List Nat) : Bool := let held := s.heldCaps; (fsqCaps dies).all (Cap.fits held)

/-- The next program of a polder's step starts in the frame that begins, if none of its programs runs and its slots are free; one whose frame length is not
the active one does not execute (R40, R294, R336). -/
def Mod.nextProg (s : Mod) (p : Nat) : Mod :=
  match s.stepOf p, s.ue.progs.get p with
  | some st, some sp =>
    if st.phase != .executing || st.todo.isEmpty || s.ue.running.any (fun r => match r.runner with
        | .step q _ => q.val == p && !r.ended
        | .cmd _ => false) then s else
    match st.todo.dropWhile fun i => bits ((sp.heads.getD i []).getD 0 0) 28 24 != s.log2 with
    | [] => s.mapStep p fun st => { st with todo := [] }
    | i :: rest =>
      let r := s.progAt (.step ⟨p % 4, Nat.mod_lt _ (by decide)⟩ ⟨i % 256, Nat.mod_lt _ (by decide)⟩) p (sp.heads.getD i []) none
      if s.slotsFree r.dies then { (s.mapStep p fun st => { st with todo := rest }) with ue := { (s.mapStep p fun st => { st with todo := rest }).ue with running := s.ue.running ++ [r] } }
      else s.mapStep p fun st => { st with todo := i :: rest }
  | _, _ => s

/-- What opens anew with every attempt of a step: slot counts, tile sequences, draw states, buckets (R87, R166, R180, R248). -/
def Mod.freshAttempt (s : Mod) (p f num : Nat) (sp : StepProg) : Mod :=
  let o := f + 1
  let stats := sp.slots.foldl (fun t n => t.set n { SlotStat.zero with step := num }) s.ue.stats
  let s := { s with ue := { s.ue with stats := stats }
                    tile := { s.tile with seqs := s.tile.seqs.filter fun t _ => s.dieOf (t / 48) != p
                                          lanes := s.tile.lanes.filter fun k _ => s.dieOf (k / 256 / 1024 % 4) != p } }
  let bs := sp.buckets.map fun a => { s.bucketAt p a (o + s.getN p (a + 0xC) 4) none with state := 1 }
  let s := s.setBkts p ((s.bkts p).filter (·.owner.isSome) ++ bs)
  bs.foldl (Mod.openBkt p) s

/-- The image words of a polder's usable slots. -/
def Mod.slotImages (s : Mod) (p : Nat) : List (Nat × Nat) :=
  ((List.range 4096).filter fun n => s.slotUsable p n).map fun n => (n, s.slotImage n)

/-- A step opens at sluice f: its number, seed, transaction, buckets and first program (R49, R336, R337, R398). -/
def Mod.openStep (s : Mod) (p : Nat) : Mod :=
  match s.ue.progs.get p with
  | some sp =>
    let f := s.fc.num
    match s.opener p f with
    | none => s
    | some (b, batch) =>
      let diag := s.diagRecord b
      let saved : List (Nat × Word × Word) := match diag with
        | some _ => ((List.range 4096).filter fun n => s.slotUsable p n).map fun n => (n, s.rd .GS_CTRL n, s.rd .GS_BASE n)
        | none => []
      let num := match diag with
        | some a => s.getN p a 8
        | none => s.pair .UE_STEP_LO .UE_STEP_HI p + 1
      let seed := match diag with
        | some a => s.getN p (a + 0x10) 4
        | none => (sp.seed + num % 2 ^ 32 * 0x9E3779B9) % 2 ^ 32
      let s := match diag with
        | some a => saved.foldl (fun (s : Mod) (x : Nat × Word × Word) => s.loadSlot x.1 (s.getN p (a + 0x100 + 2 * x.1) 2)) s
        | none => s.putPair .UE_STEP_LO .UE_STEP_HI p num
      let st : Step :=
        { by_ := b, num := num, batch := batch, seed := seed, attempt := 0, opened := f + 1, phase := .executing, reasons := 0, abandoned := false, plain := false
          ballotAt := none, ballot := 0, word := 0, voteAt := none, outcome := 0, decidedAt := 0, ballots := [], closes := [], workEnd := 0, selected := false
          select := [], pass := .fresh 0, passTwoAt := none, norms := ⟨.empty, .empty, (0, false)⟩, clip := f32One, indexErrors := 0, shadowBad := false
          todo := List.range sp.progs.length, image := s.slotImages p, restore := saved }
      let s := { s with ue := { s.ue with steps := s.ue.steps.set p st } }
      let s := (s.setFld .SC_REPLAY_STATUS_ATTEMPTS p 0).freshAttempt p f num sp
      match b, s.ue.loops.get p with
      | .loop, some l =>
        let w := l.weir
        let s := { s with ue := { s.ue with loops := s.ue.loops.set p { l with started := l.started + 1, released := false } } }
        (s.endCmds (fun c => c.waitsOn w) 0x23 f).put .WEIR_COUNT w 0#32
      | _, _ => s
  | none => s

/-! ## The vote -/

/-- The step program of a polder; one that a reset took is empty. -/
def Mod.stepProg (s : Mod) (p : Nat) : StepProg := (s.ue.progs.get p).getD ⟨[], [], 0, [], [], [], [], 0⟩

/-- Whether a polder, the hub or the module is in reset: the polder's part of the step waits. -/
def Mod.polderDown (s : Mod) (p : Nat) : Bool := s.rel.resets.any fun r => r.kind == 4 && r.index == p || r.kind == 2 || r.kind == 5

/-- The last sluice at which a ballot of the step may count: O + VOTE_AT (R255). -/
def Mod.voteBy (s : Mod) (p : Nat) (st : Step) : Nat := st.opened + (s.rd .UE_VOTE_AT p).toNat

/-- Whether a polder's step has no work left: programs, engines, commands and effects (R255). -/
def Mod.stepIdle (s : Mod) (p : Nat) (st : Step) : Bool :=
  st.todo.isEmpty && !s.ue.running.any (fun r => r.step && r.pol == p) && !s.ue.later.any (fun e => e.2.step == some p)
    && !s.cq.cmds.any fun c => c.step && !c.mgmt && c.pol == p && (c.phase == .running || c.phase == .granted || (c.phase == .ready && c.replayed))

/-- Whether the sluice that is being taken is a polder's ballot sluice. -/
def Mod.ballotDue (s : Mod) (p : Nat) : Bool :=
  match s.stepOf p, s.sluiceA with
  | some st, some f => st.phase == .executing && decide (st.opened ≤ f) && !s.polderDown p && s.stepIdle p st
      && (s.bkts p).all fun b => b.owner.isSome || b.failed || b.state == 3
  | _, _ => false

/-- Whether a step is a diagnostic replay's. -/
def Step.isDiag (st : Step) : Bool :=
  match st.by_ with
  | .diag _ _ _ => true
  | _ => false

/-- What R173 decides is recorded in SC_REPLAY_STATUS (R184). -/
def Mod.noteReplay (s : Mod) (p : Nat) (r : ReplaySay) : Mod :=
  let s := if r.causes.testBit 1 then s.raiseNow .SC_REPLAY_STATUS_CAUSE_FRACTION p else s
  let s := if r.causes.testBit 2 then s.raiseNow .SC_REPLAY_STATUS_CAUSE_GUARD p else s
  let s := if r.causes.testBit 3 then s.raiseNow .SC_REPLAY_STATUS_CAUSE_SHADOW p else s
  let s := if r.limit then s.raiseNow .SC_REPLAY_STATUS_LIMIT p else s
  match r.slot with
  | some n => s.setFld .SC_REPLAY_STATUS_SLOT p n
  | none => s

/-- The polder's ballot: R173 is evaluated, the reasons gathered, and the ballot sent to every member in the next frame (R255, R256). -/
def Mod.castBallot (s : Mod) (p : Nat) : Mod :=
  match s.stepOf p with
  | some st =>
    let f := s.fc.num
    let bs := (s.bkts p).filter (·.owner.isNone)
    let say := if st.isDiag then ReplaySay.mk false false 0 none else s.replaySay p st
    let s := s.noteReplay p say
    let reasons := st.reasons ||| ((if bs.any (·.nonfinite) then 1 else 0) + (if say.replay then 2 else 0) + (if say.limit then 32 else 0) + (if bs.any (·.failed) then 256 else 0))
    let word := st.num % 65536 * 65536 + reasons % 2048
    let at_ := f + 1 + s.hops p
    let mine := if at_ ≤ s.voteBy p st then [Heard.mk (s.rank p) word at_] else []
    let s := s.put .UE_VOTE_LOCAL p (BitVec.ofNat 32 word)
    let s := s.mapStep p fun st => { st with phase := .balloted, ballotAt := some f, ballot := word, ballots := st.ballots ++ mine }
    (s.peers p).foldl (fun s r => s.sendRank p r 1 2 word st.num (f + 1) []) s
  | none => s

/-- A ballot of a member is held at its sluice; one for another step, or too late, counts nowhere (R255). -/
def Mod.onBallot (s : Mod) (m : Msg) : Mod :=
  s.deliver m fun s p => match s.stepOf p, s.rankOf p m.src with
    | some st, some r =>
      if m.b = st.num ∧ s.fc.num ≤ s.voteBy p st ∧ (st.phase = .executing ∨ st.phase = .balloted) ∧ !(st.ballots.any fun h => h.rank == r)
      then s.mapStep p fun st => { st with ballots := st.ballots ++ [Heard.mk r m.a s.fc.num] } else s
    | _, _ => s

/-- BALLOT (R255). -/
def execBallot (l : Fin 32) (s : State) : Host.Outcome State Fault Refusal := s.onHeld l 2 fun m x => m.onBallot x

/-- The ranks whose words are held at a sluice. -/
def heardBy (l : List Heard) (f : Nat) : List Nat := (l.filter fun h => decide (h.at_ ≤ f)).map (·.rank)

/-- The members of a polder's group. -/
def Mod.ranks (s : Mod) (p : Nat) : List Nat := List.range (s.members p)

/-- Whether the sluice that is being taken is V (R257). -/
def Mod.voteDue (s : Mod) (p : Nat) : Bool :=
  match s.stepOf p, s.sluiceA with
  | some st, some f => (st.phase == .balloted || st.phase == .executing) && decide (st.opened ≤ f) && !s.polderDown p
      && (decide (s.voteBy p st ≤ f) || (s.ranks p).all fun r => has (heardBy st.ballots f) r)
  | _, _ => false

/-- Whether a link of a route to a member left UP in the frames from the ballot's to V (R260). -/
def Mod.routeLost (s : Mod) (p f : Nat) (st : Step) : Bool :=
  match st.ballotAt with
  | none => false
  | some b => (s.peers p).any fun r => (s.routeLinks (s.endpoint p r)).any fun l => decide (b + 1 < (s.link l).leftAt ∧ (s.link l).leftAt ≤ f + 1)

/-- A mask of ranks in the pair of UE_VOTE_MISSING. -/
def Mod.putMissing (s : Mod) (p : Nat) (l : List Nat) : Mod := s.putPair .UE_VOTE_MISSING_LO .UE_VOTE_MISSING_HI p (l.foldl (fun a r => a ||| 2 ^ r) 0)

/-- What a committed step's own work staged into the state blocks of its groups is there before pass two reads them; the seals hide both until C (log entry 97). -/
def Mod.applyEarly (s : Mod) (p : Nat) : Mod :=
  let rs := (s.stepProg p).groups.map fun n => ((s.group n).base, (s.group n).blockLen)
  let cut (b : StepStage) : Option StepStage × Option StepStage :=
    if b.pol != p || b.behind then (none, some b) else
    match b.eff with
    | .mem q cells => (some { b with eff := .mem q (cells.filter fun w => inRanges rs w.addr) }, some { b with eff := .mem q (cells.filter fun w => !inRanges rs w.addr) })
    | .reduce q cs => (some { b with eff := .reduce q (cs.filter fun c => inRanges rs c.addr) }, some { b with eff := .reduce q (cs.filter fun c => !inRanges rs c.addr) })
    | _ => (none, some b)
  let parts := s.ue.behind.map cut
  (parts.filterMap (·.1)).foldl Mod.applyBehind { s with ue := { s.ue with behind := parts.filterMap (·.2) } }

/-- What a committed step seals from V to C (R268): the state arrays of its dense groups (kind 1), its tables and row staging (kind 2). -/
def Mod.stepSeals (s : Mod) (p : Nat) : List (Nat × Nat × Nat × Nat × Nat) :=
  match s.ue.progs.get p with
  | none => []
  | some sp => (sp.groups.map fun n => let g := s.group n; (p, g.base, g.blockLen, if g.isRow then 2 else 1, 0))
      ++ sp.stages.filterMap fun o => (s.obj p o).map fun x => (p, x.base, x.pages * 2 ^ 21, 2, 0)

/-- The element sweeps of pass two (R272): two of a LAMB group, one of another. -/
def Mod.sweeps (s : Mod) (p : Nat) (sp : StepProg) : Nat := ((s.passItems p sp).map s.itemElems).sum

/-- What pass two reads and writes (R271): ranges of the payloads, of the groups' arrays, and of rows with their staging entries. -/
def Mod.passTraffic (s : Mod) (p : Nat) (sp : StepProg) : List (Nat × Nat × Nat) :=
  let dense := ((s.bkts p).filter fun b => b.owner.isNone && b.final).flatMap fun b => (0, b.addr + 64, b.bytes) :: b.segs.flatMap fun x =>
    let g := s.group x.1
    g.layout.flatMap fun a =>
      let w := if a.1 = 0 then g.wfmt.unitBytes else if a.1 = 5 then 2 else 4
      let one := readTraffic (a.2.1 + w * x.2.2) (w * x.2.1) ++ writeTraffic (a.2.1 + w * x.2.2) (w * x.2.1)
      if g.rule = 3 then one ++ one else one
  dense ++ ((s.passItems p sp).filter fun i => i.sweep == 3).flatMap fun i =>
    let n := (s.group i.group).width
    let row := (s.group i.group).base + 2 * n * i.key
    readTraffic i.grad (4 * n) ++ writeTraffic i.grad (2 * n) ++ readTraffic row (2 * n) ++ writeTraffic row (2 * n)
      ++ match (s.group i.group).array? 4 with
        | some a => [(0, a + 4 * i.key, 4), (2, a + 4 * i.key, 4)]
        | none => []

/-- The commands whose work belongs to a skipped step complete with TX_ABANDONED (R258). -/
def Mod.skipWork (s : Mod) (p f : Nat) : Mod :=
  ((s.dropWork p).endCmds (fun c => c.step && !c.mgmt && c.pol == p && c.phase == .running) 0x26 f).endHeld p f false

/-- The commands whose work belongs to a step that is replayed are held until the replay is over (R174). -/
def Mod.keepWork (s : Mod) (p : Nat) : Mod :=
  let s := s.dropWork p
  { s with cq := { s.cq with cmds := s.cq.cmds.map fun c =>
      if c.step && !c.mgmt && c.pol == p && c.phase == .running then { c with phase := .held, caps := [], land := [] } else c } }

/-- The outcome of a step applies at sluice f (R258): a commit clips, seals and starts pass two; a skip or a replay abandons the step and starts its
maintenance, which a diagnostic replay, an overrun and a reset leave out (R171, R338). -/
def Mod.decideStep (s : Mod) (p f outcome : Nat) : Mod :=
  match s.stepOf p with
  | some st =>
    let sp := s.stepProg p
    let s := s.hubEvent f p 13 (if outcome = 3 then 1 else 0)
    if outcome = 1 ∧ !st.isDiag ∧ !st.abandoned then
      let clip := clipFactor (f32Val (s.rd .UE_CLIP_MAX p).toNat) st.norms.nc
      let s := (s.put .UE_GNORM p (BitVec.ofNat 32 (normRoot st.norms.nc))).put .UE_CLIP_FACTOR p (BitVec.ofNat 32 clip)
      let k := ceilDiv (s.sweeps p sp) (256 * s.budget)
      let m := k + spanOf (2 + (s.qFrames p (s.passTraffic p sp) - k)) (7 :: s.placeOf true p)
      let s := s.applyEarly p
      let s := { s with ue := { s.ue with seals := s.ue.seals ++ s.stepSeals p } }
      s.mapStep p fun st => { st with phase := .passTwo, decidedAt := f, clip := clip, pass := .fresh m }
    else
      let plain := st.plain || st.isDiag
      let s := (if outcome = 3 ∧ !st.isDiag then s.keepWork p else s.skipWork p f).mapStep p fun st => { st with abandoned := true, todo := [] }
      if plain then s.mapStep p fun st => { st with phase := .closing, decidedAt := f, workEnd := f, selected := true }
      else
        let b := ((s.delayedSlots p).map fun n => s.fld .GS_BLOCKS_BLOCKS n).sum
        let m := spanOf (2 + ceilDiv b 262144) (8 :: s.placeOf true p)
        let s := s.mapStep p fun st => { st with phase := .maintenance, decidedAt := f, workEnd := f + m }
        if outcome = 3 then
          let s := s.mapStep p fun st => { st with attempt := st.attempt + 1 }
          (s.setFld .SC_REPLAY_STATUS_ATTEMPTS p (min 255 (st.attempt + 1))).countReg .SC_REPLAY_COUNT p 1
        else s
  | none => s

/-- The outcome of a vote word's reasons (R257). -/
def outcomeOf (reasons : Nat) : Nat := if reasons &&& 0x7FD ≠ 0 then 2 else if reasons.testBit 1 then 3 else 1

/-- VOTE_SLUICE: the group word of the ballots held, the missing members, divergence, and the outcome unless the host is awaited (R257 to R260). -/
def Mod.vote (s : Mod) (p : Nat) : Mod :=
  match s.stepOf p with
  | some st =>
    let f := s.fc.num
    let held := st.ballots.filter fun h => decide (h.at_ ≤ f)
    let missing := (s.ranks p).filter fun r => !has (held.map (·.rank)) r
    let reasons := held.foldl (fun a h => a ||| h.word % 2048) (if missing.isEmpty then 0 else 512)
    let outcome := outcomeOf reasons
    let word := st.num % 65536 * 65536 + outcome * 16384 + reasons
    let s := (s.put .UE_VOTE_WORD p (BitVec.ofNat 32 word)).putMissing p missing
    let s := s.note p f (.of 9 (5 * 65536) word st.num 0 0)
    let s := if s.routeLost p f st then (s.raiseNow .UE_STATUS_DIVERGED p).alertNow .CQ_ALERT_CAUSE_DIVERGED p else s
    let s := s.mapStep p fun st => { st with word := word, voteAt := some f, outcome := outcome, ballots := held, phase := .provisional }
    if s.bit .UE_VOTE_CTRL_HOST_HOLD p then s else s.decideStep p f outcome
  | none => s

/-- The host's verdict that applies at the sluice that is being taken (R259). -/
def Mod.verdict (s : Mod) (p : Nat) : Option Nat :=
  match s.stepOf p, s.sluiceA with
  | some st, some f =>
    let v := s.fld .UE_VOTE_HOST_VERDICT p
    if st.phase = .provisional ∧ v ≠ 0 ∧ s.fld .UE_VOTE_HOST_STEP p = st.num % 65536 ∧ s.ue.verdictAt.get p = some f then some v else none
  | _, _ => none

/-- The final outcome of a provisional one and the host's word (R259). -/
def Mod.settleHost (s : Mod) (p outcome : Nat) (host : Bool) : Mod :=
  match s.stepOf p with
  | some st =>
    let f := s.fc.num
    let word := (st.word / 65536 * 65536 + outcome * 16384 + st.word % 2048) ||| (if host then 1024 else 0)
    let s := (s.put .UE_VOTE_WORD p (BitVec.ofNat 32 word)).mapStep p fun st => { st with word := word, outcome := outcome }
    s.decideStep p f outcome
  | none => s

/-- HOST_VERDICT: SKIP if either is SKIP, else REPLAY if either is, else COMMIT (R259). -/
def Mod.onVerdict (s : Mod) (p : Nat) : Mod :=
  match s.verdict p, s.stepOf p with
  | some v, some st => s.settleHost p (if st.outcome = 2 ∨ v = 2 then 2 else if st.outcome = 3 ∨ v = 3 then 3 else 1) (v == 2)
  | _, _ => s

/-- Whether no verdict has applied by sluice V + HOST_TIMEOUT (R259). -/
def Mod.hostLate (s : Mod) (p : Nat) : Bool :=
  match s.stepOf p, s.sluiceA with
  | some st, some f => st.phase == .provisional && (s.verdict p).isNone && decide (st.voteAt.getD 0 + s.fld .UE_VOTE_TIMEOUTS_HOST p ≤ f)
  | _, _ => false

/-! ## Maintenance, pass two and closing -/

/-- Whether pass two has done all of its items, in the frames that it was to take. -/
def Mod.passedAll (s : Mod) (p : Nat) (st : Step) : Bool := st.pass.left == 0 && decide ((s.passItems p (s.stepProg p)).length ≤ st.pass.done)

/-- Pass two of a polder goes on in the frame, with its writes and its record (R264); while the polder, its dies or the hub are in reset it waits (R270). -/
def Mod.goPass (s : Mod) (p : Nat) : Mod :=
  match s.stepOf p, s.ue.progs.get p with
  | some st, some sp =>
    if st.phase != .passTwo || s.passedAll p st || s.polderDown p || (s.diesOf p).any s.dieDown then s else
    let (cells, t, bad) := s.passFrame p st sp
    let s := (s.mapStep p fun st => { st with pass := t }).hubEvent s.fc.num p 10 ((((s.passItems p sp).drop st.pass.done).take (t.done - st.pass.done)).map s.itemElems).sum
    let s := if cells.isEmpty then s else { s with stg := s.stg ++ [⟨rankUe, none, none, .mem p cells⟩] }
    if bad then (s.raise .UE_STATUS_UPD_SPECIAL p).alert .CQ_ALERT_CAUSE_UPD_SPECIAL p else s
  | _, _ => s

/-- Whether a polder's maintenance pass is due: its work is done by the sluice that is being taken (R171). -/
def Mod.maintenanceDue (s : Mod) (p : Nat) : Bool :=
  match s.stepOf p, s.sluiceA with
  | some st, some f => !st.selected && (st.phase == .maintenance && decide (st.workEnd ≤ f) || st.phase == .passTwo && s.passedAll p st)
  | _, _ => false

/-- MAINTENANCE_PASS: the selection of every DELAYED slot, to be applied at the closing sluice (R169 to R171). -/
def Mod.maintain (s : Mod) (p : Nat) : Mod :=
  match s.stepOf p with
  | none => s
  | some st =>
    let l := (s.delayedSlots p).map (s.selectSlot (st.outcome == 3))
    s.mapStep p fun st => { st with select := l, selected := true, phase := if st.phase = .maintenance then .closing else st.phase }

/-- The ranks whose ballots counted: those that send close words (R269). -/
def Step.counted (st : Step) : List Nat := st.ballots.map (·.rank)

/-- Whether pass two of a polder is done at the sluice that is being taken. -/
def Mod.passTwoDue (s : Mod) (p : Nat) : Bool :=
  match s.stepOf p, s.sluiceA with
  | some st, some _ => st.phase == .passTwo && st.selected && s.passedAll p st
  | _, _ => false

/-- PASS_TWO: the member's pass two is complete, and its close word goes out in the next frame (R264, R269). -/
def Mod.endPassTwo (s : Mod) (p : Nat) : Mod :=
  match s.stepOf p with
  | some st =>
    let f := s.fc.num
    let mine := Heard.mk (s.rank p) st.word (f + 1 + s.hops p)
    let s := s.mapStep p fun st => { st with phase := .closing, passTwoAt := some f, closes := st.closes ++ [mine] }
    ((s.peers p).filter (has st.counted)).foldl (fun s r => s.sendRank p r 1 3 st.word st.num (f + 1) []) s
  | none => s

/-- A member's close word is held at its sluice (R269). -/
def Mod.onClose (s : Mod) (m : Msg) : Mod :=
  s.deliver m fun s p => match s.stepOf p, s.rankOf p m.src with
    | some st, some r => if m.b = st.num ∧ !(st.closes.any fun h => h.rank == r) then s.mapStep p fun st => { st with closes := st.closes ++ [Heard.mk r m.a s.fc.num] } else s
    | _, _ => s

/-- CLOSE (R269). -/
def execClose (l : Fin 32) (s : State) : Host.Outcome State Fault Refusal := s.onHeld l 3 fun m x => m.onClose x

/-- Whether the step of a polder closes at the sluice that is being taken: a skip or replay when its maintenance is done, a commit when every counted member's close
word is held (R258, R269). -/
def Mod.closeDue (s : Mod) (p : Nat) : Bool :=
  match s.stepOf p, s.sluiceA with
  | some st, some f => st.phase == .closing && (st.passTwoAt.isNone || st.counted.all fun r => has (heardBy st.closes f) r)
  | _, _ => false

/-- The staging objects of a step program are empty again (R341). -/
def Mod.emptyStages (s : Mod) (p : Nat) (sp : StepProg) : Mod :=
  sp.stages.foldl (fun s n => match s.obj p n with
    | some o =>
      let s := s.writeNow p (wcells (o.base + 8) (leBytes 0 4))
      { s with ue := { s.ue with staging := s.ue.staging.del (objKey p n) } }
    | none => s) s

/-- The digests of a diagnostic replay (R338): head, and the SHA-384 of each bucket's reduced payload in list order. -/
def Mod.diagImage (s : Mod) (p : Nat) (st : Step) (sp : StepProg) : List Byte :=
  let head := leBytes st.word 4 ++ leBytes 0 4 ++ leBytes st.num 8
  head ++ List.replicate (64 - head.length) 0 ++ sp.buckets.flatMap fun a =>
    let b := s.bucketAt p a 0 none
    (leBytes (sha384 (s.getBs p (a + 64) b.bytes)).toNat 48).reverse

/-- What runs the step hears of its end (R258, R337, R338). -/
def Mod.tellRunner (s : Mod) (p f : Nat) (st : Step) (sp : StepProg) : Mod :=
  match st.by_ with
  | .run q k =>
    let note (c : Cmd) : Cmd := if !c.mgmt && c.qn == q && c.seq == k then { c with replayed := st.attempt != 0 } else c
    let s := { s with cq := { s.cq with cmds := s.cq.cmds.map note } }
    s.conclude q k f (if st.outcome = 1 then 0x00 else if st.word.testBit 5 then 0x31 else 0x33) 0
  | .diag q k dest =>
    let ord := ((s.cq.cmds.find? fun c => !c.mgmt && c.qn == q && c.seq == k).map (·.ord)).getD 0
    let s := s.writeLate ⟨rankResult ord, none, none, .mem p (wcells dest (s.diagImage p st sp))⟩
    let s := st.restore.foldl (fun s x => (s.put .GS_CTRL x.1 x.2.1).put .GS_BASE x.1 x.2.2) s
    s.conclude q k f 0x00 0
  | .loop => match s.ue.loops.get p with
    | none => s
    | some l =>
      let l := { l with committed := l.committed + if st.outcome = 1 then 1 else 0 }
      let s := { s with ue := { s.ue with loops := s.ue.loops.set p l } }
      let s := s.signalHub l.doneWeir 1
      let w := st.word
      if w.testBit 3 then s.endLoop p f 0x20 l
      else if w.testBit 7 then s.endLoop p f 0xF8 l
      else if w.testBit 6 then s.endLoop p f 0xF1 l
      else if (l.steps ≠ 0 ∧ l.steps ≤ l.started) ∨ !l.stop.isEmpty then s.endLoop p f 0x00 l
      else s

/-- A step closes at sluice f (R258, R269): what it staged commits with the update of its groups, or its maintenance alone; its record is written; its seals end;
host-issued scatter-adds behind it are added (R34); its runner is told; a checkpoint that waits is taken at a commit. A replay waits to open again. -/
def Mod.closeStep (s : Mod) (p f : Nat) : Mod :=
  match s.stepOf p with
  | some st =>
    let sp := s.stepProg p
    let commit := st.outcome == 1 && !st.isDiag && !st.abandoned
    let s := if commit then s.hubEvent f p 11 1 else s.hubEvent f p 12 (if st.outcome = 3 then 0 else 1)
    let mine := s.ue.behind.filter fun b => b.pol == p
    let s := { s with ue := { s.ue with behind := s.ue.behind.filter fun b => b.pol != p
                                        seals := s.ue.seals.filter fun x => x.1 != p || x.2.2.2.1 == 0 } }
    let s := if commit then
        let s := (mine.filter fun b => !b.behind).foldl Mod.applyBehind s
        (s.commitGroups st.pass sp).tearFills p (s.commitRanges p)
      else s
    let s := if st.isDiag then s else st.select.foldl (Mod.applySelection (st.outcome == 3) p) s
    let s := s.writeRecord p f st
    let s := s.emptyStages p sp
    let s := if commit then s.endHeld p f true else s
    if st.outcome = 3 ∧ !st.isDiag ∧ (s.ue.progs.get p).isSome then
      -- the replay: buckets go, scatter-adds behind the step stay behind it
      let s := { s with ue := { s.ue with behind := s.ue.behind ++ mine.filter StepStage.behind } }
      (s.setBkts p ((s.bkts p).filter (·.owner.isSome))).mapStep p fun st => { st with phase := .replayWait, decidedAt := f }
    else
      let s := (mine.filter fun b => b.behind).foldl Mod.applyBehind s
      let s := s.setBkts p ((s.bkts p).filter (·.owner.isSome))
      let s := { s with ue := { s.ue with steps := s.ue.steps.del p } }
      let s := s.tellRunner p f st sp
      if commit || !s.stepping p then s.takeCkpts p f else s
  | none => s

/-- Whether close words are missing at V + CLOSE_TIMEOUT while the member's own is held (R269). -/
def Mod.closeLate (s : Mod) (p : Nat) : Bool :=
  match s.stepOf p, s.sluiceA with
  | some st, some f => st.phase == .closing && st.passTwoAt.isSome && !s.closeDue p && has (heardBy st.closes f) (s.rank p)
      && decide (st.decidedAt + s.fld .UE_VOTE_TIMEOUTS_CLOSE p ≤ f)
  | _, _ => false

/-- CLOSE_TIMEOUT: the member closes without the missing ranks and reports them (R269). -/
def Mod.closeWithout (s : Mod) (p : Nat) : Mod :=
  match s.stepOf p with
  | some st =>
    let f := s.fc.num
    ((s.raiseNow .UE_STATUS_MEMBER_LOST p).putMissing p (st.counted.filter fun r => !has (heardBy st.closes f) r)).closeStep p f
  | none => s

/-! ## The replay (R174) -/

/-- Whether a polder's replay opens at the sluice that is being taken. -/
def Mod.replayDue (s : Mod) (p : Nat) : Bool :=
  s.sluiceB.isSome && match s.stepOf p with
  | some st => st.phase == .replayWait
  | none => false

/-- REPLAY_OPEN: the step opens again under a new transaction, with the same batch, seed and programs; the commands it holds are executed again (R174). -/
def Mod.reopen (s : Mod) (p : Nat) : Mod :=
  match s.stepOf p, s.ue.progs.get p with
  | some st, some sp =>
    let f := s.fc.num
    let again (c : Cmd) : Cmd := if c.phase = .held ∧ c.pol = p then
        { c with replayed := true, phase := .ready, waits := c.headerWaits, accepted := f, relAt := f, first := 0, fin := 0, caps := [], land := [], sigs := [], told := false }
      else c
    let st := { st with opened := f + 1, phase := .executing, reasons := 0, abandoned := false, plain := false, ballotAt := none, ballot := 0, word := 0, voteAt := none
                        outcome := 0, ballots := [], closes := [], selected := false, select := [], pass := .fresh 0, passTwoAt := none, norms := ⟨.empty, .empty, (0, false)⟩
                        indexErrors := 0, shadowBad := false, todo := List.range sp.progs.length, image := s.slotImages p }
    let s := { s with ue := { s.ue with steps := s.ue.steps.set p st }, cq := { s.cq with cmds := s.cq.cmds.map again } }
    s.freshAttempt p f st.num sp
  | _, _ => s

end Sys2Proof.Machine
end

