-- ==== Sys2Proof/Machine/Seal.lean ====
section
/-! DEFINITION. Report bodies and result seals (15_security_and_polders.md R425, R432, R433). -/

namespace Sys2Proof.Machine

/-- The bytes of a SHA-384 digest, most significant first. -/
def digestBytes (d : BitVec 384) : List Byte := (leBytes d.toNat 48).reverse

/-- A bit mask of the polders that meet a condition. -/
def polderMask (f : Nat → Bool) : Nat := ([0, 1, 2, 3].map fun p => if f p then 2 ^ p else 0).sum

/-- The key slots that a polder holds, a bit for each (R434). -/
def Mod.heldKeys (s : Mod) (p : Nat) : Nat := ((List.range 16).map fun k => if (s.key p k).isSome then 2 ^ k else 0).sum

/-- The report body of a nonce and a frame (R425). -/
def Mod.reportBody (s : Mod) (fu : Fuses) (nonce : List Byte) (frame : Nat) : List Byte :=
  let r (n : RegName) := leBytes (s.rd n 0).toNat 4
  let traced (p : Nat) := match s.ob.traces.get p with
    | some t => t.state == 2
    | none => false
  let broken (p : Nat) := s.ob.brks.cells.any fun b => b.1 / 8 == p
  let fuses := fu.secver % 65536 + (if fu.scanBlown then 2 ^ 16 else 0) + (if fu.jtagLocked then 2 ^ 17 else 0)
  let debug := s.fld .SP_DEBUG_SCAN_USED 0 + 2 * s.fld .SP_DEBUG_JTAG_OPEN 0 + 16 * polderMask traced + 256 * polderMask broken
  let layout := s.polders + 16 * s.fld .SP_LAYOUT_PENDING 0 + 256 * polderMask s.conf + 4096 * polderMask (fun p => s.bit .SP_CONF_OFF_PENDING p)
    + 65536 * s.fld .ZL_RESV_RESERVED 0
  let polder (p : Nat) : List Byte :=
    if s.polders ≤ p then leBytes 0 32 else
    let dies := ([0, 1, 2, 3].map fun d => if s.dieOf d = p then 2 ^ d else 0).sum
    let fns := ([0, 1, 2, 3, 4, 5, 6, 7].map fun f => if s.polderOf f = p then 2 ^ f else 0).sum
    leBytes dies 4 ++ leBytes fns 4 ++ leBytes (s.quota p 0) 4 ++ leBytes (s.quota p 1) 4 ++ leBytes (s.heldKeys p) 4 ++ leBytes 0 12
  leBytes 1 4 ++ leBytes 416 4 ++ r .HC_ID ++ r .HC_CONTRACT ++ r .HC_FEAT0 ++ r .HC_TILES ++ leBytes fu.serial.toNat 16
    ++ (nonce.take 32 ++ List.replicate (32 - nonce.length) 0) ++ leBytes frame 8
    ++ [1, 2, 3, 4].flatMap (fun i => digestBytes (Config.firmware i)) ++ leBytes fuses 8 ++ leBytes debug 4 ++ leBytes layout 4 ++ [0, 1, 2, 3].flatMap polder

/-- The report digest: SHA-384 with NONCE and FRAME zero (R425). -/
def Mod.reportDigest (s : Mod) (fu : Fuses) : BitVec 384 := sha384 (s.reportBody fu [] 0)

/-- SEAL: TREF and DEST. -/
def blkSeal (_ : Mod) (_ : Nat) (ps : List Word) : Chk Unit := do
  lenChk ps 40
  rsvChk ps [.t 0, .addr 0x20]

/-- Codes packed into units from element position 0, the last unit filled with zero codes (R80, R432). -/
def packCodes (f : Fmt) (codes : List Nat) : List Byte :=
  (List.range (ceilDiv codes.length f.unitElems)).flatMap fun u =>
    leBytes (((codes.drop (u * f.unitElems)).take f.unitElems).zipIdx.map fun c => c.1 * 2 ^ (c.2 * f.width)).sum f.unitBytes

/-- The stored coordinates of a region, in linear order; those of padding positions left out. -/
def Opd.places (o : Opd) : List Co := (List.range o.count).filterMap fun i => o.stored (o.co i)

/-- The canonical stream of a region (R432). -/
def Mod.sealStream (s : Mod) (o : Opd) : List Byte :=
  let n := at4 o.ext 0
  let rows := (List.range (o.count / max 1 n)).flatMap fun r => packCodes o.enc.fmt ((List.range n).filterMap fun i => (o.stored (o.co (r * n + i))).map (s.codeAt o))
  let blocks := if o.enc.blk = 0 then [] else (sortBy id (dedup (o.places.map (o.td.block o.enc.blk)))).map fun b => s.locB o.loc (o.td.sbase + b)
  rows ++ blocks

/-- The 256-byte seal of a region (R432). -/
def Mod.sealBytes (s : Mod) (fu : Fuses) (c : Ctx) (o : Opd) : List Byte :=
  let stream := s.sealStream o
  let n := at4 o.ext 1
  let body := leBytes 1 4 ++ leBytes (c.pol + (if s.conf c.pol then 256 else 0)) 4 ++ leBytes fu.serial.toNat 16 ++ leBytes (s.pair .UE_STEP_LO .UE_STEP_HI c.pol) 8
    ++ leBytes (s.fc.num - 1) 8 ++ digestBytes (s.reportDigest fu) ++ leBytes (at4 o.ext 0) 4 ++ leBytes n 4
    ++ leBytes (n / 2 ^ 32 % 256 * 2 ^ 24 + cvcWord o.td.cvc) 4 ++ leBytes (at4 o.ext 3 % 65536 * 65536 + at4 o.ext 2 % 65536) 4 ++ leBytes stream.length 8
    ++ digestBytes (sha384 stream)
  body ++ (leBytes (Config.sealSign (sha384 body)).toNat 96).reverse
where
  /-- A conversion control word's 16 bits (R68). -/
  cvcWord (v : Cvc) : Nat := v.fmt * 2 ^ 12 + v.blk * 2 ^ 10 + (if v.rnd then 2 ^ 9 else 0) + (if v.sub then 2 ^ 8 else 0)

/-- SEAL: a region in device memory, without padding, hashed as committed at sluice e − 1 and written when it completes (R334, R432). -/
def planSeal (fu : Fuses) (s : Mod) (c : Ctx) (ps : List Word) : Chk Plan := do
  let o? ← s.operand c 0 ps 0 true
  match o? with
  | none => .error (0x10, detailAt 0)
  | some o =>
    o.bounds
    ensure (o.isEmpty || o.places.length == o.count) 0x12 (detailAt 0)
    ensure (o.td.space == 0) 0x04 (detailAt 0)
    s.destChk c.pol (pq ps 0x20) 256 0x20
    if o.isEmpty then return .empty []
    s.opdSeal o false false
    if s.opdPoison o then return poisonPlan c
    .ok { resultPlan c (pq ps 0x20) (s.sealBytes fu c o) with
          bound := 1 + ceilDiv (s.sealStream o).length (16 * s.budget), effs := [.mem c.pol (wcells (pq ps 0x20) (s.sealBytes fu c o)), .unseal c.ord] }

/-- SEAL (R432). -/
def execSeal (c : CmdId) (s : State) : Host.Outcome State Fault Refusal := s.when (s.m.granted c 0x6008) (s.m.runCmd c (planSeal s.fuse))

/-- The seal of a SEAL command from sluice a + 1 on: its region's footprint, sealed against writes (R433). -/
def Mod.beginSeal (s : Mod) (x : Cmd) : Mod :=
  match s.operand (s.ctxOf x) 0 x.params 0 true with
  | .ok (some o) =>
    if o.isEmpty || o.td.space != 0 then s else
    { s with ue := { s.ue with seals := s.ue.seals ++ o.ranges.map fun r => (x.pol, r.1, r.2, 0, x.ord) } }
  | _ => s

end Sys2Proof.Machine
end

