-- ==== Sys2Proof/Machine/Reset.lean ====
section
/-! DEFINITION. Hang detection, snapshots, reset domains, spare tiles and faults (13_reliability_and_recovery.md R375 to R392, 07 R190, 08 R220, R236, R237, 14 R403 to R411). -/

namespace Sys2Proof.Machine

/-! ## Registers under reset (R16) -/

/-- The register of a number, if the tables have it. -/
def regOfNum (n : Nat) : Option RegName := (regBlks.flatMap (·.regs)).findSome? fun r => if r.2.num = n then some r.2 else none

/-- The start fields of a register: 0 from a reset on, until a start or the release of the domain sets them (R16). -/
def RegName.startBits (r : RegName) : Word :=
  match r with
  | .HC_TILES => 0xFFFFFFFF#32
  | .ZL_NODE => 0xFF#32
  | .MC_TILE_FAILED_HI => 0xF0000#32
  | .BC_TILE_STATUS => 0x40003F00#32
  | _ => 0#32

/-- A register returns to its reset value, its held and fused fields kept. -/
def Mod.resetReg (s : Mod) (r : RegName) (idx : Nat) : Mod :=
  let keep := r.desc.keep &&& ~~~r.startBits
  s.put r idx ((s.rd r idx &&& keep) ||| (r.desc.reset &&& ~~~r.desc.keep))

/-- The registers that a test picks, by block and index, return to their reset values. -/
def Mod.resetRegs (s : Mod) (pick : RegBlk → Nat → Bool) : Mod :=
  s.rf.vals.cells.foldl (fun s c => match regOfNum (c.1 % 256) with
    | some r => match r.blk with
      | some b => if pick b (c.1 / 256) then s.resetReg r (c.1 / 256) else s
      | none => s
    | none => s) s

/-- The tile of a tile block's index. -/
def RegBlk.tileOf (b : RegBlk) (idx : Nat) : Nat :=
  match b.own with
  | .tile16 => idx / 16
  | .tile256 => idx / 256
  | .tile2048 => idx / 2048
  | _ => idx

/-- The die of a register of a compute die's windows. -/
def RegBlk.dieOf (b : RegBlk) (idx : Nat) : Option Nat :=
  match b.dom with
  | .tile => some (b.tileOf idx / 48)
  | .die => some (if b.own = .die52 then idx / 52 else idx)
  | .ce => some (idx / 4)
  | .bank => if idx < 4 then some idx else none
  | _ => none

/-- Whether a register lies in a reset domain (R16, R383, R387): the group and slot tables are restored from the system area, and so keep their values. -/
def Mod.regInDomain (s : Mod) (kind index : Nat) (b : RegBlk) (idx : Nat) : Bool :=
  let table := b.own == .group || b.own == .slot
  match kind with
  | 0 => b.dom == .tile && b.tileOf idx == index / 64 * 48 + index % 64
  | 1 => b.dieOf idx == some index
  | 2 => !table && (b.dom == .hub || b.dom == .ce || b.dom == .link || (b.dom == .bank && decide (4 ≤ idx)))
  | 3 => b.dom == .link && idx == index
  | 4 => (b.dieOf idx).any (fun d => s.dieOf d == index)
      || (b.own == .queue && (s.queueOwner idx).any fun fn => s.polderOf fn == index)
      || (b.own == .weir && s.fld .WEIR_CTRL_POLDER idx == index)
      || (b.base == 0x1000 && idx == index)
  | _ => !table

/-- The physical dies, tiles and polders of a domain. -/
def Mod.domainDies (s : Mod) (kind index : Nat) : List Nat :=
  match kind with
  | 1 => [index]
  | 4 => [0, 1, 2, 3].filter fun d => s.dieOf d == index
  | 5 => [0, 1, 2, 3]
  | _ => []

/-- The tiles whose memories a reset of a domain zeroes (R387). -/
def Mod.domainTiles (s : Mod) (kind index : Nat) : List Nat :=
  if kind = 0 then [index / 64 * 48 + index % 64] else (s.domainDies kind index).flatMap fun d => (List.range 48).map fun l => d * 48 + l

/-- The polders that have state in a domain (R381). -/
def Mod.domainPols (s : Mod) (kind index : Nat) : List Nat :=
  match kind with
  | 0 => [s.dieOf (index / 64)]
  | 1 => [s.dieOf index]
  | 4 => [index]
  | _ => List.range s.polders

/-! ## Units and snapshots -/

/-- A unit's progress (R375). -/
def Mod.unit (s : Mod) (k : Nat) : Unit' := s.rel.units.getD k ⟨0, false, 0, 0⟩

/-- The units of a polder in the order of its snapshot (R382): kind, die, number. -/
def Mod.snapUnits (s : Mod) (p : Nat) : List (Nat × Nat × Nat) :=
  ((s.diesOf p).flatMap fun d => [(0, 48), (1, 4), (2, 4), (3, 2), (4, 14)].flatMap fun k => (List.range k.2).map fun n => (k.1, d, n))
    ++ [(5, 0, 0)] ++ (List.range 4).map (fun n => (7, 0, n)) ++ (List.range 32).map (fun n => (6, 0, n)) ++ [(8, 0, 0), (8, 0, 1), (8, 0, 2)]

/-- CQ_STATE as it reads (R310). -/
def Mod.queueWord (s : Mod) (q : Nat) : Nat :=
  let k := s.queue q
  k.errStatus * 2 ^ 24 + s.inflight q * 256 + (if k.badDoorbell then 32 else 0) + (if k.cplFull then 16 else 0)
    + match k.state with
      | .disabled => 0
      | .running => 1
      | .paused => 2
      | .error => 3

/-- The words of a snapshot of polder p (R382), each with its offset in the slot. The layout inside an SN_FSQ entry, the program counters, and the entries of units on a die
that is stopped, which are not read (R381), are open (log entry 43). -/
def Mod.snapImage (s : Mod) (p reason num kind index : Nat) : List (Nat × List Byte) :=
  let down := ([0, 1, 2, 3].map fun d => if s.dieDown d then 2 ^ d else 0).sum
  let frame := s.fc.last.getD s.fc.num
  let head := [(0, leBytes (2 ^ 31 + reason * 65536 + num % 65536) 4 ++ leBytes (kind * 2 ^ 24 + index * 65536 + down) 4 ++ leBytes frame 8
    ++ leBytes (s.pair .UE_STEP_LO .UE_STEP_HI p) 8 ++ leBytes (s.rd .UE_VOTE_LOCAL p).toNat 4 ++ leBytes (s.rd .FC_DET_STATUS 0).toNat 4
    ++ leBytes (s.rd .MC_HANG_FIRST 0).toNat 4)]
  let units := (s.snapUnits p).zipIdx.map fun u =>
    let x := s.unit (unitKey u.1.1 u.1.2.1 u.1.2.2)
    -- a stopped die is not read
    if u.1.1 ≤ 4 ∧ s.dieDown u.1.2.1 then (0x1000 + 8 * u.2, leBytes (Config.span [12, frame, u.2]) 8) else
    (0x1000 + 8 * u.2, leBytes (min 65535 x.quiet * 2 ^ 48 + u.1.2.2 * 2 ^ 32 + u.1.2.1 * 2 ^ 24 + u.1.1 * 2 ^ 20
      + (if x.owed then 3 * 2 ^ 16 else 0) + x.count % 65536) 8)
  let progs := (s.diesOf p).zipIdx.flatMap fun d => (List.range 4).flatMap fun n =>
    (((s.ue.running.filter fun r => has r.dies d.1 && !s.dieDown d.1).take 8).zipIdx).map fun r =>
      let id := match r.1.runner with
        | .cmd c => (c.q.val, c.seq.toNat)
        | .step _ k => (0xFFFFFFFF, k.val)
      (0x2000 + 0x20 * (8 * (4 * d.2 + n) + r.2), leBytes id.1 4 ++ leBytes id.2 4 ++ leBytes r.1.code 8 ++ leBytes (s.fc.num - r.1.first) 8
        ++ leBytes (Config.freeNat (s.io.free + r.2)) 8)
  let queues := (s.cq.queues.cells.filter fun c => (s.queueOwner c.1).any fun fn => s.polderOf fn == p).map fun c =>
    let q := c.2
    let old := ((s.cq.cmds.filter fun x => !x.mgmt && x.qn == c.1).map (·.seq)).foldl min q.seq
    (0x3000 + 0x20 * c.1, [s.queueWord c.1, q.head, q.tail, q.seq, q.cplTail, q.errSeq, old].flatMap fun v => leBytes v 4)
  let weirs := (List.range 16384).filterMap fun n => if s.fld .WEIR_CTRL_POLDER n = p then
      some (0x83000 + 0x10 * n, leBytes (s.rd .WEIR_COUNT n).toNat 4 ++ leBytes (s.rd .WEIR_LEVEL n).toNat 4 ++ leBytes 0 4 ++ leBytes (s.rd .WEIR_CTRL n).toNat 4)
    else none
  head ++ units ++ progs ++ queues ++ weirs

/-- The cells at rising addresses from a bound on. -/
def rising (b : Nat) : List Host.Cell → List Host.Cell
  | [] => []
  | c :: rest => if b ≤ c.1 then c :: rising (c.1 + 1) rest else rising b rest

/-- A block of physical memory is written as a whole: zero but for the bytes given, which stand at rising places. -/
def putBlock (cells : List Host.Cell) (base len : Nat) (l : List (Nat × List Byte)) : List Host.Cell :=
  let new : List Host.Cell := (l.flatMap fun x => x.2.zipIdx.map fun b => (x.1 + b.2, b.1)).filterMap fun c =>
    if c.1 < len ∧ c.2 ≠ 0 then some (base + c.1, c.2) else none
  cells.filter (fun c => decide (c.1 < base)) ++ rising base new ++ cells.filter fun c => decide (base + len ≤ c.1)

/-- A recovery snapshot of one polder goes into the slot that was not written last (R381, R382). -/
def Mod.snapOne (reason kind index : Nat) (s : Mod) (p : Nat) : Mod :=
  match s.areaAt p 0 with
  | none => s
  | some a =>
    let (num, slot) := s.rel.snaps.getD p (0, 0)
    let s := { s with mem := { s.mem with cells := putBlock s.mem.cells (a + slot * 2 ^ 20) (2 ^ 20) (s.snapImage p reason num kind index) }
                      rel := { s.rel with snaps := s.rel.snaps.set p (num + 1, 1 - slot) } }
    s.bump.put .MC_SNAP_STATUS 0 (BitVec.ofNat 32 (2 ^ 31 + p * 2 ^ 26 + slot * 2 ^ 24 + reason * 65536 + num % 65536))

/-- A recovery snapshot into each polder that has state in a domain (R381). -/
def Mod.snapshot (s : Mod) (reason kind index : Nat) : Mod := (s.domainPols kind index).foldl (Mod.snapOne reason kind index) s

/-- One recovery snapshot of several domains at once: into each polder that has state in one of them, of the first such (R378, R381). -/
def Mod.snapshots (s : Mod) (reason : Nat) (ds : List (Nat × Nat)) : Mod :=
  (List.range s.polders).foldl (fun s p => match ds.find? fun d => has (s.domainPols d.1 d.2) p with
    | some d => s.snapOne reason d.1 d.2 p
    | none => s) s

/-! ## The work of a domain -/

/-- The engines on which a command has work. -/
def Cmd.engines (c : Cmd) : List Engine := c.caps.filterMap Cap.engine ++ c.land.filterMap fun e => e.2.eng

/-- The tile that an effect writes. -/
def Eff.tile? : Eff → Option Nat
  | .sram t _ | .sramStep _ t _ | .acb t _ _ _ | .acbUse t _ | .acbDone t _ => some t
  | .fwdTile _ ps _ _ _ => some (ctrlTile (pw ps 0xC0))
  | .pcs i _ => some (i / 256)
  | _ => none

/-- The running program of a command (R320). -/
def Mod.progOf (s : Mod) (c : Cmd) : Option Prog := s.ue.running.find? fun p => match p.runner with
  | .cmd i => !c.mgmt && i.q.val == c.qn && i.seq.toNat == c.seq
  | .step _ _ => false

/-- Whether a command's work lies on an engine. -/
def Mod.worksOn (s : Mod) (c : Cmd) (e : Engine) : Bool :=
  c.phase == .running && (c.engines.any (· == e) || (s.progOf c).any fun p => p.used.any (· == e))

/-- Whether work of an opcode with this note reads a tile's memories: a copy engine's, or DBG_READ. -/
def readsTile (op note t : Nat) : Bool := has [0x4003, 0x7000, 0x7001, 0xF000] op && has (notedTiles note) t

/-- Whether a command has work on a tile: on a unit of it, writing its memories, or reading them from elsewhere (R190, R385). -/
def Mod.worksOnTile (s : Mod) (c : Cmd) (t : Nat) : Bool :=
  s.worksOn c (tsqOf t) || (c.phase == .running && ((c.land.any fun e => e.2.eff.tile? == some t) || readsTile c.opcode c.note t
    || (s.progOf c).any fun p => p.jobs.any fun j => readsTile j.op j.note t))

/-- Whether a command has work on an engine, controller or tile of a die (R385). -/
def Mod.worksOnDie (s : Mod) (c : Cmd) (d : Nat) : Bool :=
  c.phase == .running && (c.engines.any (fun e => Engine.die? e == some d) || (s.progOf c).any (fun p => has p.dies d)
    || c.land.any (fun e => match e.2.eff with
        | .mem p cells => cells.any fun w => (s.page p w.addr).any fun x => (pageCtl x.tier x.frame).1 / 14 == d
        | .copyRange p src dst _ => [src, dst].any fun a => (s.page p a).any fun x => (pageCtl x.tier x.frame).1 / 14 == d
        | x => x.tile?.any fun t => t / 48 == d)
    || s.rel.stalled.any fun x => x.1 == c.stallKey && x.2 == d && c.fin == 2 ^ 80 && !c.mgmt)

/-- Whether a command has work in a domain. -/
def Mod.worksIn (s : Mod) (kind index : Nat) (c : Cmd) : Bool :=
  !c.mgmt && match kind with
    | 0 => s.worksOnTile c (index / 64 * 48 + index % 64)
    | 1 => s.worksOnDie c index
    | 3 => false
    | 4 => c.phase == .running && (c.pol == index || (s.domainDies 4 index).any fun d => s.worksOnDie c d)
    | _ => c.phase == .running

/-- Whether a polder's open step has work in a domain (R386). -/
def Mod.stepIn (s : Mod) (kind index p : Nat) : Bool :=
  match kind with
  | 0 =>
    let t := index / 64 * 48 + index % 64
    s.dieOf (t / 48) == p && (s.cq.cmds.any (fun c => c.step && c.pol == p && s.worksOnTile c t)
      || s.ue.running.any (fun r => r.step && r.pol == p && r.used.any (· == tsqOf t)) || (s.stepRegions p).any fun i => i / 16 == t)
  | 1 => s.dieOf index == p
  | 3 => false
  | 4 => index == p
  | _ => true

/-- Programs of a domain stop. -/
def Mod.stopProgs (s : Mod) (gone : Prog → Bool) : Mod := { s with ue := { s.ue with running := s.ue.running.filter fun p => !gone p } }

/-- Whether a reset of a domain stops a program. -/
def progIn (kind index : Nat) (p : Prog) : Bool :=
  match kind with
  | 0 => let t := index / 64 * 48 + index % 64; p.used.any (· == tsqOf t) || p.jobs.any fun j => readsTile j.op j.note t
  | 1 => has p.dies index
  | 3 => false
  | 4 => p.pol == index
  | _ => true

/-! ## Tiles (R392, R409) -/

/-- The memories of a tile become zero, and its random states and region uses go (R387, R402). -/
def Mod.zeroTile (s : Mod) (t : Nat) : Mod :=
  { s with tile := { s.tile with sram := s.tile.sram.del t, acb := s.tile.acb.filter fun k _ => k / 65536 != t, seqs := s.tile.seqs.del t } }

/-- A logical tile's mark in MC_TILE_FAILED. -/
def Mod.markTile (s : Mod) (t : Nat) (on : Bool) : Mod :=
  let (r, b) := tileFailed (t % 48)
  let m := BitVec.ofNat 32 (2 ^ b)
  s.put r (t / 48) (if on then s.rd r (t / 48) ||| m else s.rd r (t / 48) &&& ~~~m)

/-- The physical tile of a logical tile, by die * 52 + number. -/
def Mod.physTile (s : Mod) (t : Nat) : Option Nat := (s.rel.tileMap.get t).map fun n => t / 48 * 52 + n

/-- The logical number of a physical tile, if it has one. -/
def Mod.logicalOf (s : Mod) (ph : Nat) : Option Nat := (s.rel.tileMap.cells.find? fun c => c.1 / 48 == ph / 52 && c.2 == ph % 52).map (·.1)

/-- The spares of a die that passed their last test, by die * 52 + number. -/
def Mod.spares (s : Mod) (d : Nat) : List Nat :=
  ((List.range 52).map fun n => d * 52 + n).filter fun ph => s.bit .BC_TILE_STATUS_SPARE ph && !has s.rel.tileBad ph

/-- The physical tile that a die's self-test controller is testing as a spare. -/
def Mod.underTest (s : Mod) (d : Nat) : Option (Nat × Option Nat) := s.rel.spareTest.find? fun x => x.1 / 52 == d

/-- The free spares of a die: those not under test. -/
def Mod.freeSpares (s : Mod) (d : Nat) : List Nat := (s.spares d).filter fun ph => (s.underTest d).all fun x => x.1 != ph

/-- MC_TILE_FAILED_HI.SPARES shows the die's free spares. -/
def Mod.countSpares (s : Mod) (d : Nat) : Mod := s.setFld .MC_TILE_FAILED_HI_SPARES d (s.spares d).length

/-- A physical tile starts a pass at slice 0 (R408). -/
def Mod.restartPass (s : Mod) (ph : Nat) : Mod :=
  { s.setFld .BC_TILE_STATUS_NEXT ph 0 with rel := { s.rel with passStart := s.rel.passStart.set ph (2 * s.fc.num) } }

/-- A physical tile is marked failed: it serves no logical number any more (R392, R409). -/
def Mod.failTile (s : Mod) (ph : Nat) : Mod :=
  let s := { s with rel := { s.rel with tileBad := addOnce s.rel.tileBad ph, tileMap := match s.logicalOf ph with
    | some t => s.rel.tileMap.del t
    | none => s.rel.tileMap } }
  let s := ((s.setFld .BC_TILE_STATUS_FAILED ph 1).setFld .BC_TILE_STATUS_SPARE ph 0).setFld .BC_TILE_STATUS_LOGICAL ph 0x3F
  s.countSpares (ph / 52)

/-- A spare takes a logical number (R392). -/
def Mod.takeSpare (s : Mod) (ph t : Nat) : Mod :=
  let s := { s with rel := { s.rel with tileMap := s.rel.tileMap.set t (ph % 52), spareTest := s.rel.spareTest.filter fun x => x.1 != ph } }
  let s := ((s.setFld .BC_TILE_STATUS_SPARE ph 0).setFld .BC_TILE_STATUS_LOGICAL ph (t % 48)).restartPass ph
  (s.markTile t false).countSpares (ph / 52)

/-- A logical number without a physical tile gets a free spare where MC_SPARE_CTRL.AUTO says so, else it is marked (R392). -/
def Mod.findTile (s : Mod) (t : Nat) : Mod :=
  let d := t / 48
  if (s.fld .MC_SPARE_CTRL_AUTO 0).testBit d then
    match s.freeSpares d with
    | ph :: _ => s.takeSpare ph t
    | [] => s.markTile t true
  else s.markTile t true

/-- The first failure of a self-test is recorded if none is (R403, R411, R414). -/
def Mod.firstFail' (s : Mod) (ph mode slice bank line : Nat) : Mod :=
  let d := ph / 52
  if s.bit .BC_FIRST_FAIL_VALID d then s else
  let s := s.put .BC_FIRST_FAIL d (BitVec.ofNat 32 (2 ^ 31 + mode * 2 ^ 28 + ph % 52 * 2 ^ 22 + slice * 256))
  (s.put .BC_FAIL_ADDR d (BitVec.ofNat 32 (bank * 65536 + line))).putPair .BC_FAIL_FRAME_LO .BC_FAIL_FRAME_HI d (s.fc.last.getD s.fc.num)

/-- A start test that fails records its first failure; the place is open (R403; log entry 6). -/
def Mod.startFail (s : Mod) (ph mode : Nat) : Mod :=
  let n := Config.freeNat s.io.free
  s.bump.firstFail' ph mode 0xFF (n % 64) (n / 64 % 768)

/-! ## How a reset begins (R384 to R388) -/

/-- Whether a reset domain holds another (R383, R388). -/
def Mod.holds (s : Mod) (k i k' i' : Nat) : Bool :=
  (k == k' && i == i') || k == 5 || (k == 2 && k' == 3)
    || (k == 4 && ((k' == 1 && s.dieOf i' == i) || (k' == 0 && s.dieOf (i' / 64) == i))) || (k == 1 && k' == 0 && i' / 64 == i)

/-- Keys of a polder are withdrawn (R419, R427). -/
def Mod.withdraw (s : Mod) (p : Nat) : Mod :=
  if s.sec.keys.cells.any fun c => c.1 / 16 == p then
    { s with sec := { s.sec with keys := s.sec.keys.filter fun k _ => k / 16 != p } }.raiseNow .SP_CONF_KEY_WITHDRAWN p
  else s

/-- A function's configuration slots are abandoned: free and empty, LAST_ERR TX_ABANDONED (R54). -/
def Mod.dropSlots (s : Mod) (fn : Nat) : Mod :=
  { s with ct := { s.ct with slots := s.ct.slots.map fun k c => if k / 16 = fn ∧ c.st ≠ .free then ⟨.free, [], false, 0x26⟩ else c
                             abandons := s.ct.abandons.filter fun x => x.1 != fn } }

/-- Host accesses held for a die complete: reads with Completer Abort, writes dropped and counted (R379). -/
def Mod.failHeld (s : Mod) (d : Nat) : Mod :=
  let mine := s.pci.stuck.filter fun x => x.1 == d
  mine.foldl (fun s x => match x.2 with
    | .read fn _ _ | .read2 fn _ _ => s.emit (.abortCompletion fn)
    | _ => s.bumpFld .MC_CDC_STATUS_DROPPED 0 1) { s with pci := { s.pci with stuck := s.pci.stuck.filter fun x => x.1 != d } }

/-- A die's clock runs again, and what waited for it goes on (R379, R384). -/
def Mod.clockOn (s : Mod) (d : Nat) : Mod :=
  let back (c : Cmd) : Cmd := if c.phase = .running ∧ c.fin = 2 ^ 80 ∧ !c.mgmt ∧ s.rel.stalled.any (fun x => x.1 == c.stallKey && x.2 == d)
    then { c with phase := .ready, first := 0, fin := 0 } else c
  let s := { s with rel := { s.rel with stopped := s.rel.stopped.filter (· != d), stalled := s.rel.stalled.filter fun x => x.2 != d, restarting := s.rel.restarting.filter fun x => x.1 != d }
                    cq := { s.cq with cmds := s.cq.cmds.map back } }
  let s := s.setFld .MC_CLK_STATUS_CD 0 (s.fld .MC_CLK_STATUS_CD 0 &&& (15 - 2 ^ d))
  s.setFld .MC_DIE_STEP_STOPPED d 0

/-- What a polder's hub state loses at its reset (R387): queues, weirs, collectors, step programs, loops, buckets and steps that R270 does not keep; `again` says that a step
whose vote is to come is still voted on once the polder restarts (R257). -/
def Mod.dropPolder (again : Bool) (s : Mod) (p f : Nat) : Mod :=
  let keep := (s.stepOf p).any fun st => st.outcome == 1 && (st.phase == .provisional || st.phase == .passTwo || st.phase == .closing) && !st.isDiag && !st.abandoned
  -- a member that is reset before V: its restarted ballot carries RESET, one that it has sent counts (R257)
  let more := again && (s.stepOf p).any fun st => (st.phase == .executing || st.phase == .balloted) && !st.isDiag
  let s := match s.stepOf p with
    | some st => if keep || more then s else s.writeRecord p f { st with abandoned := true, voteAt := none }
    | none => s
  let s := s.stopProgs fun r => r.pol == p
  let s := { s with stg := s.stg.filter fun e => e.step != some p
                    ue := { s.ue with loops := s.ue.loops.del p, later := s.ue.later.filter fun e => e.2.step != some p
                                      behind := if keep then s.ue.behind else s.ue.behind.filter fun b => b.pol != p || b.behind
                                      takes := s.ue.takes.filter fun t => s.takePol t != some p } }
  let s := if keep then s else
    { s with ue := { s.ue with steps := match more, s.ue.steps.get p with
                                 | true, some st => s.ue.steps.set p { st with abandoned := true, plain := true, todo := [], reasons := st.reasons ||| 64, selected := true }
                                 | _, _ => s.ue.steps.del p
                               progs := s.ue.progs.del p, buckets := s.ue.buckets.del p
                               staging := s.ue.staging.filter fun k _ => k / 65536 != p, seals := s.ue.seals.filter fun x => x.1 != p } }
  -- scatter-adds staged behind a step become visible with its abandonment (R34)
  let s := if keep then s else
    (s.ue.behind.filter fun b => b.pol == p).foldl Mod.applyBehind { s with ue := { s.ue with behind := s.ue.behind.filter fun b => b.pol != p } }
  { s with tile := { s.tile with colls := s.tile.colls.filter fun _ k => k.pol != p } }

/-- The polder's queues return to reset: what has not begun is cancelled first (R299, R385, R387). -/
def Mod.dropQueues (s : Mod) (p f : Nat) : Mod :=
  let mine (q : Nat) : Bool := (s.queueOwner q).any fun fn => s.polderOf fn == p
  let qs := dedup (((s.cq.cmds.filter fun c => !c.mgmt && mine c.qn).map (·.qn)))
  let s := qs.foldl (Mod.cancelQueue f) s
  { s with cq := { s.cq with queues := s.cq.queues.filter fun q _ => !mine q, cmds := s.cq.cmds.filter fun c => c.mgmt || !mine c.qn } }

/-- The hub loses its state; replies not posted are lost (R300, R387); pass two of a committed step goes on from its record when the hub is back (R270). -/
def Mod.dropHub (s : Mod) (f : Nat) : Mod :=
  let s := (List.range s.polders).foldl (fun s p => s.dropPolder false p f) s
  let s := (s.cq.cmds.filter fun c => !c.mgmt).foldl Mod.dropCmd s
  let s := (List.range s.polders).foldl Mod.withdraw s
  let rise (st : Step) : Step := { st with decidedAt := 0, workEnd := st.workEnd - f, passTwoAt := st.passTwoAt.map fun _ => 0, voteAt := some 0
                                           closes := st.closes.map fun h => { h with at_ := h.at_ - f } }
  { s with fc := ⟨0, 12, none, none, false, s.fc.mgmt, [], none, none, false⟩
           rf := { s.rf with stage := [], flags := [], held := .empty, latch := .empty, coarse := .empty }
           ct := ⟨.empty, [], 0⟩
           wr := ⟨[], [], [], .empty⟩
           cq := { s.cq with queues := .empty, rr := .empty }
           tile := { s.tile with colls := .empty }
           stg := []
           ue := { s.ue with running := [], later := [], takes := [], steps := s.ue.steps.map fun _ st => rise st }
           zl := ⟨.empty, [], .empty, none, false⟩
           sec := { s.sec with imports := [], stage := [] }
           ob := ⟨.empty, s.ob.banks.filter (fun b _ => decide (b < 4)), .empty, [], []⟩
           pci := { s.pci with flr := [] }
           rel := { s.rel with units := .empty, hung := [], releases := [], moved := [], stalled := [], faults := [] } }

/-- A module reset clears what lies outside the auxiliary domain: the host port, management queues, scan mode, the power manager's steps and the host's cap (R306, R383, R412,
R468, R492); the bus's cap stays (R503). -/
def Mod.dropModule (s : Mod) : Mod :=
  { s with pci := { up := false, memEn := [], msixEn := [], fmask := [], vecs := .empty, pend := [], held := [], stuck := [], due := [], bars := .empty, flr := [] }
           cq := { s.cq with cmds := [], mqs := .empty, mqWords := .empty }
           sec := { s.sec with sessions := [], negotiated := [], ide := [], scan := false, confAsk := [] }
           ob := ⟨.empty, .empty, .empty, [], []⟩
           pwr := { Mod.reset.pwr with capBus := s.pwr.capBus, askBus := s.pwr.askBus, readings := s.pwr.readings, coarse := s.pwr.coarse }
           rel := { s.rel with spareTest := [], stopped := [], restarting := [] } }

/-- What a reset ends before it begins (R381, R384 to R386): a snapshot is taken, the commands with work in the domain end with DOMAIN_RESET, which overrides
HANG_ABORT and ABORTED, and open steps that lose work are abandoned. A module reset ends the management packets not yet completed too, while the port can carry the
replies (R306); a RESET_DOMAIN of the module has none (R383). -/
def Mod.prepReset (s : Mod) (kind index cause f : Nat) : Mod :=
  let s := if kind = 3 then s else s.snapshot cause kind index
  let lost (c : Cmd) : Bool := kind == 5 && c.mgmt && s.pci.up && c.phase != .decided && !(c.opcode == 0xE001 && pw c.params 0 == 5)
  let s := s.endCmds (fun c => s.worksIn kind index (c.before [0xF0, 0xF2] f) || lost c) 0xF1 f
  (List.range s.polders).foldl (fun s p => if s.stepIn kind index p then s.abandonStep p 64 true false else s) s

/-- Whether a reset domain holds the core that a breakpoint names (R383, R447). -/
def Mod.brkIn (s : Mod) (kind index : Nat) (b : Brk) : Bool :=
  match kind with
  | 0 => b.core == 2 && b.die * 48 + b.tile == index / 64 * 48 + index % 64
  | 1 => b.core != 0 && b.die == index
  | 4 => s.dieOf b.die == index
  | _ => false

/-- The counter banks of a domain's dies return to reset (R453), and a core of the domain that a breakpoint of its own had halted is halted no more (log entry 40). -/
def Mod.resetObs (s : Mod) (kind index : Nat) : Mod :=
  let dies := s.domainDies kind index
  let gone (h : Halt) : Bool := (kind == 4 && h.key / 8 == index) || (!h.brk.polder && s.brkIn kind index h.brk)
  { s with ob := { s.ob with banks := s.ob.banks.filter fun b _ => !has dies b
                             halted := s.ob.halted.filter fun h => !gone h } }

/-- The resets asked for that do not join another, in the order of asking (R388). -/
def Mod.askedFirst (s : Mod) : List ResetS :=
  s.rel.asked.foldl (fun l r => if (s.rel.resets ++ l).any fun x => s.holds x.kind x.index r.kind r.index then l else l ++ [r]) []

/-- The domain's state is reset at sluice f, after every step of R45 (R383 to R388). -/
def Mod.resetNow (s : Mod) (kind index cause f : Nat) (cmds : List (Nat × Nat)) : Mod :=
  match s.rel.resets.find? fun r => s.holds r.kind r.index kind index with
  | some r =>
    { s with rel := { s.rel with resets := s.rel.resets.map fun x => if x == r then { x with cmds := x.cmds ++ cmds } else x } }
  | none =>
    let inside := s.rel.resets.filter fun r => s.holds kind index r.kind r.index
    let s := s.stopProgs (progIn kind index)
    let s := if kind = 4 then (((s.dropPolder true index f).dropQueues index f).withdraw index) else s
    let s := if kind = 4 then (List.range 8).foldl (fun s fn => if s.polderOf fn = index then s.dropSlots fn else s) s else s
    let s := if kind = 2 ∨ kind = 5 then s.dropHub f else s
    let s := if kind = 5 then s.dropModule else s
    let s := if kind = 3 then (s.leaveUp index .disabled 0).setLink index .zero else s
    let tiles := s.domainTiles kind index
    let s := (tiles.foldl Mod.zeroTile s).resetObs kind index
    let pick := s.regInDomain kind index
    let s := s.resetRegs pick
    let flags (x : FlagSet) : Bool := match x.reg.blk with
      | some b => pick b x.idx
      | none => false
    let s := { s with rf := { s.rf with flags := s.rf.flags.filter fun x => !flags x } }
    let s := (tiles.filterMap s.physTile).foldl Mod.restartPass s
    -- a tile that failed serves no number any more (R392)
    let s := if kind = 0 ∧ cause = 2 then tiles.foldl (fun s t => match s.physTile t with
        | some ph => s.failTile ph
        | none => s) s
      else s
    let r : ResetS := ⟨kind, index, f, cause, cmds ++ inside.flatMap (·.cmds)⟩
    let s := { s with rel := { s.rel with resets := s.rel.resets.filter (fun x => !inside.any (· == x)) ++ [r] } }
    s.put .MC_RESET_STATUS 0 (BitVec.ofNat 32 (2 ^ 31 + kind * 2 ^ 28 + index * 65536 + cause * 256))

/-- A reset is asked for in the frame; it begins at its sluice (R383). -/
def Mod.askReset (s : Mod) (kind index cause : Nat) (cmds : List (Nat × Nat)) : Mod :=
  { s with rel := { s.rel with asked := s.rel.asked ++ [⟨kind, index, 0, cause, cmds⟩] } }

/-- A reset that begins outside a sluice: a watchdog's, a pin's. -/
def Mod.beginReset (s : Mod) (kind index cause f : Nat) (cmds : List (Nat × Nat)) : Mod :=
  let s := if s.rel.resets.any fun r => s.holds r.kind r.index kind index then s else s.prepReset kind index cause f
  s.resetNow kind index cause f cmds

/-- The resets asked for end what they end, after step 7 of sluice f (R290); from here on they are sure to begin at this sluice. -/
def Mod.prepAsked (s : Mod) (f : Nat) : Mod :=
  let s := s.askedFirst.foldl (fun s r => s.prepReset r.kind r.index r.cause f) s
  { s with rel := { s.rel with asked := s.rel.asked.map fun (r : ResetS) => { r with began := f + 1 } } }

/-- The queues of polders whose reset was asked for are empty once the sluice's replies are posted (R299, R383). -/
def Mod.emptyQueues (s : Mod) (f : Nat) : Mod := (s.askedFirst.filter (·.kind == 4)).foldl (fun s r => s.dropQueues r.index f) s

/-- The resets asked for begin after every step of sluice f (R383); one asked for since they were prepared waits for the next sluice. -/
def Mod.beginAsked (s : Mod) (f : Nat) : Mod :=
  (s.rel.asked.filter (·.began != 0)).foldl (fun s r => s.resetNow r.kind r.index r.cause f r.cmds) { s with rel := { s.rel with asked := s.rel.asked.filter (·.began == 0) } }

/-! ## How a reset ends -/

/-- Confidential mode that waits for a reset ends at its release (R420). -/
def Mod.leaveConf (s : Mod) (p : Nat) : Mod :=
  if s.bit .SP_CONF_OFF_PENDING p then (s.setFld .SP_CONF_OFF_PENDING p 0).setFld .SP_CONF_CONF p 0 else s

/-- The reset is over: MC_RESET_STATUS shows it, and the commands that asked for it complete with OK (R383, R388). -/
def Mod.closeReset (s : Mod) (r : ResetS) : Mod :=
  let s := { s with rel := { s.rel with resets := s.rel.resets.filter (· != r) } }
  let busy := if s.rel.resets.isEmpty then 0 else 2 ^ 31
  let s := s.put .MC_RESET_STATUS 0 (BitVec.ofNat 32 (busy + r.kind * 2 ^ 28 + r.index * 65536 + r.cause * 256 + 1))
  r.cmds.foldl (fun s x => match s.cq.cmds.find? fun c => c.mgmt && c.qn == x.1 && c.seq == x.2 with
    | some c => s.completeAt { c with status := 0, detail := noDetail } (if s.fc.window.isSome then s.fc.num else s.fc.mgmt)
    | none => s) s

/-- The start test's failures in a domain that is released: failed tiles give up their numbers, and every number without a tile looks for a spare (R392, R403). -/
def Mod.testTiles (s : Mod) (kind index : Nat) (failed : List Nat) : Mod :=
  let tiles := s.domainTiles kind index
  let phys : List Nat := if kind = 0 then tiles.filterMap s.physTile else (s.domainDies kind index).flatMap fun d => (List.range 52).map fun n => d * 52 + n
  let bad := phys.filter fun ph => has failed (ph % 52) && !has s.rel.tileBad ph
  let s := bad.foldl (fun s ph => (s.startFail ph 0).failTile ph) s
  let on := tiles.filter fun t => decide (t % 48 < s.tilesOn (t / 48))
  (on.filter fun t => (s.physTile t).isNone && !s.tileMarked t).foldl Mod.findTile s

/-- Whether a logical tile of the domain waits for a spare that is under test (R409): the spare and the tile. -/
def Mod.waitsSpare (s : Mod) (kind index : Nat) : Option (Nat × Nat) :=
  if kind = 0 then
    let t := index / 64 * 48 + index % 64
    if (s.physTile t).isNone ∧ (s.freeSpares (t / 48)).isEmpty ∧ (s.fld .MC_SPARE_CTRL_AUTO 0).testBit (t / 48)
    then (s.underTest (t / 48)).map fun x => (x.1, t) else none
  else none

/-- A domain is released at a sluice (R384): its clock runs, its links may train, accesses that it held complete, confidential mode may end. -/
def Mod.releaseDomain (s : Mod) (r : ResetS) : Mod :=
  let dies := s.domainDies r.kind r.index
  let s := dies.foldl (fun s d => (s.clockOn d).failHeld d) s
  let s := if r.kind = 4 then s.leaveConf r.index else if r.kind = 2 then (List.range s.polders).foldl Mod.leaveConf s else s
  let train (s : Mod) (l : Nat) : Mod := if s.bit .ZL_CTRL_ENABLE l then s.beginTraining l else s
  let s := if r.kind = 3 then train s r.index else if r.kind = 2 then (List.range 32).foldl train s else s
  s.closeReset r

/-- The reset that a release names, if its start checks may end now: a module's ends with its start (R389), and no other in the frame of its sluice r. -/
def Mod.releasable (s : Mod) (kind index : Nat) : Option ResetS :=
  if kind = 5 then none else
  (s.rel.resets.find? fun r => r.kind == kind && r.index == index).bind fun r => if kind = 2 ∨ (s.inFrame ∧ r.began < s.fc.num) then some r else none

/-- The node number of a slot: its own for slots 0 to 7, none for the standby slot (R360). -/
def nodeOf (slot : Nat) : Nat := if slot < 8 then slot else 0xF

/-- The start fields of a domain that is released (R16): ZL_NODE from the straps, HC_TILES as the start found it, and what each physical tile of its dies is. -/
def Mod.startFields (s : Mod) (kind index : Nat) : Mod :=
  let s := if kind = 2 then ((s.setFld .ZL_NODE_SLOT 0 s.rel.slot).setFld .ZL_NODE_NODE 0 (nodeOf s.rel.slot)).put .HC_TILES 0 s.rel.tilesUp else s
  (s.domainDies kind index).foldl (fun s d => (List.range 52).foldl (fun s n =>
    let ph := d * 52 + n
    (s.setFld .BC_TILE_STATUS_SPARE ph (if (s.logicalOf ph).isNone && !has s.rel.tileBad ph then 1 else 0)).setFld .BC_TILE_STATUS_LOGICAL ph
      (((s.logicalOf ph).map (· % 48)).getD 0x3F)) s) s

/-- A domain whose start checks are over is released, unless it waits for a spare under test (R384, R409). -/
def Mod.onRelease (s : Mod) (kind index : Nat) (failed : List Nat) : Mod :=
  match s.rel.resets.find? fun r => r.kind == kind && r.index == index with
  | none => s
  | some r =>
    match s.waitsSpare kind index with
    | some (ph, t) =>
      { s with rel := { s.rel with spareTest := s.rel.spareTest.map fun x => if x.1 = ph then (ph, some t) else x } }
    | none => ((s.startFields kind index).testTiles kind index failed).releaseDomain r

/-- DOMAIN_RELEASE: the start checks of a domain end in the frame, and its sluice releases the domain; the hub, under which no sluice is taken, is released at once. -/
def Mod.endChecks (s : Mod) (kind index : Nat) (failed : List Nat) : Mod :=
  if kind = 2 then (s.onRelease 2 index failed).sendDue else { s with rel := { s.rel with releases := s.rel.releases ++ [(kind, index, failed)] } }

/-- The domains whose start checks ended in the frame are released at its sluice, with the completions of the frame (R383, R384). -/
def Mod.releaseStep (s : Mod) : Mod := s.rel.releases.foldl (fun s x => s.onRelease x.1 x.2.1 x.2.2) { s with rel := { s.rel with releases := [] } }

/-- DOMAIN_RELEASE (R384). -/
def execDomainRelease (kind : Fin 6) (index : BitVec 8) (failed : List (Fin 52)) (s : State) : Host.Outcome State Fault Refusal :=
  s.when (s.m.releasable kind index.toNat).isSome (s.m.endChecks kind index.toNat (failed.map (·.val)))

/-! ## Hangs (R376 to R378) -/

/-- The kind, die and number of a unit's key. -/
def unitParts (k : Nat) : Nat × Nat × Nat := (k / 65536 / 4, k / 65536 % 4, k % 65536)

/-- The smallest domain that contains a unit: kind and index (R378, R383). -/
def unitDomain (k : Nat) : Nat × Nat :=
  match unitParts k with
  | (0, d, n) => (0, d * 64 + n)
  | (1, d, _) | (2, d, _) | (3, d, _) | (4, d, _) => (1, d)
  | (6, _, n) => (3, n)
  | _ => (2, 0)

/-- The polders that own a unit (R378). -/
def Mod.unitPols (s : Mod) (k : Nat) : List Nat :=
  match unitParts k with
  | (9, _, n) => match s.queueOwner n with
    | some fn => [s.polderOf fn]
    | none => []
  | (kd, d, _) => if kd ≤ 4 then [s.dieOf d] else List.range s.polders

/-- Whether a command holds work on a unit, or for KIND 9 is the one that waits without a limit (R378, R385). -/
def Mod.worksOnUnit (s : Mod) (k : Nat) (c : Cmd) : Bool :=
  !c.mgmt && match unitParts k with
    | (9, _, n) => c.qn == n && c.waiting && c.waits.any fun w => w.limit == 0
    | (7, _, _) => c.phase == .running && c.stallKey == k && c.fin == 2 ^ 80 && s.rel.stalled.any fun x => x.1 == k
    | (8, _, 1) => c.phase == .running && c.caps.any (· == .hostIn)
    | (8, _, 2) => c.phase == .running && c.caps.any (· == .hostOut)
    | _ => c.phase == .running && (c.engines.any (fun e => unitOf e == k) || (s.progOf c).any fun p => p.used.any fun e => unitOf e == k)

/-- The domain that ACTION 2 resets for a hung unit: that of its stuck access, none for a queue's wait, else its own (R378). -/
def Mod.hangTarget (s : Mod) (k : Nat) : Option (Nat × Nat) :=
  if (unitParts k).1 = 9 then none else
  match s.rel.stalled.find? fun x => x.1 == k with
  | some x => some (1, x.2)
  | none =>
    if k = unitKey 8 0 0 then match s.pci.stuck with
      | x :: _ => some (1, x.1)
      | [] => some (unitDomain k)
    else some (unitDomain k)

/-- MC_HANG_FIRST.DIE of a unit: its die; of a unit of the hub, the die at which its stuck access is (R380). -/
def Mod.hangDie (s : Mod) (k : Nat) : Nat :=
  let u := unitParts k
  if u.1 ≤ 4 then u.2.1 else match s.hangTarget k with
    | some (1, d) => d
    | _ => 0

/-- A hung unit: the first hang is recorded, and the unit's owners are alerted (R378). -/
def Mod.recordHang (f : Nat) (s : Mod) (k : Nat) : Mod :=
  let u := unitParts k
  let a := 2 ^ 31 + s.hangDie k % 4 * 2 ^ 24 + u.1 % 16 * 2 ^ 20 + u.2.2
  let s := if s.bit .MC_HANG_FIRST_VALID 0 then s
    else (s.put .MC_HANG_FIRST 0 (BitVec.ofNat 32 a)).putPair .MC_HANG_FRAME_LO .MC_HANG_FRAME_HI 0 f
  (s.unitPols k).foldl (fun s p => (s.note p f (.of 11 (u.2.1 * 2 ^ 22 + u.1 * 65536 + u.2.2) a 0 0 0)).alertNow .CQ_ALERT_CAUSE_HANG p) s

/-- The units that hang at sluice f: the first of them is recorded, by kind, die and number (log entry 101), they are counted as one hang, and one snapshot is taken (R378). -/
def Mod.reportHang (s : Mod) (f : Nat) (ks : List Nat) : Mod := ((ks.foldl (Mod.recordHang f) s).countReg .MC_HANG_COUNT 0 1).snapshots 1 (ks.map unitDomain)

/-- What MC_HANG_CTRL.ACTION does about hung units (R378). -/
def Mod.actOnHang (s : Mod) (f : Nat) (ks : List Nat) (targets : List (Nat × Nat)) : Mod :=
  let act := s.fld .MC_HANG_CTRL_ACTION 0
  if act = 0 then s else
  let hit (c : Cmd) : Bool := ks.any fun k => s.worksOnUnit k (c.before [0xF0] f)
  let ended := s.cq.cmds.filter hit
  let pols := dedup ((ended.filter (·.step)).map (·.pol))
  let s := s.endCmds hit 0xF2 f
  let s := pols.foldl (fun s p => s.abandonStep p 64 true false) s
  if act = 1 then s else targets.foldl (fun s t => if s.fc.window.isSome then s.askReset t.1 t.2 1 [] else s.beginReset t.1 t.2 1 f []) s

/-- HANG_DETECT: the units found hung at the sluice are reported and acted on. -/
def Mod.onHang (s : Mod) : Mod :=
  let f := s.fc.num
  let ks := sortBy id s.rel.hung
  let targets := dedup' (ks.filterMap s.hangTarget)
  let s := { s with rel := { s.rel with hung := [] } }
  (s.reportHang f ks).actOnHang f ks targets
where
  /-- Each target once. -/
  dedup' : List (Nat × Nat) → List (Nat × Nat)
    | [] => []
    | x :: rest => x :: (dedup' rest).filter (· != x)

/-- SLUICE_WATCHDOG: KIND 10 hangs, and the dies or the hub that the watchdog names are reset (R377, R378). `late` has a bit for each die and bit 4 for the hub. -/
def Mod.watchdog (s : Mod) (late : BitVec 5) : Mod :=
  let f := s.fc.num
  let k := unitKey 10 0 0
  let ts : List (Nat × Nat) := if late.getLsbD 4 then [(2, 0)] else ([0, 1, 2, 3].filter fun d => late.toNat.testBit d).map fun d => (1, d)
  ((s.reportHang f [k]).actOnHang f [k] ts).sendDue

/-- SLUICE_WATCHDOG (R377): while hang detection is on and sluices are due. -/
def execSluiceWatchdog (late : BitVec 5) (s : State) : Host.Outcome State Fault Refusal :=
  s.when (s.m.bit .MC_HANG_CTRL_EN 0 && late != 0 && s.m.fc.window.isNone && !s.m.rel.resets.any fun r => r.kind == 2 || r.kind == 5) (s.m.watchdog late)

/-! ## Faults of tiles and memory -/

/-- TILE_FAULT: an uncorrectable error in a tile's memory; the sluice of the frame acts on it (R190). -/
def Mod.onTileFault (s : Mod) (t : Nat) : Mod :=
  { s.stage (rankTile t) (.count .TS_ECC_UNCORR t 1) with rel := { s.rel with faults := s.rel.faults ++ [(t, false)] } }

/-- Whether a logical tile is enabled, has a physical tile and is not in reset. -/
def Mod.tileLive (s : Mod) (t : Nat) : Bool :=
  decide (t % 48 < s.tilesOn (t / 48)) && !s.tileMarked t && !s.dieDown (t / 48) && !s.rel.resets.any fun r => s.holds r.kind r.index 0 (t / 48 * 64 + t % 48)

/-- TILE_FAULT (R190). -/
def execTileFault (d : Fin 4) (t : Fin 48) (s : State) : Host.Outcome State Fault Refusal :=
  s.when (s.m.inFrame && s.m.tileLive (d * 48 + t)) (s.m.onTileFault (d * 48 + t))

/-- The tile faults of a frame at its sluice, before its data is applied: commands with work on the tile end with TILE_FAULT, an open step of the polder is abandoned,
and the tile is then reset (R190, R385, R411). -/
def Mod.takeFaults (s : Mod) : Mod :=
  let ts := dedup (s.rel.faults.map (·.1))
  let s := ts.foldl (fun s t =>
    let hit (c : Cmd) : Bool := !c.mgmt && s.worksOnTile c t
    let stop (c : Cmd) : Cmd := if hit c then { c with phase := .decided, status := 0xF9, detail := noDetail, fin := s.fc.num } else c
    let s := { s with cq := { s.cq with cmds := s.cq.cmds.map stop } }
    let s := s.abandonStep (s.dieOf (t / 48)) 128 false true
    (s.stopProgs (progIn 0 (t / 48 * 64 + t % 48))).askReset 0 (t / 48 * 64 + t % 48) 2 []) s
  { s with rel := { s.rel with faults := [] } }

/-- An uncorrectable read at a physical place: counted, the first recorded, its page marked RETIRE at the next sluice, its granule poisoned (R236, R237). A frame that no
page entry names takes no mark (log entry 96). -/
def Mod.uncorrAt (s : Mod) (pol id ofs : Nat) (patrol : Bool) : Mod :=
  let s := (s.countLater .MT_ECC_UNCORR 0 1).stage 0 (.retire id)
  let s := if s.bit .MT_ECC_FIRST_VALID 0 then s else
    let w := 2 ^ 31 + id / 2 ^ 22 % 2 * 2 ^ 30 + (if patrol then 2 ^ 29 else 0) + pol * 2 ^ 24 + id % 2 ^ 22
    ((s.put .MT_ECC_FIRST 0 (BitVec.ofNat 32 w)).put .MT_ECC_OFS 0 (BitVec.ofNat 32 (ofs / 32 * 32))).putPair .MT_ECC_WHEN_LO .MT_ECC_WHEN_HI 0 s.fc.num
  s.addPoison [(id * 2 ^ 21 + ofs) / 32]

/-- MEM_UNCORR: an uncorrectable read of a mapped address (R236). -/
def execMemUncorr (p : Fin 4) (addr : BitVec 48) (s : State) : Host.Outcome State Fault Refusal :=
  s.when (s.m.fc.window.isNone && (s.m.page p addr.toNat).isSome) (match s.m.physPage p addr.toNat with
    | some id => s.m.uncorrAt p id (addr.toNat % 2 ^ 21) false
    | none => s.m)

/-- PATROL_SCRUB reads a controller's memory at a byte address of the controller: a single error is corrected and counted, an uncorrectable one recorded, and the
memory alert of the frame's polder sent (R235, R237). -/
def Mod.patrol (s : Mod) (c addr : Nat) (uncorr : Bool) : Mod :=
  if !uncorr then s.countLater (if ctlHbm c then .MT_ECC_CORR_HBM else .MT_ECC_CORR_LP) 0 1 else
  let f := ctlFrame c (addr / 2 ^ 21 % 65536)
  let pol := s.dieOf (c / 14)
  (s.uncorrAt pol (f.1 * 2 ^ 22 + f.2) (addr % 2 ^ 21) true).alert .CQ_ALERT_CAUSE_MEMORY pol

/-- PATROL_SCRUB (R237). -/
def execPatrolScrub (d : Fin 4) (ctl : Fin 14) (addr : BitVec 48) (uncorr : Bool) (s : State) : Host.Outcome State Fault Refusal :=
  s.when (s.m.fc.window.isNone && s.m.running && s.m.bit .MT_ECC_CTRL_PATROL_EN 0 && !s.m.dieDown d) (s.m.patrol (d * 14 + ctl) addr.toNat uncorr)

/-- PAGE_ZEROED: the frame at the head of a controller's zeroing queue becomes free (R220). -/
def Mod.onZeroed (s : Mod) (c : Nat) : Mod :=
  let k := s.mem.ctl c
  match popRange k.zq with
  | none => s
  | some (f, rest) => { s with mem := { s.mem with ctls := s.mem.ctls.set c { k with zq := rest, free := pushRange f k.free, zdone := 0 } } }

/-- Whether the zeroing of the frame at the head of a controller's queue has ended (R220): the frames that it takes have been spent on it. -/
def Mod.zeroDue (s : Mod) (c : Nat) : Bool :=
  let k := s.mem.ctl c
  (popRange k.zq).isSome && !s.dieDown (c / 14) && s.sluiceB.isSome && decide (s.zeroFrames c ≤ k.zdone)

/-! ## Self-test in service (R407 to R411) -/

/-- Whether a frame program may donate the frame to a tile (R408): a program runs on the die, and the frame is not donated to the tile yet. A donated frame leaves a count
of slices behind it, of 0 where none ran. -/
def Mod.mayDonate (s : Mod) (t : Nat) : Bool :=
  s.ue.running.any (fun p => has p.dies (t / 48))
    && !s.stg.any fun e => e.rank == rankTile t && (e.eff == .count .BC_SLICES_DONE (t / 48) 1 || e.eff == .count .BC_SLICES_DONE (t / 48) 0)

/-- Whether a donated frame runs a slice on a tile (R408): periodic tests are on, and the tile is neither marked nor in reset. -/
def Mod.sliceReady (s : Mod) (t : Nat) : Bool :=
  s.bit .BC_CTRL_PERIODIC_EN (t / 48) && s.tileLive t && (s.physTile t).isSome && s.mayDonate t

/-- IN_SERVICE_SLICE: the tile's next slice; a failure is a tile fault at the frame's sluice (R407, R411). -/
def Mod.runSlice (s : Mod) (t : Nat) (fail : Option TestFail) : Mod :=
  match s.physTile t with
  | none => s
  | some ph =>
    let d := t / 48
    let next := s.fld .BC_TILE_STATUS_NEXT ph
    let s := (s.stage (rankTile t) (.count .BC_SLICES_DONE d 1)).event s.fc.num d 30 1
    match fail with
    | some x =>
      let s := s.stage (rankTile t) (.count .BC_SLICES_FAILED d 1)
      let s := s.firstFail' ph 1 next x.bank.toNat x.line.toNat
      { s with rel := { s.rel with faults := s.rel.faults ++ [(t, true)] } }
    | none =>
      if next = 18 then
        let s := (s.setFld .BC_TILE_STATUS_NEXT ph 0).setFld .BC_TILE_STATUS_PASSES ph ((s.fld .BC_TILE_STATUS_PASSES ph + 1) % 256)
        { s with rel := { s.rel with passStart := s.rel.passStart.set ph (2 * (s.fc.num + 1)) } }
      else s.setFld .BC_TILE_STATUS_NEXT ph (next + 1)

/-- A frame donated to a tile that runs no slice: it passes, and is counted as donated (R408, R436). -/
def Mod.idleSlice (s : Mod) (t : Nat) : Mod := (s.stage (rankTile t) (.count .BC_SLICES_DONE (t / 48) 0)).event s.fc.num (t / 48) 30 1

/-- IN_SERVICE_SLICE (R408): the frame is donated to the tile. -/
def execInServiceSlice (d : Fin 4) (t : Fin 48) (fail : Option TestFail) (s : State) : Host.Outcome State Fault Refusal :=
  s.when (s.m.inFrame && s.m.mayDonate (d * 48 + t))
    (if s.m.sliceReady (d * 48 + t) then s.m.runSlice (d * 48 + t) fail else s.m.idleSlice (d * 48 + t))

/-- Whether a periodic pass of a physical tile is past its deadline and not yet reported (R408). -/
def Mod.starved (s : Mod) (ph : Nat) : Bool :=
  let x := s.rel.passStart.getD ph 0
  (s.logicalOf ph).isSome && s.bit .BC_CTRL_PERIODIC_EN (ph / 52) && x % 2 == 0
    && s.sluiceB.any fun f => decide (x / 2 + max 1 (s.fld .BC_CTRL_PERIOD (ph / 52)) * 65536 ≤ f + 1)

/-- A pass that starves is reported (R408). -/
def Mod.starve (s : Mod) (ph : Nat) : Mod :=
  let s := (s.raise .BC_TILE_STATUS_STARVED ph).countLater .BC_STARVED (ph / 52) 1
  { s with rel := { s.rel with passStart := s.rel.passStart.set ph (s.rel.passStart.getD ph 0 / 2 * 2 + 1) } }

/-- Whether a round of spare tests begins on a die (R409): every 2^22 frames, with no spare test under way. -/
def Mod.roundDue (s : Mod) (d : Nat) : Bool :=
  s.bit .BC_CTRL_SPARE_EN d && s.sluiceB.any (fun f => (f + 1) % 2 ^ 22 == 0) && (s.underTest d).isNone && !(s.spares d).isEmpty && !s.dieDown d

/-- The spares of a die are tested in turn, the first at once. -/
def Mod.startRound (s : Mod) (d : Nat) : Mod := { s with rel := { s.rel with spareTest := s.rel.spareTest ++ (s.spares d).map fun ph => (ph, none) } }

/-- SPARE_TEST_END: a spare that fails is marked; one that passes and that R392 needs takes the logical number, and the waiting reset is released at the frame's sluice (R409). -/
def Mod.endSpareTest (s : Mod) (ph : Nat) (pass : Bool) : Mod :=
  match s.rel.spareTest.find? fun x => x.1 == ph with
  | none => s
  | some (_, wait) =>
    let s := { s with rel := { s.rel with spareTest := s.rel.spareTest.filter fun x => x.1 != ph } }
    let s := if pass then s else (s.startFail ph 2).failTile ph
    match wait with
    | none => s
    | some t => (if pass then s.takeSpare ph t else s.findTile t).endChecks 0 (t / 48 * 64 + t % 48) []

/-- SPARE_TEST_END (R409). -/
def execSpareTestEnd (d : Fin 4) (t : Fin 52) (pass : Bool) (s : State) : Host.Outcome State Fault Refusal :=
  s.when (s.m.inFrame && match s.m.underTest d with
    | some x => x.1 == d * 52 + t
    | none => false) (s.m.endSpareTest (d * 52 + t) pass)

end Sys2Proof.Machine
end

