-- ==== Sys2Proof/Machine/Power.lean ====
section
/-! DEFINITION. The power manager, the thermal sensors, and what a shutdown or a loss of the rails does (17_clocks_power_thermal.md R455 to R468, 18 R480 to R483). -/

namespace Sys2Proof.Machine

/-! ## Readings (R464, R467) -/

/-- The answer of a sensor that has no reading (R467). -/
def noReading : DWord := 0x8000000000000000#64

/-- Whether a sensor keeps a reading: input, rails, dies, hub, stacks, packages (R467). -/
def sensorKept (k : Nat) : Bool :=
  decide (k ≤ 3) || decide (0x10 ≤ k ∧ k ≤ 0x18) || decide (0x20 ≤ k ∧ k ≤ 0x23) || k == 0x28 || decide (0x30 ≤ k ∧ k ≤ 0x37) || decide (0x40 ≤ k ∧ k ≤ 0x6F)

/-- Whether a sensor reads a power (R423, R467). -/
def sensorPower (k : Nat) : Bool := k == 0 || k == 3 || decide (0x10 ≤ k ∧ k ≤ 0x18)

/-- A power in mW to the nearest multiple of 5 W, ties upward (R423). -/
def round5W (mw : Nat) : Nat := (mw + 2500) / 5000 * 5000

/-- The place among the readings of the mean input power of the last window, in mW. -/
def meanKey : Nat := 0x10000

/-- The die's step s_n (R465). -/
def Mod.dieStep (s : Mod) (n : Nat) : Nat :=
  max (max (max s.pwr.pPwr s.pwr.tHub) (s.pwr.tDie.getD n 0)) (max (s.pwr.level.getD (2 * n) 0) (s.pwr.level.getD (2 * n + 1) 0))

/-- A sensor's answer (R423, R467). -/
def Mod.sensor (s : Mod) (k : Nat) : DWord :=
  if k = 0x78 then BitVec.ofNat 64 (max s.pwr.pPwr s.pwr.tHub)
  else if 0x70 ≤ k ∧ k ≤ 0x73 then BitVec.ofNat 64 (s.dieStep (k - 0x70))
  else if s.anyConf && sensorPower k then s.pwr.coarse.getD k noReading
  else s.pwr.readings.getD k noReading

/-- MC_PWR_STATUS.POWER (R423, R468). -/
def Mod.meanPower (s : Mod) : Nat := ((if s.anyConf then s.pwr.coarse else s.pwr.readings).getD meanKey 0).toNat / 1000

/-- MC_PWR_STATUS as it reads. -/
def Mod.pwrStatus (s : Mod) : Word := s.rd .MC_PWR_STATUS 0 ||| BitVec.ofNat 32 (min 65535 s.meanPower)

/-- The power readings are refreshed, coarsened (R423). -/
def Mod.refreshCoarse (s : Mod) : Mod :=
  { s with pwr := { s.pwr with coarse := ⟨(s.pwr.readings.cells.filter fun c => sensorPower c.1 || c.1 == meanKey).map fun c =>
      (c.1, if c.2 = noReading then noReading else BitVec.ofNat 64 (round5W c.2.toNat))⟩ } }

/-- Whether a temperature keeps its last value, because the domain that it mirrors is stopped: a die's junction, stacks and packages while the die's clocks are, the hub's while
the hub is in reset (R212, R455, R458, R464; log entry 107). -/
def Mod.sensorHeld (s : Mod) (k : Nat) : Bool :=
  if 0x20 ≤ k ∧ k ≤ 0x23 then s.dieDown (k - 0x20)
  else if k = 0x28 then s.rel.resets.any fun r => r.kind == 2
  else if 0x30 ≤ k ∧ k ≤ 0x37 then s.dieDown ((k - 0x30) / 2)
  else if 0x40 ≤ k ∧ k ≤ 0x6F then s.dieDown ((k - 0x40) / 12)
  else false

/-- Readings are taken. -/
def Mod.takeReadings (s : Mod) (l : List (Nat × DWord)) : Mod :=
  { s with pwr := { s.pwr with readings := (l.filter fun x => sensorKept x.1 && !s.sensorHeld x.1).foldl (fun t x => t.set x.1 x.2) s.pwr.readings } }

/-! ## Thresholds (R464) -/

/-- Throttle, alert and shutdown of a temperature sensor in m°C; a package has no throttle threshold. -/
def thresholds (k : Nat) : Option (Option Int × Int × Int) :=
  if (0x20 ≤ k ∧ k ≤ 0x23) ∨ k = 0x28 then some (some 95000, 100000, 110000)
  else if 0x30 ≤ k ∧ k ≤ 0x37 then some (some 85000, 95000, 105000)
  else if 0x40 ≤ k ∧ k ≤ 0x6F then some (none, 95000, 105000)
  else none

/-- A temperature as last read, if the sensor has been read. -/
def Mod.temp (s : Mod) (k : Nat) : Option Int := (s.pwr.readings.get k).map BitVec.toInt

/-- Whether a sensor reads above one of its thresholds. -/
def Mod.above (s : Mod) (k : Nat) (f : Option Int × Int × Int → Option Int) : Bool :=
  match s.temp k, (thresholds k).bind f with
  | some t, some x => decide (x < t)
  | _, _ => false

/-- The temperature sensors. -/
def tempSensors : List Nat := [0x20, 0x21, 0x22, 0x23, 0x28] ++ (List.range 8).map (0x30 + ·) ++ (List.range 48).map (0x40 + ·)

/-- Whether some sensor reads at or above its alert threshold: a start halts at step CLK after a shutdown (R466). -/
def Mod.tooHot (s : Mod) : Bool := tempSensors.any fun k => match s.temp k, thresholds k with
  | some t, some x => decide (x.2.1 ≤ t)
  | _, _ => false

/-- MC_TH_STATUS's live bits follow the readings (R468). -/
def Mod.hotBits (s : Mod) : Mod :=
  let hot (k : Nat) : Bool := s.above k (·.1)
  let s := s.setFld .MC_TH_STATUS_CD_HOT 0 (([0, 1, 2, 3].map fun n => if hot (0x20 + n) then 2 ^ n else 0).sum)
  let s := s.setFld .MC_TH_STATUS_HUB_HOT 0 (if hot 0x28 then 1 else 0)
  let s := s.setFld .MC_TH_STATUS_HBM_HOT 0 (if (List.range 8).any fun i => hot (0x30 + i) then 1 else 0)
  s.setFld .MC_TH_STATUS_LP_HOT 0 (if (List.range 48).any fun i => s.above (0x40 + i) fun x => some x.2.1 then 1 else 0)

/-! ## Steps at a sluice (R457, R461, R462, R465) -/

/-- A step or level after a reading: up above the throttle threshold, down below the release, 3 °C under it. -/
def throttle (v top : Nat) (thr : Int) (t : Int) : Nat := if thr < t then min top (v + 1) else if t < thr - 3000 then v - 1 else v

/-- The thermal steps and levels after a reading (R465). -/
def Power.therm (p : Power) (r : List (Nat × Int)) : Power :=
  let on (k v top : Nat) (thr : Int) : Nat := match r.lookup k with
    | some t => throttle v top thr t
    | none => v
  { p with tHub := on 0x28 p.tHub 7 95000
           tDie := (List.range 4).map fun n => on (0x20 + n) (p.tDie.getD n 0) 7 95000
           level := (List.range 8).map fun i => on (0x30 + i) (p.level.getD i 0) 4 85000 }

/-- A cap after the clamps of R461. -/
def clampCap (w : Nat) : Nat := if w = 0 ∨ 3200 < w then 3200 else max 1200 w

/-- The effective cap (R503). -/
def Power.cap (p : Power) : Nat := min p.capHost p.capBus

/-- The rule of R461 for a window's mean in mW. -/
def Power.window (p : Power) (mean : Nat) : Power :=
  let c := p.cap * 1000
  { p with pPwr := if c < mean then min 7 (p.pPwr + 1) else if mean < c - c / 16 then p.pPwr - 1 else p.pPwr }

/-- What the power manager applies at a sluice: thermal steps and levels, then caps and P_pwr, then P and every s_n (R461, R462, R465, R503). Changes of a cap
take effect before the window's mean is compared (log entry 46). -/
def Mod.powerStep (s : Mod) : Mod :=
  let p := s.pwr.pendTherm.foldl Power.therm s.pwr
  let p := if p.pendMean.isEmpty then p else { p with capHost := p.askHost.getD p.capHost, capBus := p.askBus.getD p.capBus, askHost := none, askBus := none }
  let p := p.pendMean.foldl Power.window p
  let p := if p.pendFast then { p with pPwr := max p.pPwr 4 } else p
  let fast := p.pendFast
  let s := { s with pwr := { p with pendMean := [], pendFast := false, pendTherm := [] } }
  let s := if fast then s.raiseNow .MC_PWR_STATUS_FAST 0 else s
  let s := (s.setFld .MC_PWR_STATUS_P 0 (max s.pwr.pPwr s.pwr.tHub)).setFld .MC_PWR_CAP_CAP 0 s.pwr.cap
  let s := (List.range 4).foldl (fun (s : Mod) n =>
    (((s.setFld .MC_DIE_STEP_STEP n (s.dieStep n)).setFld .MC_DIE_STEP_THERM n (s.pwr.tDie.getD n 0)).setFld .MC_DIE_STEP_HBM_HI n (s.pwr.level.getD (2 * n + 1) 0)).setFld
      .MC_DIE_STEP_HBM_LO n (s.pwr.level.getD (2 * n) 0)) s
  s.put .MT_THERM_STATUS 0 (BitVec.ofNat 32 (((List.range 8).map fun i => if s.pwr.level.getD i 0 = 0 then 0 else 2 ^ i).sum))

/-! ## The management bus's alert byte (R502) -/

/-- Causes are latched in the alert byte; an unmasked bit that changes from 0 to 1 raises an in-band interrupt where they are enabled. -/
def State.latch (s : State) (bits : Nat) : State :=
  let old := s.i3c.alert
  let new := old ||| bits
  let rise := (List.range 8).any fun i => new.testBit i && !old.testBit i && !s.i3c.mask.testBit i
  let s := { s with i3c := { s.i3c with alert := new } }
  if rise && s.i3c.ibi then { s with m := s.m.emit (.inBand (BitVec.ofNat 8 new)) } else s

/-- Whether MOD_ALERT# is low (R502). -/
def State.modAlert (s : State) : Bool := (List.range 8).any fun i => s.i3c.alert.testBit i && !s.i3c.mask.testBit i

/-! ## Shutdown and loss of rails (R466, R480 to R483) -/

/-- Whether the whole module is in reset, or was never started. -/
def Mod.off (s : Mod) : Bool := s.rel.resets.any (·.kind == 5) || !s.bit .MC_START_STATUS_DONE 0

/-- The module is reset with a cause: at the next sluice while sluices are taken, else at once (R466, R481). -/
def Mod.resetAll (s : Mod) (cause : Nat) : Mod :=
  if s.running then s.askReset 5 0 cause []
  else if s.rel.resets.any (·.kind == 5) then s
  else s.beginReset 5 0 cause s.fc.num []

/-- A shutdown starts (R466, R483): THERMTRIP# is low, the module is reset, memory is kept in self-refresh. -/
def State.beginShutdown (s : State) (high : Bool) : State :=
  let s := s.latch (if high then 0x42 else 0x02)
  if s.pins.shutdown then s else
  { s with pins := { s.pins with shutdown := true, thermTrip := true, memKept := true }
           m := (s.m.resetAll 3).raiseNow .MC_TH_STATUS_SHUTDOWN 0 }

/-- The rails are gone: everything but the management domain is lost, device memory included (R480, R482, R483). The management controller's registers return to
reset but for what they hold. -/
def Mod.powerLost (s : Mod) : Mod :=
  let s' := s.resetRegs fun b _ => b.dom == .module
  let kept := s'.rf.vals.filter fun k _ => match regOfNum (k % 256) with
    | some r => r.blk.any fun b => b.dom == .module
    | none => false
  let r := Mod.reset
  { r with io := s.io
           fc := { r.fc with mgmt := s.fc.mgmt }
           rf := { r.rf with vals := kept }
           cq := { r.cq with ranges := s.cq.ranges }
           rel := { r.rel with ledgerPos := s.rel.ledgerPos, alts := s.rel.alts, flash := s.rel.flash, resets := [⟨5, 0, 0, 3, []⟩] }
           pwr := { r.pwr with capBus := s.pwr.capBus, askBus := s.pwr.askBus, readings := s.pwr.readings.filter fun k _ => k == 3 || (decide (0x30 ≤ k) && k != meanKey) } }

/-- PWR_GOOD falls and the rails are removed. -/
def State.powerOff (s : State) : State :=
  if s.pins.pwrGood then { s with pins := { s.pins with pwrGood := false, rails := 0, memKept := false, resetDue := false }, m := s.m.powerLost } else s

/-- The rails ramp and PWR_GOOD rises, where auxiliary power is up, PWR_EN asserted, P48V in range, and no rail fault holds the module (R479, R480). -/
def State.powerOn (s : State) : State :=
  if s.pins.aux ∧ s.pins.pwrEn ∧ s.pins.volt = .inRange ∧ !s.pins.railFault ∧ !s.pins.pwrGood then
    { s with pins := { s.pins with pwrGood := true, rails := 0x1FF } }
  else s

/-- AUX_POWER_UP: the management controller starts, and the straps are read (R474, R479). -/
def execAuxPowerUp (straps : BitVec 4) (s : State) : Host.Outcome State Fault Refusal :=
  if s.pins.aux then .refused .notEnabled
  else .next { s with pins := { s.pins with aux := true, straps := straps.toNat }, i3c := ⟨none, false, 32, 32, 0, 0⟩, tap := ⟨1, s.tap.boundary⟩ }.powerOn

/-- PWR_EN_ASSERT (R479). -/
def execPwrEnAssert (s : State) : Host.Outcome State Fault Refusal := .next { s with pins := { s.pins with pwrEn := true } }.powerOn

/-- PWR_EN_DEASSERT: PWR_GOOD falls, the rails and with them memory contents go; a rail fault's hold ends (R480, R482, R483). -/
def execPwrEnDeassert (s : State) : Host.Outcome State Fault Refusal :=
  let s := s.powerOff
  .next { s with pins := { s.pins with pwrEn := false, railFault := false } }

/-- P48V_REACHING_40_V (R479). -/
def execP48vReaching40V (s : State) : Host.Outcome State Fault Refusal := .next { s with pins := { s.pins with volt := .inRange } }.powerOn

/-- P48V_BELOW_36_V: PWR_GOOD falls as for a rail fault (R483). -/
def execP48vBelow36V (s : State) : Host.Outcome State Fault Refusal :=
  let s : State := { s with pins := { s.pins with volt := .absent } }
  if s.pins.pwrGood then
    let s := (s.powerOff).latch 0x08
    .next { s with pins := { s.pins with railFault := true } }
  else .next s

/-- RAIL_FAULT: PWR_GOOD falls, every rail is removed, and the rail word shows the failing rail (R480; log entry 47). -/
def execRailFault (rail : Fin 9) (s : State) : Host.Outcome State Fault Refusal :=
  if s.pins.pwrGood then
    let s := (s.powerOff).latch 0x08
    .next { s with pins := { s.pins with railFault := true, rails := 2 ^ rail.val } }
  else .refused .notEnabled

/-- INPUT_VOLTAGE_FAULT: P48V below 40 V or above 62 V for 1 ms shuts the module down (R466, R483). -/
def execInputVoltageFault (high : Bool) (s : State) : Host.Outcome State Fault Refusal :=
  if s.pins.pwrGood then
    let s : State := if high then s else { s with pins := { s.pins with volt := .low } }
    .next (s.beginShutdown high)
  else .refused .notEnabled

/-- The ledger is what flash has of it (R483). -/
def Mod.loadLedger (s : Mod) : Mod :=
  (List.range 256).foldl (fun s k => s.put .MC_LEDGER k (s.rel.flash.words.getD k 0)) { s with rel := { s.rel with ledgerPos := s.rel.flash.pos, alts := s.rel.flash.alts } }

/-- AUX_UNDERVOLTAGE: everything but what lies in flash and fuses is lost (R483, R503). -/
def execAuxUndervoltage (s : State) : Host.Outcome State Fault Refusal :=
  if s.pins.aux then
    let m := s.m.powerLost
    let m := { m with fc := { m.fc with mgmt := 0 }
                      rf := { m.rf with vals := .empty }
                      pwr := { m.pwr with capBus := 3200, askBus := none, readings := .empty } }
    .next { s with m := m.loadLedger, pins := { s.pins with aux := false, pwrGood := false, rails := 0, railFault := false, thermTrip := false, shutdown := false, memKept := false, resetDue := false }
                   i3c := ⟨none, false, 32, 32, 0, 0⟩ }
  else .refused .notEnabled

/-- PERST_ASSERT: the port enters fundamental reset, and the module is reset at the next sluice (R481); during a shutdown it has no other effect (R483). -/
def execPerstAssert (s : State) : Host.Outcome State Fault Refusal :=
  let s : State := { s with pins := { s.pins with perst := true }, m := { s.m with pci := { s.m.pci with up := false } } }
  if s.pins.pwrGood ∧ !s.pins.shutdown then .next { s with pins := { s.pins with memKept := true }, m := s.m.resetAll 3 } else .next s

/-! ## The power manager's events -/

/-- POWER_WINDOW: a 250 µs window ends with its mean and readings; the rule applies at the next sluice (R461). -/
def execPowerWindow (meanMw : Nat) (r : List (BitVec 16 × DWord)) (s : State) : Host.Outcome State Fault Refusal :=
  s.when s.pins.pwrGood (
    let m := s.m.takeReadings (r.map fun x => (x.1.toNat, x.2))
    { m with pwr := { m.pwr with readings := m.pwr.readings.set meanKey (BitVec.ofNat 64 meanMw), pendMean := m.pwr.pendMean ++ [meanMw] } })

/-- FAST_POWER_LIMIT: P_pwr is at least 4 from the next sluice on (R462). -/
def execFastPowerLimit (s : State) : Host.Outcome State Fault Refusal :=
  if s.pins.pwrGood then .next ({ s with m := { s.m with pwr := { s.m.pwr with pendFast := true } } }.latch 0x04) else .refused .notEnabled

/-- THERMAL_READING: the sensors are read; steps follow at the next sluice, alerts and a shutdown at once (R464 to R466). -/
def execThermalReading (r : List (BitVec 16 × Int)) (s : State) : Host.Outcome State Fault Refusal :=
  if !s.pins.pwrGood then .refused .notEnabled else
  let l := (r.map fun x => (x.1.toNat, x.2)).filter fun x => !s.m.sensorHeld x.1
  let m := (s.m.takeReadings (l.map fun x => (x.1, BitVec.ofInt 64 x.2))).hotBits
  let crossed := l.any fun x => match thresholds x.1 with
    | some t => decide (t.2.1 < x.2) && !s.m.above x.1 fun y => some y.2.1
    | none => false
  let trip := l.any fun x => match thresholds x.1 with
    | some t => decide (t.2.2 ≤ x.2)
    | none => false
  let m := { m with pwr := { m.pwr with pendTherm := m.pwr.pendTherm ++ [l] } }
  let m := if crossed then (m.alertAll .CQ_ALERT_CAUSE_THERMAL).raise .MC_TH_STATUS_ALERT 0 else m
  let s : State := { s with m := m }
  let s := if crossed then s.latch 0x01 else s
  .next (if trip then s.beginShutdown false else s)

/-- COARSE_POWER_REFRESH: while a polder is confidential (R423). -/
def execCoarsePowerRefresh (s : State) : Host.Outcome State Fault Refusal := s.when s.m.anyConf s.m.refreshCoarse

end Sys2Proof.Machine
end

