-- ==== Sys2Proof/Machine/Start.lean ====
section
/-! DEFINITION. The module start (13_reliability_and_recovery.md R389 to R391, 01 R24, 15 R416, 17 R466, 18 R479). -/

namespace Sys2Proof.Machine

/-! ## The ledger's decisions (R389, R390) -/

/-- Where a start stands: the steps that ran their alternate and that were skipped in part, the alternate flags for the next start, the last step begun,
whether the start ended there, and whether it was cut off. -/
structure StartRun where
  alt : Nat
  skip : Nat
  flags : Nat
  step : Nat
  halted : Bool
  cut : Bool
  deriving DecidableEq, Repr

/-- Whether a start step has an alternate (R389). -/
def stepAlt (n : Nat) : Bool := n == 1 || n == 5 || n == 6

/-- Whether a start step may be skipped as a whole (R389); step 7 is skipped per tile. -/
def stepSkips (n : Nat) : Bool := n == 5 || n == 6

/-- A bit of a number set or cleared. -/
def setBitTo (v i : Nat) (on : Bool) : Nat := if on then v ||| 2 ^ i else v - (if v.testBit i then 2 ^ i else 0)

/-- One start step (R390). `prev` is the step that failed in the previous attempt, 0 for none; `ends` says that the step's work ends the start, `cut` that PERST#
is asserted during it (R483). -/
def StartRun.next (r : StartRun) (n prev : Nat) (skipEn ends cut : Bool) : StartRun :=
  if r.halted then r else
  let r := { r with step := n }
  if n = prev ∧ stepAlt n ∧ r.flags.testBit (n - 1) then
    if stepSkips n ∧ skipEn then { r with skip := setBitTo r.skip (n - 1) true } else { r with halted := true }
  else
    let alt := decide (n = prev) && stepAlt n
    { r with alt := setBitTo r.alt (n - 1) alt, flags := setBitTo r.flags (n - 1) (alt && (ends || cut)), halted := ends || cut, cut := cut }

/-- The place of the last entry written in the ledger. -/
def Mod.lastEntry (s : Mod) : Nat := (s.rel.ledgerPos + 63) % 64

/-- The step that failed in the previous attempt, 0 for none (R390). -/
def Mod.prevFail (s : Mod) : Nat :=
  let w := (s.rd .MC_LEDGER (s.lastEntry * 4 + 1)).toNat
  if w / 256 % 256 = 0 then 0 else w % 256

/-- The eight steps of a start (R389, R390). A step whose work fails ends the start, halted at that step; one during
which PERST# is asserted ends it, cut off (R483); a start after a thermal shutdown halts at CLK while a sensor is at
its alert threshold or above (R466). -/
def State.startRun (s : State) (r : StartResult) : StartRun :=
  let prev := s.m.prevFail
  let hot := s.pins.shutdown && s.m.tooHot
  [1, 2, 3, 4, 5, 6, 7, 8].foldl (fun x n => x.next n prev (s.m.bit .MC_LEDGER_CTRL_SKIP_EN 0) (r.fails.any (fun k => k.val == n) || (n == 3 && hot))
    (r.cut.any fun k => k.val == n)) ⟨0, 0, s.m.rel.alts, 0, false, false⟩

/-- The stacks, dies and packages that a skipped step disables (R389). -/
def StartRun.hbm (x : StartRun) (r : StartResult) : Nat := if x.skip.testBit 4 then r.hbmBad.toNat else 0

/-- The dies whose stack is disabled. -/
def StartRun.dies (x : StartRun) (r : StartResult) : List Nat := [0, 1, 2, 3].filter fun d => (x.hbm r).testBit (2 * d) || (x.hbm r).testBit (2 * d + 1)

/-- The packages that are disabled. -/
def StartRun.packages (x : StartRun) (r : StartResult) : List Nat := if x.skip.testBit 5 then dedup (r.packages.map (·.val)) else []

/-- The entry of a start in the ledger (R391), and what MC_START_STATUS shows (R400). -/
def Mod.writeLedger (s : Mod) (x : StartRun) (r : StartResult) : Mod :=
  let attempt := s.rel.ledgerPos + 1
  let prev := s.prevFail
  let e := s.rel.ledgerPos % 64 * 4
  let dies := ((x.dies r).map (2 ^ ·)).sum
  let s := s.put .MC_LEDGER e (BitVec.ofNat 32 attempt)
  let s := s.put .MC_LEDGER (e + 1) (BitVec.ofNat 32 (x.step + (if x.cut then 1 else if x.halted then 2 else 0) * 256 + x.alt * 65536 + x.skip * 2 ^ 24))
  let s := s.put .MC_LEDGER (e + 2) (BitVec.ofNat 32 (x.hbm r + dies * 256 + (x.packages r).length * 65536))
  let s := s.put .MC_LEDGER (e + 3) r.ms
  let st := (if x.cut then 0 else if x.halted then 2 ^ 30 else 2 ^ 31) + attempt % 256 * 65536 + prev * 256 + x.step
  { s.put .MC_START_STATUS 0 (BitVec.ofNat 32 st) with rel := { s.rel with ledgerPos := attempt, alts := x.flags } }

/-- The ledger is copied to flash, at READY and at a halt (R390). -/
def Mod.saveLedger (s : Mod) : Mod :=
  { s with rel := { s.rel with flash := ⟨(List.range 256).foldl (fun t k => t.set k (s.rd .MC_LEDGER k)) .empty, s.rel.ledgerPos, s.rel.alts⟩ } }

/-! ## Memory and layout (R216, R220, R381, R416) -/

/-- The LPDDR package of a controller (R212), if it is one. -/
def ctlPackage (c : Nat) : Option Nat := if ctlHbm c then none else some (c / 14 * 12 + (c % 14 - 2))

/-- A start enables its controllers but for those of disabled stacks and packages (R389). -/
def Mod.enableCtls (s : Mod) (hbm : Nat) (packs : List Nat) : Mod :=
  let off (c : Nat) : Bool := match ctlPackage c with
    | some k => has packs k
    | none => hbm.testBit (c / 14 * 2 + c % 14)
  { s with mem := { s.mem with ctls := (List.range 56).foldl (fun t c => t.set c { s.mem.ctl c with disabled := off c }) s.mem.ctls } }

/-- The system area and the recovery area of a polder are placed (R219, R381). -/
def Mod.placeAreas (s : Mod) (p : Nat) : Mod :=
  let s := match s.mem.place (s.ctlList p 0 0) 0 0 (sysPages 0) with
    | some (ids, m) => { s with mem := { m with sysArea := m.sysArea ++ ids.zipIdx.map fun (x : Nat × Nat) => (p, x.2, x.1) } }
    | none => s
  match s.mem.place (s.ctlList p 1 0) 0 0 2 with
  | some (ids, m) => { s with mem := { m with recovery := m.recovery ++ ids.zipIdx.map fun (x : Nat × Nat) => (p, x.2, x.1) } }
  | none => s

/-- Device memory begins: nothing is allocated but the areas of each polder, and every other frame waits to be zeroed (R220, R416). -/
def Mod.initMemory (s : Mod) : Mod :=
  let all (t : Tbl Ctl) (f : Ctl → Ctl) : Tbl Ctl := t.map fun _ c => f c
  let m := s.mem
  let s := { s with mem := { Mod.reset.mem with ctls := all m.ctls fun c => { c with free := [(0, 65536)], zq := [] } } }
  let s := (List.range s.polders).foldl Mod.placeAreas s
  { s with mem := { s.mem with ctls := all s.mem.ctls fun c => { c with zq := c.free, free := [], zdone := 0, patrol := 0 } } }

/-- A change of the polder count discards what R416 names and binds function n to polder n mod COUNT. -/
def Mod.newLayout (s : Mod) (count : Nat) : Mod :=
  let s := s.setFld .SP_LAYOUT_COUNT 0 count
  let s := s.resetRegs fun b _ => b.own == .group || b.own == .slot
  let s := (List.range 8).foldl (fun s fn => s.setFld .SP_FUNC_BIND_POLDER fn (fn % count)) s
  { s with td := .empty, ue := Mod.reset.ue, rel := { s.rel with snaps := .empty } }

/-- SP_LAYOUT.PENDING takes effect, and device memory begins where the count changes or nothing survives (R416). -/
def Mod.startLayout (s : Mod) (hbm : Nat) (packs : List Nat) : Mod :=
  let want := s.fld .SP_LAYOUT_PENDING 0
  let change := decide (want ≠ 0 ∧ want ≠ s.polders)
  let s := s.setFld .SP_LAYOUT_PENDING 0 0
  let s := if change then s.newLayout want else s
  let fresh := s.mem.ctls.cells.isEmpty
  let s := s.enableCtls hbm packs
  if change || fresh then s.initMemory else s

/-! ## Tiles (R24, R389, R403) -/

/-- A physical tile after the start tests: failed, serving a logical number, or a spare. -/
def Mod.startTile (s : Mod) (ph : Nat) (logical : Option Nat) (failed : Bool) : Mod :=
  let s := s.put .BC_TILE_STATUS ph 0
  let s := s.setFld .BC_TILE_STATUS_FAILED ph (if failed then 1 else 0)
  let s := s.setFld .BC_TILE_STATUS_SPARE ph (if logical.isNone && !failed then 1 else 0)
  let s := s.setFld .BC_TILE_STATUS_LOGICAL ph (logical.getD 0x3F)
  match logical with
  | some l => { s with rel := { s.rel with tileMap := s.rel.tileMap.set (ph / 52 * 48 + l) (ph % 52) } }
  | none => s

/-- The tiles of a die are numbered: the lowest 48 that pass are L0 on, the rest spares (R24). A disabled die has none. -/
def Mod.startDie (s : Mod) (failed : List Nat) (d : Nat) : Mod :=
  let off := has s.rel.dieDisabled d
  let pass := if off then [] else ((List.range 52).map (d * 52 + ·)).filter fun ph => !has failed ph
  let s := (List.range 52).foldl (fun s n =>
    let ph := d * 52 + n
    let at_ := pass.idxOf ph
    s.startTile ph (if has pass ph ∧ at_ < 48 then some at_ else none) (off || has failed ph)) s
  let s := if off then s else (failed.filter fun ph => ph / 52 == d).foldl (fun s ph => s.startFail ph 0) s
  let byte := min 48 pass.length
  let w := (s.rd .HC_TILES 0).toNat
  let s := s.put .HC_TILES 0 (BitVec.ofNat 32 (w - w / 2 ^ (8 * d) % 256 * 2 ^ (8 * d) + byte * 2 ^ (8 * d)))
  ((s.put .MC_TILE_FAILED_LO d 0).put .MC_TILE_FAILED_HI d 0).countSpares d

/-- Tiles after the start's tests. -/
def Mod.startTiles (s : Mod) (tiles : List (Fin 4 × Fin 52)) : Mod :=
  let failed := dedup (tiles.map fun x => x.1.val * 52 + x.2.val)
  let off (ph : Nat) : Bool := has s.rel.dieDisabled (ph / 52)
  let s := { s with rel := { s.rel with tileMap := .empty, spareTest := [], passStart := .empty
                                        tileBad := failed ++ ((List.range 208).filter fun ph => off ph && !has failed ph) } }
  let s := [0, 1, 2, 3].foldl (fun s d => s.startDie failed d) s
  { s with rel := { s.rel with tilesUp := s.rd .HC_TILES 0 } }

/-! ## READY -/

/-- The host port after a start (R492): the link is up, and the configuration state of every function is at reset. -/
def Port8.started : Port8 := { Mod.reset.pci with up := true }

/-- The start has reached READY. -/
def State.ready (s : State) (x : StartRun) (r : StartResult) : State :=
  let m := s.m
  let m := { m with rel := { m.rel with dieDisabled := x.dies r } }
  let m := m.startLayout (x.hbm r) (x.packages r)
  let m := m.startTiles r.tiles
  let m := (List.range m.polders).foldl Mod.leaveConf m
  let m := m.setFld .SP_DEBUG_SCAN_FUSE 0 (if s.fuse.scanBlown then 1 else 0)
  let m := { m with pci := .started }
  let m := (List.range 32).foldl (fun (m : Mod) l => if m.bit .ZL_CTRL_ENABLE l then m.beginTraining l else m) m
  let m := m.closeReset ((m.rel.resets.find? (·.kind == 5)).getD ⟨5, 0, 0, 3, []⟩)
  ({ s with m := m, pins := { s.pins with perst := false, memKept := false } } : State).latch 0x20

/-- Whether a start may run: the rails are up, PERST# is let go or the module is in reset, and a shutdown waits for PERST# (R389, R466, R481). -/
def State.mayStart (s : State) : Bool :=
  s.pins.pwrGood && (s.pins.perst || s.m.rel.resets.any (·.kind == 5)) && !s.m.rel.asked.any (·.kind == 5) && (s.pins.perst || !s.pins.shutdown)

/-- A start's effect (R389 to R391). One that PERST# cuts off leaves the module in reset (R483). A shutdown's hold ends with step CLK (R466), and THERMTRIP# is let go past step HUB (R491). -/
def State.start (s : State) (r : StartResult) : State :=
  let x := s.startRun r
  let past (n : Nat) : Bool := decide (n < x.step) || (x.step == n && !x.halted)
  let pins := s.pins
  let pins := if past 3 then { pins with shutdown := false } else pins
  let pins := if past 4 then { pins with thermTrip := false, straps := r.straps.toNat } else pins
  let m := s.m.writeLedger x r
  let m := if x.cut then m else m.saveLedger
  let slot := r.straps.toNat
  let m := if past 4 then { (m.setFld .ZL_NODE_SLOT 0 slot).setFld .ZL_NODE_NODE 0 (nodeOf slot) with rel := { m.rel with slot := slot } } else m
  -- PERST# is let go: EXTEST, CLAMP and HIGHZ end, and need a new load (R505)
  let s : State := { s with m := m, pins := pins, tap := if 3 ≤ s.tap.ir ∧ s.tap.ir ≤ 5 then { s.tap with ir := 0xFF } else s.tap }
  if x.cut then { s with m := { m with pci := { m.pci with up := false } }, pins := { s.pins with perst := true } }
  else if x.halted then
    let m := { m with pci := { m.pci with up := true }, rel := { m.rel with resets := m.rel.resets.filter fun y => y.kind != 5 } }
    ({ s with m := m, pins := { s.pins with perst := false } } : State).latch 0x10
  else s.ready x r

/-- MODULE_START (R389). -/
def execModuleStart (r : StartResult) (s : State) : Host.Outcome State Fault Refusal :=
  if s.mayStart then .next (s.start r) else .refused .notEnabled

end Sys2Proof.Machine
end

