-- ==== Sys2Proof/Machine/I3c.lean ====
section
/-! DEFINITION. The management bus target: private commands and common command codes (18_pins_and_electrical.md R498 to R503). -/

namespace Sys2Proof.Machine

/-! ## Private commands (R500) -/

/-- The status bytes of R500. -/
def i3cOk : Byte := 0
/-- LENGTH. -/
def i3cLength : Byte := 2
/-- RANGE. -/
def i3cRange : Byte := 3

/-- Whether the target answers: auxiliary power is up, and it has a dynamic address (R499). -/
def State.onBus (s : State) : Bool := s.pins.aux && s.i3c.addr.isSome

/-- A response, no longer than the maximum read length. -/
def State.respond (s : State) (data : List Byte) : State := { s with m := s.m.emit (.i3c (data.take s.i3c.mrl)) }

/-- A private command of n argument bytes: nothing hears it off the bus, and a wrong length is LENGTH; else its effect, then its status and response. -/
def State.i3cCmd (s : State) (args : List Byte) (n : Nat) (f : Nat → State × Byte × List Byte) : Host.Outcome State Fault Refusal :=
  if !s.onBus then .next s
  else if args.length ≠ n then .next (s.respond [i3cLength])
  else
    let r := f (leNat args)
    .next (r.1.respond (r.2.1 :: r.2.2))

/-- A sensor's answer on the bus (R501): without input power or PWR_GOOD only the management controller's own sensor, packages and stacks have one. -/
def State.busSensor (s : State) (k : Nat) : DWord :=
  if (s.pins.volt = .absent ∨ !s.pins.pwrGood) ∧ !(k = 3 ∨ 0x30 ≤ k ∧ k ≤ 0x6F) then noReading else s.m.sensor k

/-- READ_SENSOR (R500, R501). -/
def execReadSensor (args : List Byte) (s : State) : Host.Outcome State Fault Refusal :=
  s.i3cCmd args 2 fun k => (s, i3cOk, leBytes (s.busSensor k).toNat 8)

/-- The rail word: rails in regulation, and RAIL_FAULT in bit 15 (R500). -/
def Pins.railWord (p : Pins) : Nat := p.rails + (if p.railFault then 2 ^ 15 else 0)

/-- READ_STATUS (R500). -/
def execReadStatus (args : List Byte) (s : State) : Host.Outcome State Fault Refusal :=
  s.i3cCmd args 0 fun _ => (s, i3cOk,
    [(s.m.rd .MC_START_STATUS 0).toNat, (s.m.rd .MC_TH_STATUS 0).toNat, s.m.pwrStatus.toNat, (s.m.rd .MC_RESET_STATUS 0).toNat, s.pins.railWord].flatMap fun v => leBytes v 4)

/-- SET_CAP: the bus cap, clamped when it is set (R503). -/
def execSetCap (args : List Byte) (s : State) : Host.Outcome State Fault Refusal :=
  s.i3cCmd args 2 fun w => ({ s with m := { s.m with pwr := { s.m.pwr with askBus := some (clampCap w) } } }, i3cOk, [])

/-- READ_CAP: the bus cap last set, and the effective cap (R500, R503). -/
def execReadCap (args : List Byte) (s : State) : Host.Outcome State Fault Refusal :=
  s.i3cCmd args 0 fun _ => (s, i3cOk, leBytes (s.m.pwr.askBus.getD s.m.pwr.capBus) 2 ++ leBytes s.m.pwr.cap 2)

/-- READ_LEDGER: an entry of R391; an index above 63 is RANGE. -/
def execReadLedger (args : List Byte) (s : State) : Host.Outcome State Fault Refusal :=
  s.i3cCmd args 1 fun e => if 63 < e then (s, i3cRange, [])
    else (s, i3cOk, [0, 1, 2, 3].flatMap fun w => leBytes (s.m.rd .MC_LEDGER (e * 4 + w)).toNat 4)

/-- READ_ID: HC_ID, HC_CONTRACT, SERIAL (R500). -/
def execReadId (args : List Byte) (s : State) : Host.Outcome State Fault Refusal :=
  s.i3cCmd args 0 fun _ => (s, i3cOk,
    leBytes (s.m.rd .HC_ID 0).toNat 4 ++ leBytes (s.m.rd .HC_CONTRACT 0).toNat 4 ++ leBytes s.fuse.serial.toNat 16)

/-- ALERT_READ (R502). -/
def execAlertRead (args : List Byte) (s : State) : Host.Outcome State Fault Refusal :=
  s.i3cCmd args 0 fun _ => (s, i3cOk, [BitVec.ofNat 8 s.i3c.alert])

/-- ALERT_CLEAR (R502). -/
def execAlertClear (args : List Byte) (s : State) : Host.Outcome State Fault Refusal :=
  s.i3cCmd args 1 fun b => ({ s with i3c := { s.i3c with alert := s.i3c.alert &&& (0xFF - b) } }, i3cOk, [])

/-- ALERT_MASK: masks act on MOD_ALERT# and the interrupt alone (R502). -/
def execAlertMask (args : List Byte) (s : State) : Host.Outcome State Fault Refusal :=
  s.i3cCmd args 1 fun b => ({ s with i3c := { s.i3c with mask := b } }, i3cOk, [])

/-! ## Common command codes (R498, R499) -/

/-- A common command code: nothing hears it without auxiliary power. -/
def State.ccc (s : State) (hears : Bool) (f : State) : Host.Outcome State Fault Refusal := .next (if s.pins.aux && hears then f else s)

/-- Whether a code directed at an address, or broadcast, reaches the target. -/
def I3c.hears (c : I3c) (addr : Option (BitVec 7)) : Bool :=
  match addr with
  | none => true
  | some a => c.addr == some a.toNat

/-- The Provisional ID: manufacturer, part 0x4801, instance the slot, the rest open (R498; log entry 48). -/
def State.pid (s : State) : List Byte :=
  msbBytes (Config.identity 1 % 2 ^ 15 * 2 ^ 33 + 0x4801 * 2 ^ 16 + s.pins.straps % 16 * 2 ^ 12 + Config.identity 2 % 2 ^ 12) 6

/-- The bus characteristics: in-band interrupts with a data byte, GETMXDS supported, no HDR (R498; log entry 48). -/
def i3cBcr : Byte := 7

/-- The device characteristics; the code is open (log entry 48). -/
def i3cDcr : Byte := BitVec.ofNat 8 (Config.identity 3)

/-- A directed read of a code: the target answers with data. -/
def State.cccRead (s : State) (addr : BitVec 7) (data : List Byte) : Host.Outcome State Fault Refusal :=
  s.ccc (s.i3c.hears (some addr)) { s with m := s.m.emit (.i3c data) }

/-- ENTDAA: a target without a dynamic address takes one, answering with its identity (R499). -/
def execEntdaa (addr : BitVec 7) (s : State) : Host.Outcome State Fault Refusal :=
  s.ccc s.i3c.addr.isNone { s with i3c := { s.i3c with addr := some addr.toNat }, m := s.m.emit (.i3c (s.pid ++ [i3cBcr, i3cDcr])) }

/-- SETDASA: a dynamic address by way of the static address 0x30 + slot, for slots 0 to 8 (R499). -/
def execSetdasa (old addr : BitVec 7) (s : State) : Host.Outcome State Fault Refusal :=
  s.ccc (s.i3c.addr.isNone && decide (s.pins.straps ≤ 8) && old.toNat == 0x30 + s.pins.straps) { s with i3c := { s.i3c with addr := some addr.toNat } }

/-- RSTDAA: the dynamic address is given up (R498). -/
def execRstdaa (s : State) : Host.Outcome State Fault Refusal := s.ccc true { s with i3c := { s.i3c with addr := none } }

/-- SETNEWDA: another dynamic address (R498). -/
def execSetnewda (old addr : BitVec 7) (s : State) : Host.Outcome State Fault Refusal :=
  s.ccc (s.i3c.hears (some old)) { s with i3c := { s.i3c with addr := some addr.toNat } }

/-- GETPID (R498). -/
def execGetpid (addr : BitVec 7) (s : State) : Host.Outcome State Fault Refusal := s.cccRead addr s.pid

/-- GETBCR (R498). -/
def execGetbcr (addr : BitVec 7) (s : State) : Host.Outcome State Fault Refusal := s.cccRead addr [i3cBcr]

/-- GETDCR (R498). -/
def execGetdcr (addr : BitVec 7) (s : State) : Host.Outcome State Fault Refusal := s.cccRead addr [i3cDcr]

/-- GETSTATUS: no interrupt is pending, since one is sent as it arises, and no protocol error (R498; log entry 48). -/
def execGetstatus (addr : BitVec 7) (s : State) : Host.Outcome State Fault Refusal := s.cccRead addr (msbBytes 0 2)

/-- ENEC: bit 0 enables in-band interrupts (R498, R502). -/
def execEnec (addr : Option (BitVec 7)) (bits : Byte) (s : State) : Host.Outcome State Fault Refusal :=
  s.ccc (s.i3c.hears addr && bits.getLsbD 0) { s with i3c := { s.i3c with ibi := true } }

/-- DISEC: bit 0 disables in-band interrupts (R498). -/
def execDisec (addr : Option (BitVec 7)) (bits : Byte) (s : State) : Host.Outcome State Fault Refusal :=
  s.ccc (s.i3c.hears addr && bits.getLsbD 0) { s with i3c := { s.i3c with ibi := false } }

/-- GETMRL: the maximum read length, and one interrupt byte (R498; log entry 48). -/
def execGetmrl (addr : BitVec 7) (s : State) : Host.Outcome State Fault Refusal := s.cccRead addr (msbBytes s.i3c.mrl 2 ++ [1])

/-- SETMRL: a maximum read length, 32 at most (R498). -/
def execSetmrl (addr : Option (BitVec 7)) (len : BitVec 16) (s : State) : Host.Outcome State Fault Refusal :=
  s.ccc (s.i3c.hears addr) { s with i3c := { s.i3c with mrl := min 32 len.toNat } }

/-- GETMWL: the maximum write length (R498). -/
def execGetmwl (addr : BitVec 7) (s : State) : Host.Outcome State Fault Refusal := s.cccRead addr (msbBytes s.i3c.mwl 2)

/-- SETMWL: a maximum write length, 32 at most (R498). -/
def execSetmwl (addr : Option (BitVec 7)) (len : BitVec 16) (s : State) : Host.Outcome State Fault Refusal :=
  s.ccc (s.i3c.hears addr) { s with i3c := { s.i3c with mwl := min 32 len.toNat } }

/-- GETMXDS: 12.5 MHz in both directions, coded 0 (R498; log entry 48). -/
def execGetmxds (addr : BitVec 7) (s : State) : Host.Outcome State Fault Refusal := s.cccRead addr [0, 0]

/-- RSTACT: a peripheral reset (1) resets the target logic alone; a whole-target reset is refused (R498). -/
def execRstact (addr : Option (BitVec 7)) (kind : Byte) (s : State) : Host.Outcome State Fault Refusal :=
  s.ccc (s.i3c.hears addr && kind == 1) { s with i3c := { s.i3c with addr := none, ibi := false, mwl := 32, mrl := 32 } }

end Sys2Proof.Machine
end

