-- ==== Sys2Proof/Machine/Tap.lean ====
section
/-! DEFINITION. The test access port: instructions, the boundary register, and the instruments behind IJTAG (18_pins_and_electrical.md R504, R505, 14 R412, R413). -/

namespace Sys2Proof.Machine

/-! ## Pins (R505) -/

/-- The level at a sideband pin by its place in R505, as the module and its board leave it: the joined FRAME_SYNC net is low while the module holds it low (R59, R485), and has
no level that the module knows while it does not; the bus lines have none between events (log entry 49). MOD_ALERT# follows the alert byte in every condition (log entry 84). -/
def State.level (s : State) (i : Nat) : Option Bool :=
  match i with
  | 0 => some (!s.pins.perst)
  | 1 => some s.pins.pwrEn
  | 2 => some s.pins.pwrGood
  | 3 | 4 => if s.m.fc.syncLow then some false else none
  | 7 => some (!s.modAlert)
  | 8 => some (!s.pins.thermTrip)
  | 9 | 10 | 11 | 12 => some (s.pins.straps.testBit (i - 9))
  | _ => none

/-- Whether an instruction of R505 that acts on the pins is in force: it was loaded while PERST# was asserted, and PERST# still is. -/
def State.tapHolds (s : State) : Bool := s.pins.aux && s.pins.perst && decide (3 ≤ s.tap.ir ∧ s.tap.ir ≤ 5)

/-- Whether the module can drive a pin (R472): PWR_GOOD, FRAME_SYNC_OUT, the bus lines, MOD_ALERT# and THERMTRIP#. -/
def pinOutput (i : Nat) : Bool := i == 2 || (decide (4 ≤ i) && decide (i ≤ 8))

/-- The open-drain outputs (R472): FRAME_SYNC_OUT, MOD_ALERT# and THERMTRIP#. -/
def pinOpenDrain (i : Nat) : Bool := i == 4 || i == 7 || i == 8

/-- What the module drives at an output pin: nothing without auxiliary power (R475); from the boundary register under EXTEST and CLAMP, nothing under HIGHZ, else its function; an
open-drain pin is only driven low (R505). -/
def State.drives (s : State) (i : Nat) : Option Bool :=
  if !pinOutput i || !s.pins.aux then none
  else
    let data := s.tap.boundary.getLsbD (3 * i + 1)
    let v := if s.tapHolds then (if s.tap.ir = 5 ∨ !s.tap.boundary.getLsbD (3 * i + 2) then none else some data) else s.level i
    if pinOpenDrain i && v == some true then none else v

/-- What the boundary register captures: the levels, and the output cells' data; what has no level is open. -/
def State.captured (s : State) : Nat :=
  let open_ := Config.freeNat s.m.io.free
  ((List.range 39).map fun c =>
    let b : Bool := match (if c % 3 = 0 then s.level (c / 3) else none) with
      | some v => v
      | none => open_.testBit c
    cond b (2 ^ c) 0).sum

/-! ## Instructions (R504, R505) -/

/-- An instruction is loaded: the register captures 0b0000_0001 on the way. -/
def State.loadIr (s : State) (code : Nat) : Host.Outcome State Fault Refusal :=
  .next (if s.pins.aux then { s with tap := { s.tap with ir := code }, m := s.m.emit (.tdo 1 8) } else s)

/-- One that acts on the pins selects BYPASS while PERST# is deasserted (R505). -/
def State.loadPinIr (s : State) (code : Nat) : Host.Outcome State Fault Refusal := s.loadIr (if s.pins.perst then code else 0xFF)

/-- EXTEST (R505). -/
def execExtest (s : State) : Host.Outcome State Fault Refusal := s.loadPinIr 3

/-- SAMPLE/PRELOAD: the boundary register captures the pins and takes what is shifted in (R504). -/
def execSamplePreload (load : BitVec 39) (s : State) : Host.Outcome State Fault Refusal :=
  if s.pins.aux then
    .next { s with tap := ⟨2, load⟩, m := ((s.m.emit (.tdo 1 8)).emit (.tdo s.captured 39)).bump }
  else .next s

/-- The IDCODE register (R504). -/
def idcodeWord : Nat := 1 * 2 ^ 28 + 0x4801 * 2 ^ 12 + Config.identity 0 % 2 ^ 11 * 2 + 1

/-- IDCODE (R504). -/
def execIdcode (s : State) : Host.Outcome State Fault Refusal :=
  .next (if s.pins.aux then { s with tap := { s.tap with ir := 1 }, m := (s.m.emit (.tdo 1 8)).emit (.tdo idcodeWord 32) } else s)

/-- CLAMP (R505). -/
def execClamp (s : State) : Host.Outcome State Fault Refusal := s.loadPinIr 4

/-- HIGHZ (R505). -/
def execHighz (s : State) : Host.Outcome State Fault Refusal := s.loadPinIr 5

/-- IJTAG (R504). -/
def execIjtag (s : State) : Host.Outcome State Fault Refusal := s.loadIr 0x10

/-- BYPASS (R504). -/
def execBypass (s : State) : Host.Outcome State Fault Refusal := s.loadIr 0xFF

/-- TAP_RESET: IDCODE is the instruction after a TAP reset (R504). -/
def execTapReset (s : State) : Host.Outcome State Fault Refusal := .next (if s.pins.aux then { s with tap := { s.tap with ir := 1 } } else s)

/-! ## Instruments (R412, R413) -/

/-- Whether a segment answers: IJTAG is selected, the rails are up, and for a die its clock runs (R505). -/
def State.segment (s : State) (d : Option Nat) : Bool :=
  s.pins.pwrGood && match d with
    | some d => !s.m.dieDown d
    | none => true

/-- An access of an instrument: nothing while IJTAG is not selected; zeros of a segment that does not answer, or of one that R413 locks. `open_` instruments other than
BC_RESULT and PPR_STATUS set JTAG_OPEN and are locked while a polder is confidential. -/
def State.instrument (s : State) (d : Option Nat) (other : Bool) (len : Nat) (f : Mod → Mod × Nat) : Host.Outcome State Fault Refusal :=
  if !s.pins.aux ∨ s.tap.ir ≠ 0x10 then .next s
  else if !s.segment d then .next { s with m := s.m.emit (.tdo 0 len) }
  else
    let m := if other then s.m.raiseNow .SP_DEBUG_JTAG_OPEN 0 else s.m
    if other && m.anyConf then .next { s with m := m.emit (.tdo 0 len) }
    else
      let r := f m
      .next { s with m := r.1.emit (.tdo r.2 len) }

/-- The registers of R414 of a die, in the order of their addresses; its counts of slices are coarse in a confidential polder (R422). -/
def Mod.selfTestWords (s : Mod) (d : Nat) : List Word :=
  [RegName.BC_CTRL, .BC_FIRST_FAIL, .BC_FAIL_ADDR, .BC_FAIL_FRAME_LO, .BC_FAIL_FRAME_HI].map (fun r => s.rd r d)
    ++ [RegName.BC_SLICES_DONE, .BC_SLICES_FAILED].map (fun r => s.counterReg (s.dieOf d) r d (s.rd r d)) ++ [s.rd .BC_STARVED d]
    ++ (List.range 52).map fun t => s.rd .BC_TILE_STATUS (d * 52 + t)

/-- BC_RESULT (R413). -/
def execBcResult (d : Fin 4) (s : State) : Host.Outcome State Fault Refusal :=
  s.instrument (some d) false (32 * 60) fun m => (m, (m.selfTestWords d).foldr (fun w v => w.toNat + 2 ^ 32 * v) 0)

/-- PPR_STATUS: what it holds is open (R413; log entry 49). -/
def execPprStatus (d : Fin 4) (s : State) : Host.Outcome State Fault Refusal :=
  s.instrument (some d) false 32 fun m => (m.bump, Config.freeNat m.io.free % 2 ^ 32)

/-- MISR_READ: the signature registers of the die's physical tiles; the signatures are open (R405, R413; log entry 49). -/
def execMisrRead (d : Fin 4) (s : State) : Host.Outcome State Fault Refusal :=
  s.instrument (some d) true (32 * 52) fun m => (m.bump, Config.freeNat m.io.free % 2 ^ (32 * 52))

/-- Scan is enabled: keys withdrawn, hub SRAM and buffers zeroed, SCAN_USED set, and functional operation ends (R412). -/
def Mod.enterScan (s : Mod) : Mod :=
  let s := (List.range 4).foldl Mod.withdraw s
  let s := s.dropHub s.fc.num
  let s := s.raiseNow .SP_DEBUG_SCAN_USED 0
  { s with sec := { s.sec with stage := [], sessions := [], ide := [], imports := [], scan := true }, pci := { s.pci with up := false } }

/-- SCAN_EN: refused where the fuse is blown (R412), locked while a polder is confidential (R413). -/
def execScanEn (s : State) : Host.Outcome State Fault Refusal :=
  s.instrument none true 1 fun m => if s.fuse.scanBlown then (m, 0) else (m.enterScan, 0)

end Sys2Proof.Machine
end

