-- ==== Sys2Proof/Machine/Security.lean ====
section
/-! DEFINITION. The SPDM responder, weight keys, IDE streams and confidential mode (15_security_and_polders.md R419 to R427, R431). -/

namespace Sys2Proof.Machine

/-! ## The responder (R424) -/

/-- A response of the security processor in a function's mailbox. The bytes that SPDM 1.3 gives it are open (log entry 9). -/
def Mod.spdmReply (s : Mod) (fn code : Nat) (msg : List Byte) : Mod := (s.emit (.spdm fn (Config.spdmResponse code msg s.io.free))).bump

/-- An SPDM request of a function: the mailbox is in configuration space, so the port must be up. -/
def State.spdm (s : State) (f : Mod) : Host.Outcome State Fault Refusal := s.when s.m.pci.up f

/-- Whether a function has negotiated a connection. -/
def Mod.negotiated (s : Mod) (fn : Nat) : Bool := has s.sec.negotiated fn

/-- A function's session. -/
def Mod.session (s : Mod) (fn n : Nat) : Option Session := s.sec.sessions.find? fun x => x.fn == fn && x.num == n

/-- Whether a session is established. -/
def Mod.inSession (s : Mod) (fn n : Nat) : Bool := (s.session fn n).any (·.established)

/-- The code of an ERROR response. -/
def spdmError : Nat := 0x7F

/-- A request that needs a negotiated connection; without one the answer is an error. -/
def Mod.connected (s : Mod) (fn code : Nat) (msg : List Byte) : Mod := s.spdmReply fn (if s.negotiated fn then code else spdmError) msg

/-- A request that needs an established session. -/
def Mod.secured (s : Mod) (fn n code : Nat) (msg : List Byte) (f : Mod → Mod) : Mod :=
  if s.inSession fn n then (f s).spdmReply fn code msg else s.spdmReply fn spdmError msg

/-- GET_VERSION: a connection begins again; sessions stay (R424; log entry 50). -/
def execGetVersion (f : Fin 8) (msg : List Byte) (s : State) : Host.Outcome State Fault Refusal :=
  s.spdm ({ s.m with sec := { s.m.sec with negotiated := s.m.sec.negotiated.filter (· != f.val) } }.spdmReply f 0x84 msg)

/-- GET_CAPABILITIES (R424). -/
def execGetCapabilities (f : Fin 8) (msg : List Byte) (s : State) : Host.Outcome State Fault Refusal := s.spdm (s.m.spdmReply f 0xE1 msg)

/-- NEGOTIATE_ALGORITHMS (R424). -/
def execNegotiateAlgorithms (f : Fin 8) (msg : List Byte) (s : State) : Host.Outcome State Fault Refusal :=
  s.spdm ({ s.m with sec := { s.m.sec with negotiated := addOnce s.m.sec.negotiated f.val } }.spdmReply f 0xE3 msg)

/-- GET_DIGESTS (R424). -/
def execGetDigests (f : Fin 8) (msg : List Byte) (s : State) : Host.Outcome State Fault Refusal := s.spdm (s.m.connected f 0x81 msg)

/-- GET_CERTIFICATE (R424). -/
def execGetCertificate (f : Fin 8) (msg : List Byte) (s : State) : Host.Outcome State Fault Refusal := s.spdm (s.m.connected f 0x82 msg)

/-- CHALLENGE (R424). -/
def execChallenge (f : Fin 8) (msg : List Byte) (s : State) : Host.Outcome State Fault Refusal := s.spdm (s.m.connected f 0x83 msg)

/-- What a measurement index holds (R424): firmware digests 1 to 4, and the report body of R425 at 0xF0. -/
def State.measurement (s : State) (index : Nat) (nonce : List Byte) : Option (List Byte) :=
  if 1 ≤ index ∧ index ≤ 4 then some (digestBytes (Config.firmware index))
  else if index = 0xF0 then some (s.m.reportBody s.fuse nonce s.m.fc.num)
  else none

/-- GET_MEASUREMENTS: the measurement, then the signature over the transcript; index 0xF0 in a session marks it measured (R424 to R426). -/
def execGetMeasurements (f : Fin 8) (session : Option (Fin 4)) (index : Byte) (nonce : List Byte) (s : State) : Host.Outcome State Fault Refusal :=
  let may := match session with
    | some n => s.m.inSession f n
    | none => s.m.negotiated f
  match s.measurement index.toNat nonce, may with
  | some body, true =>
    let mark (x : Session) : Session := if session.any (fun n => n.val == x.num) && x.fn == f.val && index == 0xF0 then { x with measured := true } else x
    let m := { s.m with sec := { s.m.sec with sessions := s.m.sec.sessions.map mark } }
    s.spdm ((m.emit (.spdm f (body ++ Config.spdmResponse 0x60 body m.io.free))).bump)
  | _, _ => s.spdm (s.m.spdmReply f spdmError nonce)

/-- The lowest number of a session that a function does not use: four at most (R424). -/
def Mod.freeSession (s : Mod) (fn : Nat) : Option Nat := [0, 1, 2, 3].find? fun n => (s.session fn n).isNone

/-- KEY_EXCHANGE: a session begins (R424). -/
def execKeyExchange (f : Fin 8) (msg : List Byte) (s : State) : Host.Outcome State Fault Refusal :=
  s.spdm (match s.m.freeSession f, s.m.negotiated f with
    | some n, true => { s.m with sec := { s.m.sec with sessions := s.m.sec.sessions ++ [Session.mk f.val n false false 0] } }.spdmReply f 0x64 msg
    | _, _ => s.m.spdmReply f spdmError msg)

/-- A session ends. -/
def Mod.dropSession (s : Mod) (fn n : Nat) : Mod :=
  { s with sec := { s.sec with sessions := s.sec.sessions.filter fun x => !(x.fn == fn && x.num == n) } }

/-- FINISH: the session is established where the message verifies, and dropped where it does not (R424; log entry 50). -/
def execFinish (f : Fin 8) (session : Fin 4) (msg : List Byte) (s : State) : Host.Outcome State Fault Refusal :=
  let n := s.m.io.free
  s.spdm (match s.m.session f session with
    | some x =>
      if x.established then s.m.spdmReply f spdmError msg
      else if Config.spdmVerifies 0xE5 msg n then
        let up (y : Session) : Session := if y == x then { y with established := true } else y
        { s.m with sec := { s.m.sec with sessions := s.m.sec.sessions.map up } }.spdmReply f 0x65 msg
      else (s.m.dropSession f session).spdmReply f spdmError msg
    | none => s.m.spdmReply f spdmError msg)

/-- END_SESSION (R424). -/
def execEndSession (f : Fin 8) (session : Fin 4) (msg : List Byte) (s : State) : Host.Outcome State Fault Refusal :=
  s.spdm (s.m.secured f session 0x6C msg fun m => m.dropSession f session)

/-- HEARTBEAT (R424). -/
def execHeartbeat (f : Fin 8) (session : Fin 4) (msg : List Byte) (s : State) : Host.Outcome State Fault Refusal :=
  s.spdm (s.m.secured f session 0x68 msg id)

/-- The next generation of a session's keys is in force. -/
def Mod.updateKeys (s : Mod) (fn n : Nat) : Mod :=
  { s with sec := { s.sec with sessions := s.sec.sessions.map fun x => if x.fn == fn && x.num == n then { x with keys := x.keys + 1 } else x } }

/-- KEY_UPDATE (R424): the session goes on under its next keys. -/
def execKeyUpdate (f : Fin 8) (session : Fin 4) (msg : List Byte) (s : State) : Host.Outcome State Fault Refusal :=
  s.spdm (s.m.secured f session 0x69 msg fun m => m.updateKeys f session)

/-! ## Weight keys (R426, R427) -/

/-- A vendor-defined request's body as its fields: polder, slot, identifier, key, digest; none where it is malformed. -/
def keyRequest (op : Nat) (body : List Byte) : Option (Nat × Nat × Word × List Byte × List Byte) :=
  let b (i : Nat) : Nat := (body.getD i 0).toNat
  let key := (body.drop 8).take 32
  if body.length ≠ 92 ∨ b 0 ≠ op ∨ 15 < b 2 ∨ b 3 ≠ 0 ∨ (body.drop 88).any (· != 0) ∨ (op ≠ 1 ∧ key.any (· != 0)) then none
  else some (b 1, b 2, BitVec.ofNat 32 (leNat ((body.drop 4).take 4)), key, (body.drop 40).take 48)

/-- The four bytes of a reply: the result, and the mask of key slots that the polder holds (R426; log entry 51). -/
def Mod.keyReply (s : Mod) (fn result p : Nat) : Mod := s.emit (.spdm fn (BitVec.ofNat 8 result :: leBytes (if p < 4 then s.heldKeys p else 0) 3))

/-- A key change, effective at the frame's sluice (R427). -/
def Mod.stageKey (s : Mod) (p k : Nat) (key : Option Key) : Mod := { s with sec := { s.sec with stage := s.sec.stage ++ [(p * 16 + k, key)] } }

/-- The result of a RELEASE, 0 for accepted (R426): its conditions in the order of the rule. -/
def State.releaseResult (s : State) (fn n p : Nat) (digest : List Byte) : Nat :=
  let m := s.m
  if m.polderOf fn ≠ p then 1
  else if !(m.session fn n).any (·.measured) then 2
  else if !m.conf p || m.bit .SP_CONF_OFF_PENDING p then 3
  else if m.bit .SP_DEBUG_SCAN_USED 0 then 5
  else if digest ≠ digestBytes (m.reportDigest s.fuse) then 4
  else 0

/-- A vendor-defined request in a session. -/
def State.vendor (s : State) (fn n op : Nat) (body : List Byte) (f : Nat → Nat → Word → List Byte → List Byte → Mod) : Host.Outcome State Fault Refusal :=
  s.spdm (
    if !s.m.inSession fn n then s.m.spdmReply fn spdmError body
    else match keyRequest op body with
      | none => s.m.keyReply fn 6 4
      | some (p, k, id, key, digest) => f p k id key digest)

/-- RELEASE (R426). -/
def execRelease (f : Fin 8) (session : Fin 4) (body : List Byte) (s : State) : Host.Outcome State Fault Refusal :=
  s.vendor f session 1 body fun p k id key digest =>
    let r := s.releaseResult f session p digest
    if r = 0 then (s.m.stageKey p k (some ⟨id, key⟩)).keyReply f 0 p else s.m.keyReply f r p

/-- REVOKE (R426). -/
def execRevoke (f : Fin 8) (session : Fin 4) (body : List Byte) (s : State) : Host.Outcome State Fault Refusal :=
  s.vendor f session 2 body fun p k _ _ _ =>
    if s.m.polderOf f = p then (s.m.stageKey p k none).keyReply f 0 p else s.m.keyReply f 1 p

/-- QUERY (R426). -/
def execQuery (f : Fin 8) (session : Fin 4) (body : List Byte) (s : State) : Host.Outcome State Fault Refusal :=
  s.vendor f session 3 body fun p _ _ _ _ => s.m.keyReply f (if s.m.polderOf f = p then 0 else 1) p

/-- The key changes of the frame take effect; one that takes a key away is a withdrawal (R427). -/
def Mod.applyKeys (s : Mod) : Mod :=
  let one (s : Mod) (x : Nat × Option Key) : Mod :=
    let s := if (s.sec.keys.get x.1).isSome then s.raiseNow .SP_CONF_KEY_WITHDRAWN (x.1 / 16) else s
    { s with sec := { s.sec with keys := match x.2 with
        | some k => s.sec.keys.set x.1 k
        | none => s.sec.keys.del x.1 } }
  let s' := s.sec.stage.foldl one s
  { s' with sec := { s'.sec with stage := [] } }

/-! ## IDE (R431) -/

/-- IDE_KM in a session on F0: a stream's keys start or stop protecting the host path. -/
def State.ideKm (s : State) (f : Nat) (n : Nat) (code : Nat) (stream : Nat) (on : Bool) : Host.Outcome State Fault Refusal :=
  let msg : List Byte := [BitVec.ofNat 8 stream]
  s.spdm (if f = 0 then s.m.secured f n code msg fun m =>
      { m with sec := { m.sec with ide := if on then addOnce m.sec.ide stream else m.sec.ide.filter (· != stream) } }
    else s.m.spdmReply f spdmError msg)

/-- K_SET_GO (R431). -/
def execKSetGo (f : Fin 8) (session : Fin 4) (stream : Fin 9) (s : State) : Host.Outcome State Fault Refusal := s.ideKm f session 0x7E stream true

/-- K_SET_STOP (R431). -/
def execKSetStop (f : Fin 8) (session : Fin 4) (stream : Fin 9) (s : State) : Host.Outcome State Fault Refusal := s.ideKm f session 0x7E stream false

/-! ## Confidential mode (R420) -/

/-- Confidential mode begins in a polder at a sluice: breakpoints go, halted cores go on, capture stops, and a debug command that executes ends with ABORTED. -/
def Mod.enterConf (s : Mod) (p f : Nat) : Mod :=
  if s.conf p then s.setFld .SP_CONF_OFF_PENDING p 0 else
  let s := if s.anyConf then s else s.refreshCoarse
  let s := s.setFld .SP_CONF_CONF p 1
  let s := { s with ob := { s.ob with brks := s.ob.brks.filter fun k _ => k / 8 != p
                                      halted := s.ob.halted.filter fun h => h.key / 8 != p
                                      hits := s.ob.hits.filter fun k => k / 8 != p } }
  let s := s.stopTrace p true
  let debug (c : Cmd) : Bool := !c.mgmt && c.pol == p && c.phase == .running && c.opcode / 4096 == 0xF
  s.endCmds debug 0xF0 f

end Sys2Proof.Machine
end

