-- ==== Sys2Proof/Machine/View.lean ====
section
/-! DEFINITION. What a BAR0 read returns: views of registers that follow other state, shadow values of TX registers, coarsened counters, latched pairs
(00_scope.md R13, R17; 02 R52; 15 R422). -/

namespace Sys2Proof.Machine

/-! ## Places in BAR0 -/

/-- The 64-bit quantities of BAR0, each by its low and its high register (R17). -/
def regPairs : List (RegName × RegName) :=
  [(.CQ_RING_LO, .CQ_RING_HI), (.CQ_CPL_LO, .CQ_CPL_HI), (.FC_FRAME_NUM_LO, .FC_FRAME_NUM_HI), (.FC_FRAME_LEN_AT_LO, .FC_FRAME_LEN_AT_HI),
   (.FC_OVERRUN_FRAME_LO, .FC_OVERRUN_FRAME_HI), (.MT_ECC_WHEN_LO, .MT_ECC_WHEN_HI), (.MT_BAR2_BASE_LO, .MT_BAR2_BASE_HI),
   (.TD_IDX_VALUE_LO, .TD_IDX_VALUE_HI), (.TD_IDX_FRAME_LO, .TD_IDX_FRAME_HI), (.UE_GROUP_BASE_LO, .UE_GROUP_BASE_HI),
   (.UE_GROUP_COUNT_LO, .UE_GROUP_COUNT_HI), (.UE_VOTE_HOST_AT_LO, .UE_VOTE_HOST_AT_HI), (.UE_VOTE_MISSING_LO, .UE_VOTE_MISSING_HI),
   (.UE_STEP_LO, .UE_STEP_HI), (.GS_OFS_ADDR_LO, .GS_OFS_ADDR_HI), (.GS_FLAG_ADDR_LO, .GS_FLAG_ADDR_HI),
   (.OB_TRACE_TRIG_FRAME_LO, .OB_TRACE_TRIG_FRAME_HI), (.MC_HANG_FRAME_LO, .MC_HANG_FRAME_HI), (.ST_SHADOW_FRAME_LO, .ST_SHADOW_FRAME_HI),
   (.BC_FAIL_FRAME_LO, .BC_FAIL_FRAME_HI), (.ZL_PEER_FRAME_LO, .ZL_PEER_FRAME_HI), (.ZL_SUBST_AT_LO, .ZL_SUBST_AT_HI)]

/-- What a BAR0 offset names: a register, a live counter's half, a word of a sample set's head, a sample's half, a word of a management packet slot or reply. -/
inductive Target where
  | reg (r : RegName) (idx : Nat)
  | counter (bank i : Nat) (hi : Bool)
  | head (bank set w : Nat)
  | sample (bank set i : Nat) (hi : Bool)
  | slot (fn off : Nat)
  | reply (fn off : Nat)
  deriving DecidableEq, Repr

/-- Whether each function sees a register of the hub for itself (R50, R308). -/
def RegName.perFn (r : RegName) : Bool :=
  r == .FC_CT_SEL || r == .FC_CT_CMD || r == .FC_CT_STATUS || r == .HC_QUEUE_RANGE || r == .HC_POLDER

/-- The counters, samples and heads of the banks (R453). -/
def bankTarget (b rel : Nat) : Option Target :=
  if 0x40 ≤ rel ∧ rel < 0x60 ∧ rel % 16 < 12 then some (.head b (rel / 16 - 4) (rel % 16 / 4))
  else if 0x100 ≤ rel ∧ rel < 0x200 then some (.counter b ((rel - 0x100) / 8) (rel % 8 == 4))
  else if 0x400 ≤ rel ∧ rel < 0x800 ∧ rel % 0x200 < 0x100 then some (.sample b (rel / 0x200 - 2) (rel % 0x200 / 8) (rel % 8 == 4))
  else none

/-- What a function's access at a 4-byte-aligned BAR0 offset reaches; none where no table has it (log entry 12). -/
def targetAt (fn off : Nat) : Option Target :=
  let own : Option Target := (regAt off).map fun x => .reg x.1 (if x.1.perFn then fn else x.2)
  if 0x8000 ≤ off ∧ off < 0x18000 then
    let f := (off - 0x8000) / 0x2000
    let rel := (off - 0x8000) % 0x2000
    if rel < 0x1000 then some (.slot f rel) else if rel < 0x1100 then some (.reply f rel) else own
  else if 0x610000 ≤ off ∧ off < 0x618000 then
    match bankTarget ((off - 0x610000) / 0x1000) ((off - 0x610000) % 0x1000) with
    | some t => some t
    | none => own
  else own

/-- The polder that a target belongs to; none for the module's own (R418). -/
def Mod.targetPol (s : Mod) : Target → Option Nat
  | .reg r idx => match r.own with
    | .queue => (s.queueOwner idx).map s.polderOf
    | own => s.regPolder own idx
  | .counter b _ _ | .head b _ _ | .sample b _ _ _ => some (s.bankPol b)
  | .slot fn _ | .reply fn _ => some (s.polderOf fn)

/-- Whether a target is a register, slot or reply of a queue that the function does not own (R278). DEDUCED: a function's management queue counts as one (log entry 52). -/
def Mod.notOwned (s : Mod) (fn : Nat) : Target → Bool
  | .reg r idx => (r.own == .queue && s.queueOwner idx != some fn) || ((r == .MQ_CTRL || r == .MQ_TAIL || r == .MQ_HEAD) && idx != fn)
  | .slot g _ | .reply g _ => g != fn
  | _ => false

/-- Whether the dike keeps a function from a target (R418). -/
def Mod.diked (s : Mod) (fn : Nat) (t : Target) : Bool := (s.targetPol t).any (· != s.polderOf fn)

/-! ## Views -/

/-- The engine work of packets and of frame programs that runs: opcode, parameter block, and what the operands fix of the engine's status. -/
def Mod.worksNow (s : Mod) : List (Nat × List Word × Nat) :=
  (s.cq.cmds.filterMap fun x => if x.phase = .running ∧ !x.mgmt then some (x.opcode, x.params, x.note) else none)
    ++ s.ue.running.flatMap fun p => p.jobs.map fun j => (j.op, j.ps, j.note)

/-- The running work of an opcode whose control word at an offset names an engine. -/
def Mod.workOn (s : Mod) (op : Nat) (name : List Word → Nat) (idx : Nat) : Option (List Word × Nat) :=
  (s.worksNow.find? fun w => w.1 == op && name w.2.1 == idx).map (·.2)

/-- CE_STATUS of a copy engine: the transform that it runs, with its code; a lookup runs as a GATHER, a scatter-add of gradients as a SCATTER_ADD (R206, R209, R341). -/
def Mod.ceStatus (s : Mod) (ce : Nat) : Nat :=
  match s.workOn 0x4003 (fun ps => ctrlCe (pw ps 0x60)) ce with
  | some (ps, _) => bits (pw ps 0x60) 27 25 * 2 + 1
  | none => if (s.workOn 0x7000 (fun ps => ctrlCe (pw ps 0x80)) ce).isSome then 3 * 2 + 1
    else if (s.workOn 0x7001 (fun ps => ctrlCe (pw ps 0x60)) ce).isSome then 5 * 2 + 1 else 0

/-- A configuration slot of a function (R50). -/
def Mod.ctSlot (s : Mod) (fn k : Nat) : CtSlot := s.ct.slots.getD (fn * 16 + k) ⟨.free, [], false, 0⟩

/-- The slot that a function has selected. -/
def Mod.ctSel (s : Mod) (fn : Nat) : Nat := s.fld .FC_CT_SEL_SLOT fn

/-- FC_CT_STATUS of a function, but for BARE_WRITE (R65). -/
def Mod.ctStatus (s : Mod) (fn : Nat) : Nat :=
  let c := s.ctSlot fn (s.ctSel fn)
  ((List.range 16).map fun k => if (s.ctSlot fn k).st = .opened then 2 ^ (16 + k) else 0).sum + min 127 c.writes.length * 256 + c.err

/-- The states of a link as ZL_STATUS codes them (R372). -/
def LinkSt.code : LinkSt → Nat
  | .disabled => 0
  | .down => 1
  | .training => 2
  | .up => 3
  | .retrain => 4

/-- The parts of a register that follow other state, ORed to what is stored (R65, R209, R241, R276, R308, R310, R372, R400, R434, R453, R454). What is timed within a
frame is open (log entry 11). -/
def Mod.live (s : Mod) (r : RegName) (idx : Nat) : Nat :=
  let open_ := Config.freeNat s.io.free
  let bit (b : Bool) (i : Nat) : Nat := if b then 2 ^ i else 0
  match r with
  | .FC_FRAME_NUM_LO => s.fc.num
  | .FC_FRAME_NUM_HI => s.fc.num / 2 ^ 32
  | .FC_FRAME_LEN => s.log2
  | .FC_CT_STATUS => s.ctStatus idx
  | .HC_QUEUE_RANGE => (s.range idx).2 * 65536 + (s.range idx).1
  | .HC_POLDER => bit (s.conf (s.polderOf idx)) 8 + s.polders * 16 + s.polderOf idx
  | .FA_ACTIVE => match s.workOn 0x1000 (fun ps => ctrlTile (pw ps 0xC0)) idx with
    | some w => w.2 * 256 + 1
    | none => 0
  | .RA_ACTIVE => match s.workOn 0x2000 (fun ps => ctrlTile (pw ps 0xC0)) idx with
    | some w => open_ % 2 * 512 + w.2 * 256 + 1
    | none => 0
  | .ST_STATUS => bit ((s.workOn 0x3000 (fun ps => ctrlTile (pw ps 0x60)) idx).isSome || (s.workOn 0x3001 (fun ps => ctrlTile (pw ps 0x20)) idx).isSome) 0
  | .CE_STATUS => s.ceStatus idx
  | .TD_DESC_USED => (s.td.cells.filter fun c => c.1 / 65536 == idx).length
  | .MT_TIER_USED_HBM => s.usedPages idx 0 s.cq.nextOrd
  | .MT_TIER_USED_LP => s.usedPages idx 1 s.cq.nextOrd
  | .MT_ZEROING => (s.mem.ctls.cells.map fun c => if s.dieOf (c.1 / 14) = idx then rangeCount c.2.zq else 0).sum
  | .MT_OBJ_COUNT => (s.objsOf idx).length
  | .MT_MIG_ACTIVE => (s.mem.migs.filter fun m => m.pol == idx).length
  | .UE_BKT_STATUS => s.inFlight idx * 65536
  | .CQ_CTRL => (s.queueOwner idx).getD 0 * 2 ^ 26
  | .CQ_HEAD => (s.queue idx).head
  | .CQ_CPL_HEAD => (s.queue idx).cplHead
  | .CQ_CPL_TAIL => (s.queue idx).cplTail
  | .CQ_STATE => s.queueWord idx
  | .CQ_SEQ => (s.queue idx).seq
  | .CQ_ERR_SEQ => (s.queue idx).errSeq
  | .MQ_HEAD => (s.cq.mqs.getD idx ⟨0, 0, true⟩).head
  | .ZL_STATUS => (s.link idx).cause * 2 ^ 20 + (s.link idx).st.code
  | .ZL_CREDIT =>
    let c (n : Nat) : Nat := (s.link idx).credits.getD n 0
    c 2 * 2 ^ 22 + c 3 * 2 ^ 12 + c 1 * 64 + c 0
  | .MC_CLK_STATUS =>
    ([0, 1, 2, 3].map fun d => bit (s.dieDown d || s.rel.resets.any fun r => r.kind == 5) d).sum + bit (s.rel.resets.any fun r => r.kind == 2 || r.kind == 5) 4
  | .MC_CDC_STATUS => ([0, 1, 2, 3].map fun d => min 16 (s.pci.stuck.filter fun x => x.1 == d).length).sum
  | .SP_CONF => s.heldKeys idx * 65536
  | .OB_BANK_STATUS => bit (s.bank idx).armed 31
  | .OB_TRACE_STATUS => match s.ob.traces.get idx with
    | some t => t.state
    | none => 0
  | .OB_TRACE_WPTR => match s.ob.traces.get idx with
    | some t => t.next
    | none => 0
  | .MC_PWR_STATUS => min 65535 s.meanPower
  | _ => 0

/-- The counters that a confidential polder shows coarsened, beside those of the banks (R422). -/
def coarseRegs : List RegName :=
  [.ST_BLK_SAT, .ST_BLK_ZERO, .ST_SHADOW_CHECKED, .ST_SHADOW_DISAGREE, .TS_ECC_CORR, .TS_ECC_UNCORR, .MT_TLB_MISS, .SP_DIKE_DENIED, .BC_SLICES_DONE, .BC_SLICES_FAILED]

/-- The counters of R422 as they stand, kept at sluices whose frame is a multiple of 4,096. -/
def Mod.keepCoarse (s : Mod) : Mod :=
  { s with rf := { s.rf with coarse := s.rf.vals.filter fun k _ => coarseRegs.any fun r => r.num == k % 256 } }

/-- The bits that follow other state and have a reset value of their own: FC_FRAME_LEN.LOG2. -/
def liveMask (r : RegName) : Word := if r = .FC_FRAME_LEN then 0x1F else 0

/-- A register's active value as a read returns it, the polder's dike passed. -/
def Mod.active (s : Mod) (r : RegName) (idx : Nat) : Word :=
  let v := (s.rd r idx &&& ~~~(r.desc.wo ||| liveMask r)) ||| BitVec.ofNat 32 (s.live r idx)
  if coarseRegs.any (· == r) then
    match s.regPolder r.own idx with
    | some p =>
      s.counterReg p r idx v
    | none => v
  else v

/-- The last write of a register in the slot that a function has selected, if the slot is open or closed (R52). -/
def Mod.shadowOf (s : Mod) (fn : Nat) (r : RegName) (idx : Nat) : Option Word :=
  let c := s.ctSlot fn (s.ctSel fn)
  if c.st = .free then none else (c.writes.reverse.find? fun w => w.reg == r && w.idx == idx && !w.refused).map (·.val)

/-- A register as a function reads it: the shadow value where R52 gives one. -/
def Mod.seen (s : Mod) (fn : Nat) (r : RegName) (idx : Nat) : Word :=
  match s.shadowOf fn r idx with
  | some v => (s.active r idx &&& ~~~r.desc.tx) ||| (v &&& r.desc.tx &&& ~~~r.desc.wo)
  | none => s.active r idx

/-- Half of a 48-bit counter. -/
def half48 (v : Nat) (hi : Bool) : Nat := if hi then v / 2 ^ 32 else v % 2 ^ 32

/-- Whether a bank counts: a hub bank of a polder that is not there reads 0 (R435). -/
def Mod.bankOn (s : Mod) (b : Nat) : Bool := decide (b < 4 + s.polders)

/-- The value of a live counter (R435, R440). -/
def Mod.counter (s : Mod) (b i : Nat) : Nat :=
  let k := s.bank b
  if !s.bankOn b then 0 else if s.conf (s.bankPol b) then coarseCount (k.coarse.getD i 0) else k.counts.getD i 0

/-- What a function reads of a target that it may read. -/
def Mod.readTarget (s : Mod) (fn : Nat) : Target → Word
  | .reg r idx => s.seen fn r idx
  | .counter b i hi => BitVec.ofNat 32 (half48 (s.counter b i) hi + if hi && (s.bank b).armed then 2 ^ 31 else 0)
  | .head b j w => match (s.bank b).sets.find? fun x => x.2.1 % 2 == j with
    | some (_, n, f, cleared) =>
      BitVec.ofNat 32 (if !s.bankOn b then 0 else if w = 0 then n % 2 ^ 31 + (if cleared then 2 ^ 31 else 0) else if w = 1 then f else f / 2 ^ 32)
    | none => 0
  | .sample b j i hi => match (s.bank b).sets.find? fun x => x.2.1 % 2 == j with
    | some x => BitVec.ofNat 32 (if s.bankOn b then half48 (x.1.getD i 0) hi else 0)
    | none => 0
  | .slot f off | .reply f off => s.cq.mqWords.getD (mqKey f off) 0

/-- A word at an offset as a function reads it: 0 where the dike or the ownership of queues refuses it, a refusal of the dike counting (R278, R418). -/
def Mod.readWord (s : Mod) (fn off : Nat) : Word × Mod :=
  match targetAt fn off with
  | none => (0, s)
  | some t =>
    if s.diked fn t then (0, s.denied (s.polderOf fn))
    else if s.notOwned fn t then (0, s)
    else (s.readTarget fn t, s.bump)

/-- The offset of the other half of a 64-bit quantity, and whether the offset is its low half (R17). -/
def pairAt (fn off : Nat) : Option (Bool × Nat) :=
  match targetAt fn off with
  | some (.reg r _) =>
    if regPairs.any fun p => p.1 == r then some (true, off + 4) else if regPairs.any fun p => p.2 == r then some (false, off - 4) else none
  | some (.counter _ _ hi) | some (.sample _ _ _ hi) => some (!hi, if hi then off - 4 else off + 4)
  | some (.head _ _ 1) => some (true, off + 4)
  | some (.head _ _ 2) => some (false, off - 4)
  | _ => none

/-- A 4-byte read: a low word latches its high word, which the next read of the pair returns (R17). Each function has latches of its own (DESIGN CHOICE, log entry 85). -/
def Mod.read4 (s : Mod) (fn off : Nat) : Word × Mod :=
  match pairAt fn off with
  | some (true, hi) =>
    let a := s.readWord fn off
    let b := a.2.readWord fn hi
    (a.1, { b.2 with rf := { b.2.rf with latch := b.2.rf.latch.set (hi * 8 + fn) b.1 } })
  | some (false, _) =>
    match s.rf.latch.get (off * 8 + fn) with
    | some v => (v, { s with rf := { s.rf with latch := s.rf.latch.del (off * 8 + fn) } })
    | none => s.readWord fn off
  | none => s.readWord fn off

/-- A read of 4 or 8 bytes; 8 bytes of a pair are one access (R17), and 8 bytes over halves of pairs are two reads, the lower first (log entry 85). -/
def Mod.readReg (s : Mod) (fn off len : Nat) : DWord × Mod :=
  if len = 8 then
    match pairAt fn off with
    | some (true, _) =>
      let a := s.readWord fn off
      let b := a.2.readWord fn (off + 4)
      (b.1 ++ a.1, { b.2 with rf := { b.2.rf with latch := b.2.rf.latch.del ((off + 4) * 8 + fn) } })
    | _ =>
      let a := s.read4 fn off
      let b := a.2.read4 fn (off + 4)
      (b.1 ++ a.1, b.2)
  else
    let a := s.read4 fn off
    (0#32 ++ a.1, a.2)

end Sys2Proof.Machine
end

