-- ==== Sys2Proof/Machine/Port.lean ====
section
/-! DEFINITION. The structures of the host port itself: the configuration header of a function and BAR4, its MSI-X table and pending bits (18_pins_and_electrical.md
R493, R494, R495; 10_command_interface.md R301, R302). -/

namespace Sys2Proof.Machine

/-! ## Vectors (R301, R302) -/

/-- The state with a vector's entry set. -/
def Mod.setVec (s : Mod) (k : Nat) (v : Vec) : Mod := { s with pci := { s.pci with vecs := if v = Vec.zero then s.pci.vecs.del k else s.pci.vecs.set k v } }

/-- A vector whose message is pending and that nothing masks any more sends it (R302). -/
def Mod.flushVec (s : Mod) (k : Nat) : Mod :=
  let fn := k / 2048
  if has s.pci.pend k && has s.pci.msixEn fn && !has s.pci.fmask fn && !(s.pci.vecs.getD k .zero).masked
  then { s with pci := { s.pci with pend := s.pci.pend.filter (· != k) } }.sendVec k else s

/-- The pending vectors of a function that nothing masks any more send their messages. -/
def Mod.flushVecs (s : Mod) (fn : Nat) : Mod := (sortBy id (s.pci.pend.filter fun k => k / 2048 == fn)).foldl Mod.flushVec s

/-! ## BAR4 (R494) -/

/-- A word of BAR4 as it reads; none outside its two structures. -/
def Mod.bar4Word (s : Mod) (fn off : Nat) : Option Word :=
  if off < 0x8000 then
    let v := s.pci.vecs.getD (fn * 2048 + off / 16) .zero
    some (match off / 4 % 4 with
      | 0 => v.addr.setWidth 32
      | 1 => (v.addr >>> 32).setWidth 32
      | 2 => v.data
      | _ => if v.masked then 1#32 else 0#32)
  else if off < 0x8100 then
    let i := (off - 0x8000) / 4 * 32
    some (BitVec.ofNat 32 ((List.range 32).foldl (fun a b => if has s.pci.pend (fn * 2048 + i + b) then a + 2 ^ b else a) 0))
  else none

/-- A write of a word of BAR4: the fields of a vector's entry; pending bits are read-only. -/
def Mod.setBar4 (s : Mod) (fn off : Nat) (w : Word) : Mod :=
  if off < 0x8000 then
    let k := fn * 2048 + off / 16
    let v := s.pci.vecs.getD k .zero
    match off / 4 % 4 with
    | 0 => s.setVec k { v with addr := (v.addr >>> 32).setWidth 32 ++ w }
    | 1 => s.setVec k { v with addr := w ++ v.addr.setWidth 32 }
    | 2 => s.setVec k { v with data := w }
    | _ => (s.setVec k { v with masked := w.getLsbD 0 }).flushVec k
  else s

/-- Whether a BAR4 access has a form that MSI-X allows, 4 or 8 bytes and aligned, and lies in one of its structures (R494, R495). -/
def bar4Ok (off len : Nat) : Bool := (len == 4 || len == 8) && off % len == 0 && decide (off + len ≤ 0x8100)

/-- A BAR4 write; one with Memory Space Enable clear, or outside the structures, is dropped. -/
def Mod.bar4Write (s : Mod) (fn off len : Nat) (v : DWord) : Mod :=
  if !has s.pci.memEn fn || !bar4Ok off len then s
  else if len = 8 then (s.setBar4 fn off (v.setWidth 32)).setBar4 fn (off + 4) ((v >>> 32).setWidth 32) else s.setBar4 fn off (v.setWidth 32)

/-- A BAR4 read. -/
def Mod.bar4Read (s : Mod) (fn off len : Nat) : Mod :=
  if !has s.pci.memEn fn || !bar4Ok off len then s.emit (.unsupported fn) else
  let lo := (s.bar4Word fn off).getD 0
  let hi := if len = 8 then (s.bar4Word fn (off + 4)).getD 0 else 0#32
  s.emit (.completion fn (hi ++ lo) len)

/-! ## The configuration header (R492, R493; log entry 86) -/

/-- The bits of a BAR that software sets, by its size, and those that are fixed: 64-bit memory, prefetchable for BAR2 (R494). -/
def barForm (n : Fin 3) : DWord × DWord :=
  match n with
  | 0 => (~~~0x3FFFFFF#64, 0x4#64)
  | 1 => (~~~0xFFFFFFFFF#64, 0xC#64)
  | 2 => (~~~0xFFFF#64, 0x4#64)

/-- A field of the configuration header as it reads (R492, R493); functions F1 to F7 report no IDE capability (R497). -/
def Mod.cfgRead (s : Mod) (fu : Fuses) (fn : Nat) (r : CfgReg) : DWord :=
  let ide (v : DWord) : DWord := if fn = 0 then v else 0
  match r with
  | .vendor | .subsystemVendor => Config.vendorId.setWidth 64
  | .device => 0x4801#64
  | .revision => 0xA1#64
  | .classCode => 0x120000#64
  | .headerType => 0x80#64
  | .subsystem => 0x0001#64
  | .maxPayload => 512#64
  | .serialNumber => fu.serial.setWidth 64
  | .ideLink | .ideTrafficClasses | .ideFlitMode | .idePcrc => ide 1
  | .ideSelective => ide 8
  | .ideAddressBlocks => ide 2
  | .ideAggregation | .idePartialHeader => 0#64
  | .command => if has s.pci.memEn fn then 2#64 else 0#64
  | .msixControl => BitVec.ofNat 64 ((if has s.pci.msixEn fn then 0x8000 else 0) + (if has s.pci.fmask fn then 0x4000 else 0) + 2047)
  | .bar n => s.pci.bars.getD (fn * 3 + n.val) 0 ||| (barForm n).2

/-- A list with a function in it, or not. -/
def onOff (l : List Nat) (fn : Nat) (on : Bool) : List Nat := if on then addOnce l fn else l.filter (· != fn)

/-- A write of a field of the configuration header: the enables of memory space and MSI-X, the Function Mask, and the BARs; all else is read-only. -/
def Mod.cfgWrite (s : Mod) (fn : Nat) (r : CfgReg) (v : DWord) : Mod :=
  match r with
  | .command => { s with pci := { s.pci with memEn := onOff s.pci.memEn fn (v.getLsbD 1) } }
  | .msixControl =>
    { s with pci := { s.pci with msixEn := onOff s.pci.msixEn fn (v.getLsbD 15), fmask := onOff s.pci.fmask fn (v.getLsbD 14) } }.flushVecs fn
  | .bar n => { s with pci := { s.pci with bars := s.pci.bars.set (fn * 3 + n.val) (v &&& (barForm n).1) } }
  | .vendor | .device | .revision | .classCode | .headerType | .subsystemVendor | .subsystem | .maxPayload | .serialNumber
  | .ideLink | .ideSelective | .ideAddressBlocks | .ideTrafficClasses | .ideFlitMode | .idePcrc | .ideAggregation | .idePartialHeader => s

end Sys2Proof.Machine
end

