-- ==== Sys2Proof/Machine/Access.lean ====
section
/-! DEFINITION. Host accesses through BAR0 and BAR2: TX writes and slots, registered writes, held accesses, accesses into stopped or resetting domains
(02_frames_and_commit.md R47, R50, R53, R55, R58; 13 R379, R384; 18 R494, R495; 08 R240). -/

namespace Sys2Proof.Machine

/-! ## Configuration slots (R50, R51) -/

/-- The state with a configuration slot of a function set. -/
def Mod.setSlot (s : Mod) (fn k : Nat) (c : CtSlot) : Mod := { s with ct := { s.ct with slots := s.ct.slots.set (fn * 16 + k) c } }

/-- A TX write goes to the selected slot if it is open; the 257th is dropped and marks the slot failed; one outside a transaction is dropped and sets BARE_WRITE (R50). -/
def Mod.txWrite (s : Mod) (fn : Nat) (r : RegName) (idx : Nat) (v : Word) (refused : Bool) : Mod :=
  let k := s.ctSel fn
  let c := s.ctSlot fn k
  if c.st ≠ .opened then s.raise .FC_CT_STATUS_BARE_WRITE fn
  else if 256 ≤ c.writes.length then s.setSlot fn k { c with failed := true, err := 0x28 }
  else s.setSlot fn k { c with writes := c.writes ++ [TxWr.mk r idx (v &&& r.desc.tx) refused] }

/-- FC_CT_CMD: each op acts only on a slot in the state it names (R50, R51, R54). A slot that is opened starts empty, its last error kept until its next commit or
rejection. -/
def Mod.ctCmd (s : Mod) (fn op k : Nat) : Mod :=
  let c := s.ctSlot fn k
  match op, c.st with
  | 1, .free => s.setSlot fn k { c with st := .opened, writes := [], failed := false }
  | 2, .opened => { s.setSlot fn k { c with st := .closed s.ct.closes } with
                    ct := { (s.setSlot fn k { c with st := .closed s.ct.closes }).ct with closes := s.ct.closes + 1 } }
  | 3, .opened | 3, .closed _ => { s with ct := { s.ct with abandons := s.ct.abandons ++ [(fn, k)] } }
  | _, _ => s

/-! ## Writes of one word -/

/-- Registers that F0 alone writes; writes of other functions are dropped (R369, R417, R463). -/
def f0Only (r : RegName) : Bool := r == .SP_FUNC_BIND || r == .ZL_RESV || r == .MC_DIE_CTRL

/-- A write of a register's bits outside the TX mark: those that act on arrival, and those that wait for step 5 of the sluice (R53). -/
def Mod.plainWrite (s : Mod) (fn : Nat) (r : RegName) (idx : Nat) (v : Word) : Mod :=
  let d := r.desc
  let stage (s : Mod) : Mod := { s with rf := { s.rf with stage := s.rf.stage ++ [RegWr.mk fn r idx v] } }
  match r with
  | .FC_CT_SEL => s.put .FC_CT_SEL fn (v &&& 0xF#32)
  | .FC_CT_CMD => s.ctCmd fn (v.toNat % 4) (bits v.toNat 11 8)
  | .WEIR_SIGNAL => if v = 0 then s else { s with wr := { s.wr with sigs := s.wr.sigs ++ [({ weir := idx, add := v.toNat, seq := 0 } : Sig)] } }
  | .WEIR_CTRL => stage (if v.getLsbD 1 then { s with wr := { s.wr with clears := addOnce s.wr.clears idx } } else s)
  | .OB_BANK_CTRL =>
    let k := s.bank idx
    stage (if v.getLsbD 31 || v.getLsbD 30 then s.setBank idx { k with armed := k.armed || v.getLsbD 31, ask := k.ask || v.getLsbD 30 } else s)
  | .CQ_TAIL | .MQ_TAIL => stage s
  | _ => if (v &&& (d.w1c ||| d.w1s ||| (d.wo &&& ~~~d.tx))) = 0 && d.rw = 0 then s else stage s

/-- Whether a write of a register that mixes TX bits with others means its TX bits: always inside an open slot; outside one only if it would change them (log entry 17). -/
def Mod.meansTx (s : Mod) (fn : Nat) (r : RegName) (idx : Nat) (v : Word) : Bool :=
  let d := r.desc
  d.tx != 0 && ((s.ctSlot fn (s.ctSel fn)).st == .opened || (d.rw ||| d.w1c ||| (d.wo &&& ~~~d.tx)) == 0 || (v &&& d.tx) != (s.rd r idx &&& d.tx))

/-- A 32-bit write of a register (R50, R53, R278, R418). -/
def Mod.writeReg (s : Mod) (fn : Nat) (r : RegName) (idx : Nat) (v : Word) : Mod :=
  let t : Target := .reg r idx
  if f0Only r && fn != 0 then s
  else if s.diked fn t then
    if r.desc.tx = 0 then s.denied (s.polderOf fn)
    else if (s.ctSlot fn (s.ctSel fn)).st = .opened then s.txWrite fn r idx v true
    else (s.denied (s.polderOf fn)).raise .FC_CT_STATUS_BARE_WRITE fn
  else if s.notOwned fn t then s
  else
    let s := if s.meansTx fn r idx v then s.txWrite fn r idx v false else s
    s.plainWrite fn r idx v

/-- A 32-bit write at an offset. Packet slots of the management queue take it at once; replies, counters and samples ignore it. -/
def Mod.writeWord (s : Mod) (fn off : Nat) (v : Word) : Mod :=
  match targetAt fn off with
  | some (.reg r idx) => s.writeReg fn r idx v
  | some (.slot f o) =>
    if s.diked fn (.slot f o) then s.denied (s.polderOf fn)
    else if s.notOwned fn (.slot f o) then s
    else { s with cq := { s.cq with mqWords := s.cq.mqWords.set (mqKey f o) v } }
  | _ => s

/-- What a function holds and has latched of the pair whose high word is at an offset goes: another access to the pair comes. -/
def Mod.dropPair (s : Mod) (fn h : Nat) : Mod := { s with rf := { s.rf with held := s.rf.held.del (h * 8 + fn), latch := s.rf.latch.del (h * 8 + fn) } }

/-- A 4-byte write: the high word of a pair is held, by the function that wrote it, until it writes the low word, which commits both (R17). A low word without a held high
word is written alone (DESIGN CHOICE, log entry 85). -/
def Mod.store4 (s : Mod) (fn off : Nat) (v : Word) : Mod :=
  match pairAt fn off with
  | some (true, h) =>
    match s.rf.held.get (h * 8 + fn) with
    | some w => ((s.dropPair fn h).writeWord fn h w).writeWord fn off v
    | none => (s.dropPair fn h).writeWord fn off v
  | some (false, _) => { s.dropPair fn off with rf := { (s.dropPair fn off).rf with held := (s.dropPair fn off).rf.held.set (off * 8 + fn) v } }
  | none => s.writeWord fn off v

/-- A write of 4 or 8 bytes. 8 bytes of a pair commit both its words; 8 bytes over halves of pairs are two writes, the lower first (R17; log entry 85). -/
def Mod.storeAt (s : Mod) (fn off len : Nat) (v : DWord) : Mod :=
  let lo := v.setWidth 32
  let hi := (v >>> 32).setWidth 32
  if len = 8 then
    match pairAt fn off with
    | some (true, h) => ((s.dropPair fn h).writeWord fn h hi).writeWord fn off lo
    | _ => (s.store4 fn off lo).store4 fn (off + 4) hi
  else s.store4 fn off lo

/-! ## Where an access goes (R379, R384) -/

/-- Whether an access completes: it reaches a live domain, one in reset or a module not started, or a die whose clock is stopped. -/
inductive Reach where
  | live | inReset | stopped (die : Nat)
  deriving DecidableEq, Repr

/-- The domain and the die of a target: a register's block, a counter bank's as R453 gives it, the management controller's own memory. -/
def Mod.reachOf (s : Mod) (t : Target) : Reach :=
  let dead (b : RegBlk) (idx : Nat) : Bool :=
    if b.dom = .module then s.rel.resets.any (·.kind == 5)
    else !s.running || s.rel.resets.any fun r => s.regInDomain r.kind r.index b idx
  let at_ (b : RegBlk) (idx : Nat) : Reach :=
    if dead b idx then .inReset
    else match b.dieOf idx with
      | some d => if has s.rel.stopped d then .stopped d else .live
      | none => .live
  let bank (b : Nat) : Reach := match RegName.OB_BANK_CTRL.blk with
    | some k => at_ k b
    | none => .live
  match t with
  | .reg r idx => match r.blk with
    | some b => at_ b idx
    | none => .live
  | .counter b _ _ | .head b _ _ | .sample b _ _ _ => bank b
  | .slot _ _ | .reply _ _ => if s.rel.resets.any (·.kind == 5) then .inReset else .live

/-- Where a BAR0 access goes; one that no table has reaches the hub. -/
def Mod.reach0 (s : Mod) (fn off : Nat) : Reach :=
  match targetAt fn off with
  | some t => s.reachOf t
  | none => if s.running then .live else .inReset

/-- A host access completes, at the host access port (R375). -/
def Mod.portMoved (s : Mod) : Mod := { s with rel := { s.rel with moved := addOnce s.rel.moved (unitKey 8 0 0) } }

/-- A write that a stopped or resetting domain does not take is dropped and counted, at the frame's sluice where sluices are taken (R28, R379, R384). -/
def Mod.dropWrite (s : Mod) : Mod := if s.running then s.countFldLater .MC_CDC_STATUS_DROPPED 0 1 else s.bumpFld .MC_CDC_STATUS_DROPPED 0 1

/-- The accesses that the hub holds for a stopped die. -/
def Mod.heldFor (s : Mod) (d : Nat) : Nat := (s.pci.stuck.filter fun x => x.1 == d).length

/-- An access is held for a stopped die: sixteen are, further writes are dropped, further reads wait in the port (R379). -/
def Mod.holdFor (s : Mod) (d : Nat) (a : HostAcc) : Mod :=
  let write := match a with
    | .write _ _ _ _ | .write2 _ _ _ => true
    | .read _ _ _ | .read2 _ _ _ => false
  if write && decide (16 ≤ s.heldFor d) then s.dropWrite else { s with pci := { s.pci with stuck := s.pci.stuck ++ [(d, a)] } }

/-! ## BAR2 (R240) -/

/-- The device address of a byte of a function's aperture. -/
def Mod.aperture (s : Mod) (fn off : Nat) : Nat := (s.rd .MT_BAR2_BASE_LO fn).toNat / 2 ^ 21 * 2 ^ 21 + 2 ^ 32 * bits (s.rd .MT_BAR2_BASE_HI fn).toNat 15 0 + off

/-- Whether a range meets a range that an open step has sealed (R268). -/
def Mod.stepSealed (s : Mod) (p addr n : Nat) : Bool := s.ue.seals.any fun x => x.1 == p && x.2.2.2.1 != 0 && meets x.2.1 x.2.2.1 addr n

/-- Whether a range meets the region of a SEAL that runs (R433). -/
def Mod.resultSealed (s : Mod) (p addr n : Nat) : Bool := s.ue.seals.any fun x => x.1 == p && x.2.2.2.1 == 0 && meets x.2.1 x.2.2.1 addr n

/-- A host access through BAR2 completed (R437). -/
def Mod.bar2Done (s : Mod) (p : Nat) : Mod := (s.hubEvent s.fc.num p 19 1).portMoved

/-- A BAR2 write: staged, or dropped outside every object, in a read-only object, in a sealed range; a write into an open step's declared state is marked
(R63, R65, R240, R268, R433). -/
def Mod.bar2Write (s : Mod) (fn off : Nat) (data : List Byte) : Mod :=
  let p := s.polderOf fn
  let a := s.aperture fn off
  let n := data.length
  let s := s.bar2Done p
  if !s.mapped p a n then s.raise .MT_BAR2_STATUS_UNMAPPED p
  else if s.readonly p a n then s.raise .MT_BAR2_STATUS_READONLY p
  else if s.stepSealed p a n then s.raise .UE_STATUS_SEALED_READ p
  else if s.resultSealed p a n then s.raise .SP_SEAL_STATUS_WRITE_DROPPED p
  else
    let s := if s.stepOpen p && s.isStepState p a n then s.raise .FC_DET_STATUS_HOST_MID_STEP 0 else s
    s.stage rankHost (.mem p (wcells a data))

/-- A BAR2 read: committed data, poisoned where a granule is, or Unsupported Request (R236, R240, R268). -/
def Mod.bar2Read (s : Mod) (fn off len : Nat) : Mod :=
  let p := s.polderOf fn
  let a := s.aperture fn off
  let s := s.bar2Done p
  if !s.mapped p a len then (s.raise .MT_BAR2_STATUS_UNMAPPED p).emit (.unsupported fn)
  else if s.stepSealed p a len then (s.raise .UE_STATUS_SEALED_READ p).emit (.unsupported fn)
  else
    let bad := s.poisoned p a len
    let s := if bad then s.raise .MT_BAR2_STATUS_POISON p else s
    s.emit (.dataCompletion fn (s.getBs p a len) bad)

/-- Where a BAR2 access goes. -/
def Mod.reach2 (s : Mod) (fn off n : Nat) : Reach :=
  let p := s.polderOf fn
  if !s.running || s.polderReset p then .inReset
  else match s.downAt p (s.aperture fn off) n with
    | some d => if has s.rel.stopped d then .stopped d else .inReset
    | none => .live

/-! ## Accesses as they reach the hub -/

/-- The function of an access. -/
def HostAcc.fn : HostAcc → Nat
  | .write fn _ _ _ | .read fn _ _ | .write2 fn _ _ | .read2 fn _ _ => fn

/-- Whether an access is a read. -/
def HostAcc.isRead : HostAcc → Bool
  | .read _ _ _ | .read2 _ _ _ => true
  | .write _ _ _ _ | .write2 _ _ _ => false

/-- Whether a BAR0 access has a form that R495 allows. -/
def HostAcc.allowed : HostAcc → Bool
  | .write _ off len _ | .read _ off len => (len == 4 || len == 8) && off % len == 0
  | .write2 _ _ _ | .read2 _ _ _ => true

/-- Where an access goes; both words of an 8-byte access lie in one block's domain, so its first word tells. -/
def Mod.reach (s : Mod) : HostAcc → Reach
  | .write fn off _ _ | .read fn off _ => s.reach0 fn off
  | .write2 fn off data => s.reach2 fn off data.length
  | .read2 fn off len => s.reach2 fn off len

/-- An access is performed in a live domain. -/
def Mod.perform (s : Mod) : HostAcc → Mod
  | .write fn off len v => (s.storeAt fn off len v).portMoved
  | .read fn off len =>
    let r := s.readReg fn off len
    (r.2.emit (.completion fn r.1 len)).portMoved
  | .write2 fn off data => s.bar2Write fn off data
  | .read2 fn off len => s.bar2Read fn off len

/-- A host access reaches the hub outside a sluice window (R379, R384, R494, R495). -/
def Mod.access (s : Mod) (a : HostAcc) : Mod :=
  if !has s.pci.memEn a.fn || !a.allowed then (if a.isRead then s.emit (.unsupported a.fn) else s)
  else match s.reach a with
    | .live => s.perform a
    | .inReset => if a.isRead then s.emit (.abortCompletion a.fn) else s.dropWrite
    | .stopped d => s.holdFor d a

/-- A host access: held until the sluice is complete when it reaches the hub in a sluice window (R47): the row says so, or a sluice is being taken. -/
def Mod.hostAcc (s : Mod) (win : Bool) (a : HostAcc) : Mod :=
  if (win || !s.inFrame) && s.running then { s with pci := { s.pci with held := s.pci.held ++ [a] } } else s.access a

/-- The accesses held in a sluice window are performed in the next frame, in the order in which they came (R47). -/
def Mod.releaseHeld (s : Mod) : Mod := s.pci.held.foldl Mod.access { s with pci := { s.pci with held := [] } }

/-- The accesses held for a die whose clock runs again are performed, in the order in which they came (R379, R463). -/
def Mod.releaseStuck (s : Mod) : Mod :=
  let go := s.pci.stuck.filter fun x => !has s.rel.stopped x.1
  go.foldl (fun s x => s.access x.2) { s with pci := { s.pci with stuck := s.pci.stuck.filter fun x => has s.rel.stopped x.1 } }

/-- A host access through BAR0 or BAR2, while the port is up. -/
def State.host (s : State) (h : Port) (a : HostAcc) : Host.Outcome State Fault Refusal := s.when s.m.pci.up (s.m.hostAcc h.win a)

/-- A 32-bit write of a register by name. -/
def State.writes (s : State) (h : Port) (r : RegName) (idx : Nat) (v : Word) : Host.Outcome State Fault Refusal :=
  s.host h (.write h.fn (r.addr idx) 4 (0#32 ++ v))

/-! ## The rows of host accesses -/

/-- REGISTER_WRITE: BAR0 (R53), BAR4 (R301, R494), or the configuration header (R493). -/
def execRegisterWrite (h : Port) (off : BitVec 26) (len : Nat) (v : DWord) (s : State) : Host.Outcome State Fault Refusal :=
  match h.space with
  | .bar0 => s.host h (.write h.fn off.toNat len v)
  | .bar4 => s.when s.m.pci.up (s.m.bar4Write h.fn off.toNat len v)
  | .cfg r => s.when s.m.pci.up (s.m.cfgWrite h.fn r v)

/-- REGISTER_READ: BAR0 (R17), BAR4 (R301, R494), or the configuration header (R493). -/
def execRegisterRead (h : Port) (off : BitVec 26) (len : Nat) (s : State) : Host.Outcome State Fault Refusal :=
  match h.space with
  | .bar0 => s.host h (.read h.fn off.toNat len)
  | .bar4 => s.when s.m.pci.up (s.m.bar4Read h.fn off.toNat len)
  | .cfg r => s.when s.m.pci.up (s.m.emit (.completion h.fn (s.m.cfgRead s.fuse h.fn r) 4))

/-- HOST_BAR2_WRITE (R240). -/
def execHostBar2Write (h : Port) (off : BitVec 36) (data : List Byte) (s : State) : Host.Outcome State Fault Refusal := s.host h (.write2 h.fn off.toNat data)

/-- HOST_BAR2_READ (R240). -/
def execHostBar2Read (h : Port) (off : BitVec 36) (len : Nat) (s : State) : Host.Outcome State Fault Refusal := s.host h (.read2 h.fn off.toNat len)

/-- FC_CT_OPEN (R50). -/
def execFcCtOpen (h : Port) (slot : Fin 16) (s : State) : Host.Outcome State Fault Refusal := s.writes h .FC_CT_CMD 0 (BitVec.ofNat 32 (slot * 256 + 1))

/-- FC_CT_CLOSE (R51). -/
def execFcCtClose (h : Port) (slot : Fin 16) (s : State) : Host.Outcome State Fault Refusal := s.writes h .FC_CT_CMD 0 (BitVec.ofNat 32 (slot * 256 + 2))

/-- FC_CT_ABANDON (R54). -/
def execFcCtAbandon (h : Port) (slot : Fin 16) (s : State) : Host.Outcome State Fault Refusal := s.writes h .FC_CT_CMD 0 (BitVec.ofNat 32 (slot * 256 + 3))

/-- WEIR_SIGNAL (R55). -/
def execWeirSignal (h : Port) (n : Fin 16384) (add : Word) (s : State) : Host.Outcome State Fault Refusal := s.writes h .WEIR_SIGNAL n add

/-- WEIR_CTRL_CLEAR: a write of WEIR_CTRL with CLEAR (R58). -/
def execWeirCtrlClear (h : Port) (n : Fin 16384) (v : Word) (s : State) : Host.Outcome State Fault Refusal := s.writes h .WEIR_CTRL n (v ||| 2#32)

/-- DOORBELL (R283). -/
def execDoorbell (h : Port) (q : Fin 16384) (v : Word) (s : State) : Host.Outcome State Fault Refusal := s.writes h .CQ_TAIL q v

/-- CQ_CPL_HEAD (R297). -/
def execCqCplHead (h : Port) (q : Fin 16384) (v : Word) (s : State) : Host.Outcome State Fault Refusal := s.writes h .CQ_CPL_HEAD q v

/-- ENABLE (R281). -/
def execEnable (h : Port) (q : Fin 16384) (s : State) : Host.Outcome State Fault Refusal := s.writes h .CQ_CMD q 1#32

/-- PAUSE (R281). -/
def execPause (h : Port) (q : Fin 16384) (s : State) : Host.Outcome State Fault Refusal := s.writes h .CQ_CMD q 2#32

/-- RESUME (R281). -/
def execResume (h : Port) (q : Fin 16384) (s : State) : Host.Outcome State Fault Refusal := s.writes h .CQ_CMD q 3#32

/-- RESET (R281). -/
def execReset (h : Port) (q : Fin 16384) (s : State) : Host.Outcome State Fault Refusal := s.writes h .CQ_CMD q 4#32

/-- MQ_TAIL (R305): the function's own management queue. -/
def execMqTail (h : Port) (v : Word) (s : State) : Host.Outcome State Fault Refusal := s.writes h .MQ_TAIL h.fn v

/-- ZL_CTRL_RETRAIN (R349). -/
def execZlCtrlRetrain (h : Port) (l : Fin 32) (v : Word) (s : State) : Host.Outcome State Fault Refusal := s.writes h .ZL_CTRL l (v ||| 2#32)

/-- ZL_CTRL_CLR (R372). -/
def execZlCtrlClr (h : Port) (l : Fin 32) (v : Word) (s : State) : Host.Outcome State Fault Refusal := s.writes h .ZL_CTRL l (v ||| 4#32)

/-- ME_CKPT_RESTORE_GO: the write of ME_CKPT_RESTORE with GO; its transaction's commit starts the restore (R396). -/
def execMeCkptRestoreGo (h : Port) (p : Fin 4) (v : Word) (s : State) : Host.Outcome State Fault Refusal := s.writes h .ME_CKPT_RESTORE p (v ||| 0x80000000#32)

/-- MC_TILE_REMAP_GO: the write of MC_TILE_REMAP with GO; its transaction's commit maps the spare (R392). -/
def execMcTileRemapGo (h : Port) (v : Word) (s : State) : Host.Outcome State Fault Refusal := s.writes h .MC_TILE_REMAP 0 (v ||| 0x80000000#32)

/-- ST_STATUS_CLR_COUNTS (R182). -/
def execStStatusClrCounts (h : Port) (d : Fin 4) (t : Fin 48) (v : Word) (s : State) : Host.Outcome State Fault Refusal :=
  s.writes h .ST_STATUS (d * 48 + t) (v ||| 0x80000000#32)

/-- TD_IDX_CTRL_CLR (R210). -/
def execTdIdxCtrlClr (h : Port) (p : Fin 4) (v : Word) (s : State) : Host.Outcome State Fault Refusal := s.writes h .TD_IDX_CTRL p (v ||| 0x80000000#32)

/-- MT_ECC_CTRL_CLR (R242). -/
def execMtEccCtrlClr (h : Port) (v : Word) (s : State) : Host.Outcome State Fault Refusal := s.writes h .MT_ECC_CTRL 0 (v ||| 0x80000000#32)

/-- BC_CTRL_CLR (R414). -/
def execBcCtrlClr (h : Port) (d : Fin 4) (v : Word) (s : State) : Host.Outcome State Fault Refusal := s.writes h .BC_CTRL d (v ||| 0x20000000#32)

/-- OB_BANK_CTRL_CLR (R439). -/
def execObBankCtrlClr (h : Port) (b : Fin 8) (v : Word) (s : State) : Host.Outcome State Fault Refusal := s.writes h .OB_BANK_CTRL b (v ||| 0x80000000#32)

/-- OB_BANK_CTRL_SAMPLE (R438). -/
def execObBankCtrlSample (h : Port) (b : Fin 8) (v : Word) (s : State) : Host.Outcome State Fault Refusal := s.writes h .OB_BANK_CTRL b (v ||| 0x40000000#32)

/-- MC_LEDGER_CTRL_CLEAR (R400). -/
def execMcLedgerCtrlClear (h : Port) (v : Word) (s : State) : Host.Outcome State Fault Refusal := s.writes h .MC_LEDGER_CTRL 0 (v ||| 0x80000000#32)

/-- CLR_HANG (R400). -/
def execClrHang (h : Port) (v : Word) (s : State) : Host.Outcome State Fault Refusal := s.writes h .MC_LEDGER_CTRL 0 (v ||| 0x40000000#32)

/-- MC_DIE_CTRL: the write; its transaction's commit stops or restarts the dies (R463). -/
def execMcDieCtrl (h : Port) (v : Word) (s : State) : Host.Outcome State Fault Refusal := s.writes h .MC_DIE_CTRL 0 v

end Sys2Proof.Machine
end

