-- ==== Sys2Proof/Machine/Desc.lean ====
section
/-! DEFINITION. Descriptors: creation, destruction, reading (07_tiles_tensors_and_layout.md R192 to R198, R330). -/

namespace Sys2Proof.Machine

/-- Case 2 of R196: the CVC under R69, and stochastic rounding without the SR feature (R313). -/
def Mod.cvcChk (s : Mod) (v : Cvc) (det : Nat) : Chk Unit :=
  match Fmt.ofCode v.fmt with
  | none => .error (0x18, det)
  | some f => do
    ensure (v.rsv == 0 && (!v.rnd || s.bit .HC_FEAT0_SR 0)) 0x18 det
    ensure (v.blk != 0 || !f.needsBlock) 0x19 det
    ensure (v.blk == 0 || f.allowsBlock) 0x19 det

/-- WRITABLE at creation (R195): the strides of dimensions 1 to 3 reach over the dimensions below. -/
def Td.writableNow (t : Td) (f : Fmt) : Bool :=
  let r := t.rowBytes f
  -- the extent in bytes of dimensions 0 to d - 1
  let span (d : Nat) : Nat := (List.range d).foldl (fun a k => if k = 0 then r else a + (at4 t.ext k - 1) * at4 t.stride k) 0
  [1, 2, 3].all fun d => decide (at4 t.ext d ≤ 1) || decide (span d ≤ at4 t.stride d ∧ r ≤ span d)

/-- The checks of R196 in the table's order; the word of each failing field as DETAIL, and 0xFF for the checks over several fields together (R296). -/
def Mod.descChk (s : Mod) (pol : Nat) (d : List Word) : Chk Unit := do
  let w (k : Nat) := (d.getD k 0).toNat
  let t := Td.of d
  let det (k : Nat) := 16 + k
  -- reserved bits, and fields that creation fills
  ensure (bits (w 0) 18 16 == 0 && decide (t.space < 2) && decide (t.padv < 2) && bits (w 0) 31 28 == 0) 0x10 (det 0)
  ensure (bits (w 5) 23 15 == 0 && bits (w 5) 13 13 == 0) 0x10 (det 5)
  allChk ([7, 9, 11, 13, 15].map fun k => ensure (w k / 65536 == 0) 0x10 (det k))
  s.cvcChk t.cvc (det 0)
  let f := (Fmt.ofCode t.cvc.fmt).getD .f32
  let b := blkSize t.cvc.blk
  ensure (b != 0 || t.axis == 0) 0x10 (det 0)
  ensure (b != 0 || t.sbase == 0) 0x10 (det 14)
  ensure (decide (at4 t.ext 0 < 2 ^ 31)) 0x10 (det 2)
  ensure (t.space != 1 || w 7 == 0) 0x10 (det 7)
  let padded := t.bef.any (· != 0) || t.aft.any (· != 0)
  ensure (!t.index || ((f == .i32 || f == .i64) && !padded && at4 t.ext 1 == 1 && at4 t.ext 2 == 1 && at4 t.ext 3 == 1)) 0x10 noDetail
  ensure (!t.nullNeg || t.index) 0x10 noDetail
  ensure (!t.useSlot || (s.bit .GS_CTRL_ENABLE t.slot && s.fld .GS_CTRL_POLDER t.slot == pol)) 0x30 (det 5)
  ensure (b == 0 || (at4 t.bef t.axis % b == 0 && at4 t.aft t.axis % b == 0)) 0x10 (det 1)
  ensure (t.padv == 0 || (b == 0 && (f.infCode true).isSome)) 0x10 (det 0)
  let u := f.unitBytes
  ensure (t.base % (if f = .w16 then 2 else if f = .f32 ∨ f = .i32 then 4 else if f = .i64 then 8 else 1) == 0) 0x14 (det 6)
  allChk ([1, 2, 3].map fun k => ensure (at4 t.stride k % u == 0) 0x14 (det (6 + 2 * k)))
  ensure (!t.grid || (t.space == 1 && t.base % 64 == 0 && at4 t.stride 1 % 128 == 64 && decide (t.axis < 2))) 0x14 (det 0)
  if t.empty then .ok () else do
    let inside (a n : Nat) : Bool :=
      n == 0 || (if t.space = 0 then (s.objHolding pol a n).isSome else decide (a + n ≤ 0x300000))
    ensure (inside t.base (t.footLen f)) 0x11 noDetail
    ensure (inside t.sbase (t.scaleLen b)) 0x11 noDetail

/-- Whether a handle is taken: stored, or created in this frame (R197). -/
def Mod.handleTaken (s : Mod) (pol h : Nat) : Bool :=
  (s.td.get (objKey pol h)).isSome || s.stg.any fun e => match e.eff with
    | .descCreate p k _ => p == pol && k == h
    | _ => false

/-- The lowest number from a bound on that a test leaves free. -/
def lowestFree (taken : Nat → Bool) (k : Nat) : Nat → Option Nat
  | 0 => none
  | fuel + 1 => if taken k then lowestFree taken (k + 1) fuel else some k

/-- DESC_CREATE: LEN 64; the reserved bits of the descriptor fail under R196, not R312. -/
def blkDescCreate (_ : Mod) (_ : Nat) (ps : List Word) : Chk Unit := lenChk ps 64

/-- DESC_CREATE validates the descriptor, stores a copy with VALID, POLDER and WRITABLE, and returns the lowest free handle (R196, R197). -/
def planDescCreate (s : Mod) (c : Ctx) (ps : List Word) : Chk Plan := do
  s.descChk c.pol ps
  match lowestFree (s.handleTaken c.pol) 1 65535 with
  | none => .error (0x15, noDetail)
  | some h =>
    let t := Td.of ps
    let w0 := (ps.getD 0 0) ||| BitVec.ofNat 32 (2 ^ 31 + c.pol * 2 ^ 29 + (if t.writableNow ((Fmt.ofCode t.cvc.fmt).getD .f32) then 2 ^ 28 else 0))
    .ok { Plan.ok 0 none [.descCreate c.pol h ⟨w0 :: ps.drop 1, s.fc.num, 0, false⟩] 1 with result := h }

/-- DESC_CREATE (R196). -/
def execDescCreate (c : CmdId) (s : State) : Host.Outcome State Fault Refusal := s.when (s.m.granted c 0x4000 && s.m.inTurn c [0x4000]) (s.m.runCmd c planDescCreate)

/-- DESC_DESTROY: HANDLE. -/
def blkDescDestroy (_ : Mod) (_ : Nat) (ps : List Word) : Chk Unit := do
  lenChk ps 4
  rsvChk ps [.w 0 0xFFFF0000]

/-- Whether an earlier command destroys the same handle in this frame, already or yet to run (R198). -/
def Mod.destroyedBy (s : Mod) (pol h ord : Nat) : Bool :=
  (s.stg.any fun e => match e.eff with
    | .descDestroy p k => p == pol && k == h
    | _ => false)
  || s.cq.cmds.any fun x => x.phase == .granted && x.opcode == 0x4001 && x.pol == pol && decide (x.ord < ord) && pw x.params 0 == h

/-- DESC_DESTROY frees a handle, stale ones included, at the sluice of its frame (R198). -/
def planDescDestroy (s : Mod) (c : Ctx) (ps : List Word) : Chk Plan := do
  let h := pw ps 0
  ensure ((s.td.get (objKey c.pol h)).isSome && !s.destroyedBy c.pol h c.ord) 0x10 (detailAt 0)
  .ok (.ok 0 none [.descDestroy c.pol h] 1)

/-- DESC_DESTROY (R198). -/
def execDescDestroy (c : CmdId) (s : State) : Host.Outcome State Fault Refusal := s.when (s.m.granted c 0x4001) (s.m.runCmd c planDescDestroy)

/-- DESC_READ: HANDLE and DEST. -/
def blkDescRead (_ : Mod) (_ : Nat) (ps : List Word) : Chk Unit := do
  lenChk ps 12
  rsvChk ps [.w 0 0xFFFF0000, .addr 4]

/-- DESC_READ writes the stored 64 bytes (R330). -/
def planDescRead (s : Mod) (c : Ctx) (ps : List Word) : Chk Plan := do
  match s.td.get (objKey c.pol (pw ps 0)) with
  | none => .error (0x10, detailAt 0)
  | some d =>
    ensure (!d.stale) 0x10 (detailAt 0)
    s.destChk c.pol (pq ps 4) 64 4
    .ok (resultPlan c (pq ps 4) (d.words.flatMap fun w => leBytes w.toNat 4))

/-- DESC_READ (R330). -/
def execDescRead (c : CmdId) (s : State) : Host.Outcome State Fault Refusal := s.when (s.m.granted c 0x4002) (s.m.runCmd c planDescRead)

end Sys2Proof.Machine
end

