-- ==== Sys2Proof/Machine/Commit.lean ====
section
/-! DEFINITION. Step 5 of the sluice: configuration transactions commit or are rejected, and registered writes take effect
(02_frames_and_commit.md R37, R39, R51, R53, R54, and the validation rules of each register's chapter). -/

namespace Sys2Proof.Machine

/-! ## Validation (R51) -/

/-- A register's value if a transaction's writes were applied. -/
def Mod.merged (s : Mod) (ws : List TxWr) (r : RegName) (idx : Nat) : Nat :=
  match ws.reverse.find? fun w => w.reg == r && w.idx == idx with
  | some w => ((s.rd r idx &&& ~~~r.desc.tx) ||| (w.val &&& r.desc.tx)).toNat
  | none => (s.rd r idx).toNat

/-- Whether a transaction writes a register. -/
def wrote (ws : List TxWr) (r : RegName) (idx : Nat) : Bool := ws.any fun w => w.reg == r && w.idx == idx

/-- The value of a TX register that a transaction writes. -/
def written (ws : List TxWr) (r : RegName) (idx : Nat) : Nat :=
  match ws.reverse.find? fun w => w.reg == r && w.idx == idx with
  | some w => w.val.toNat
  | none => 0

/-- A frame length change in frame f: all three registers, a length of R37, and a target at least four frames on (R37, R39). -/
def lenChangeChk (ws : List TxWr) (f : Nat) : Option Nat :=
  let k := bits (written ws .FC_FRAME_LEN 0) 20 16
  let at_ := written ws .FC_FRAME_LEN_AT_LO 0 + 2 ^ 32 * written ws .FC_FRAME_LEN_AT_HI 0
  if wrote ws .FC_FRAME_LEN 0 && wrote ws .FC_FRAME_LEN_AT_LO 0 && wrote ws .FC_FRAME_LEN_AT_HI 0 && decide (10 ≤ k ∧ k ≤ 16) && decide (f + 4 ≤ at_) then none
  else some 0x25

/-- A per-channel entry after the writes (R79, R102, R104). -/
def Mod.pcsTxChk (s : Mod) (ws : List TxWr) (i : Nat) : Option Nat :=
  let l := s.merged ws .EX_PCS_CTRL i :: s.merged ws .EX_PCS_SCALE i :: (List.range 8).map fun k => s.merged ws .EX_PCS_TABLE (i * 8 + k)
  if wrote ws .EX_PCS_CTRL i || bits (s.rd .EX_PCS_CTRL i).toNat 31 30 != 0 then pcsEntryChk l else none

/-- An accumulation region after the writes (R149). -/
def Mod.rgnTxChk (s : Mod) (ws : List TxWr) (i : Nat) : Option Nat :=
  let m := s.merged ws
  let span (j : Nat) : Nat × Nat := (bits (m .ACB_RGN_RANGE j) 8 0, bits (m .ACB_RGN_RANGE j) 25 16)
  let a := span i
  let others := ((List.range 16).map (i / 16 * 16 + ·)).filter (· != i)
  if bits (s.rd .ACB_RGN_CTRL i).toNat 9 8 ≠ 0 ∨ 512 < a.1 + a.2 ∨ (a.2 ≠ 0 ∧ bits (m .ACB_RGN_CTRL i) 31 24 = 0) ∨ m .ACB_RGN_DEST i % 64 ≠ 0
    ∨ (others.any fun j => meets a.1 a.2 (span j).1 (span j).2) = true then some 0x1D else none

/-- A gradient slot's entry after the writes: a write that carries an invalid format code is refused as R67 says, other faults as R162 does (R162, R313). -/
def Mod.gsTxChk (s : Mod) (ws : List TxWr) (i : Nat) : Option Nat :=
  let m (r : RegName) : Nat := s.merged ws r i
  let c := m .GS_CTRL
  let fmt := bits c 15 12
  let lo := bits c 19 16
  let hi := bits c 23 20
  let current := c.testBit 30
  let delayed (f : Nat) : Bool := decide (4 ≤ f ∧ f ≤ 6)
  let scaled := current || decide (fmt ≠ 6) || decide (lo < 6)
  let bad := (if current then !decide (1 ≤ fmt ∧ fmt ≤ 5) else !(delayed fmt && delayed lo && delayed hi) || decide (fmt < lo ∨ hi < fmt))
    || (scaled && bits c 11 10 == 0) || (scaled && bits (m .GS_BLOCKS) 23 0 == 0)
    || m .GS_OFS_ADDR_LO % 64 != 0 || m .GS_FLAG_ADDR_LO % 64 != 0 || decide (bits (m .GS_POLICY) 27 24 < 2)
  if wrote ws .GS_CTRL i && [fmt, lo, hi].any (fun k => (Fmt.ofCode k).isNone) then some 0x18
  else if bad then some 0x30 else if c.testBit 9 && !s.bit .HC_FEAT0_SR 0 then some 0x18 else none

/-- A parameter group's entry after the writes (R67, R275). -/
def Mod.groupTxChk (s : Mod) (ws : List TxWr) (i : Nat) : Option Nat :=
  let m (r : RegName) : Nat := s.merged ws r i
  let c := m .UE_GROUP_CTRL
  let g := groupOf i m
  let ufmt := bits c 15 12
  let wfmt := bits c 11 8
  let bad := decide (5 < bits c 27 24) || !(ufmt == 5 || ufmt == 6) || !(wfmt == 6 || wfmt == 7) || (c.testBit 19 && wfmt == 7)
    || (g.isRow && (g.clipIn || g.master || g.width == 0)) || g.base % 64 != 0 || (s.objHolding g.pol g.base g.blockLen).isNone
  if wrote ws .UE_GROUP_CTRL i && [ufmt, wfmt].any (fun k => (Fmt.ofCode k).isNone) then some 0x18 else if bad then some 0x34 else none

/-- Routes and rank maps of a polder after the writes (R365). -/
def Mod.routeTxChk (s : Mod) (ws : List TxWr) (p : Nat) : Option Nat :=
  let rg := s.merged ws .UE_RG_CTRL p
  let n := bits rg 21 16 + 1
  let own := bits rg 29 24
  let h := max 1 (bits rg 11 8)
  let entry (r : Nat) : Nat := s.merged ws .ZL_RANK (p * 64 + r)
  let route (r : Nat) : Nat := s.merged ws .ZL_ROUTE (bits (entry r) 5 0)
  let ok (r : Nat) : Bool := (entry r).testBit 31 && (route r).testBit 31 && decide (bits (route r) 27 24 ≤ h)
  let self := bits (entry own) 5 0 = bits (s.merged ws .ZL_NODE 0) 3 0 * 4 + p
  if (List.range n).all ok && decide self then none else some 0x41

/-- A substitution of the standby after the writes, in frame f (R371). -/
def Mod.substTxChk (s : Mod) (ws : List TxWr) (f : Nat) : Option Nat :=
  let at_ := written ws .ZL_SUBST_AT_LO 0 + 2 ^ 32 * written ws .ZL_SUBST_AT_HI 0
  let v := written ws .ZL_SUBST 0
  if !(wrote ws .ZL_SUBST 0 && wrote ws .ZL_SUBST_AT_LO 0 && wrote ws .ZL_SUBST_AT_HI 0) || decide (at_ < f + 4) then some 0x25
  else if !v.testBit 31 then none
  else
    let topo := s.fld .ZL_TOPO_TOPO 0
    let standby := s.fld .ZL_NODE_SLOT 0 == 8
    if !(topo == 2 || topo == 3) || !s.bit .HC_FEAT0_STANDBY 0 || ((List.range s.polders).any fun p => !(s.fld .ZL_RESV_RESERVED 0).testBit p)
      || v % 16 == s.fld .ZL_NODE_NODE 0 || (standby && s.fld .ZL_NODE_NODE 0 != 0xF) then some 0x41 else none

/-- Whether a die may stop: its polder has no open step, no running loop and no command in flight (R463). -/
def Mod.mayStop (s : Mod) (d : Nat) : Bool := !s.stepping (s.dieOf d) && !s.cq.cmds.any fun c => !c.mgmt && c.pol == s.dieOf d

/-- The reason for which a register's own validation, or the dike, rejects a write of a transaction that closed in frame f; none where they accept it. -/
def Mod.writeChk (s : Mod) (ws : List TxWr) (f : Nat) (w : TxWr) : Option Nat :=
  if w.refused then some 0x50 else
  match w.reg with
  | .FC_FRAME_LEN | .FC_FRAME_LEN_AT_LO | .FC_FRAME_LEN_AT_HI => lenChangeChk ws f
  | .EX_PCS_CTRL | .EX_PCS_SCALE => s.pcsTxChk ws w.idx
  | .EX_PCS_TABLE => s.pcsTxChk ws (w.idx / 8)
  | .ACB_RGN_RANGE | .ACB_RGN_CTRL | .ACB_RGN_SLOT | .ACB_RGN_DEST => s.rgnTxChk ws w.idx
  | .GS_CTRL | .GS_BASE | .GS_OFS_ADDR_LO | .GS_OFS_ADDR_HI | .GS_FLAG_ADDR_LO | .GS_FLAG_ADDR_HI | .GS_POLICY | .GS_BLOCKS => s.gsTxChk ws w.idx
  | .UE_GROUP_CTRL | .UE_GROUP_LR | .UE_GROUP_WD | .UE_GROUP_BETA1 | .UE_GROUP_BETA2 | .UE_GROUP_EPS | .UE_GROUP_GSCALE | .UE_GROUP_B1POW | .UE_GROUP_B2POW
  | .UE_GROUP_BASE_LO | .UE_GROUP_BASE_HI | .UE_GROUP_COUNT_LO | .UE_GROUP_COUNT_HI => s.groupTxChk ws w.idx
  | .UE_VOTE_CTRL => if w.val.getLsbD 0 && !s.bit .HC_FEAT0_HOST_HOLD 0 then some 0x22 else none
  | .UE_VOTE_HOST | .UE_VOTE_HOST_AT_LO | .UE_VOTE_HOST_AT_HI =>
    if wrote ws .UE_VOTE_HOST w.idx && wrote ws .UE_VOTE_HOST_AT_LO w.idx && wrote ws .UE_VOTE_HOST_AT_HI w.idx then none else some 0x22
  | .UE_RG_CTRL => s.routeTxChk ws w.idx
  | .ZL_RANK => s.routeTxChk ws (w.idx / 64)
  | .ZL_ROUTE => (List.range s.polders).findSome? (s.routeTxChk ws)
  | .ZL_TOPO => if 4 < w.val.toNat % 8 then some 0x41 else none
  | .ZL_SUBST | .ZL_SUBST_AT_LO | .ZL_SUBST_AT_HI => s.substTxChk ws f
  | .CQ_RING_LO | .CQ_RING_HI | .CQ_SIZES | .CQ_CPL_LO | .CQ_CPL_HI => if (s.queue w.idx).state = .disabled then none else some 0x07
  | .SP_FUNC_BIND =>
    let r := s.range w.idx
    if s.polders ≤ w.val.toNat % 4 || (List.range r.2).any fun k => (s.queue (r.1 + k)).state != .disabled then some 0x50 else none
  | .MC_TILE_REMAP =>
    let v := w.val.toNat
    let d := bits v 25 24
    if !v.testBit 31 then none
    else if v % 64 < s.tilesOn d && s.tileMarked (d * 48 + v % 64) && !(s.freeSpares d).isEmpty then none else some 0x04
  | .ME_CKPT_RESTORE => if w.val.getLsbD 31 && !s.bit .HC_FEAT0_CHECKPOINT 0 then some 0x02 else none
  | .MC_DIE_CTRL => if [0, 1, 2, 3].any fun d => w.val.getLsbD d && !has s.rel.stopped d && !s.mayStop d then some 0x22 else none
  | _ => none

/-- Whether an open step transaction has declared a register as step state (R51, R162, R275, R365). -/
def Mod.isStepReg (s : Mod) (r : RegName) (idx : Nat) : Bool :=
  let named (f : StepProg → List Nat) (p : Nat) : Bool := s.stepOpen p && match s.ue.progs.get p with
    | some sp => has (f sp) idx
    | none => false
  match r.own with
  | .slot => (List.range s.polders).any (named (·.slots))
  | .group => (List.range s.polders).any (named (·.groups))
  | _ => (r == .ZL_ROUTE || r == .ZL_RANK) && (List.range s.polders).any s.stepOpen

/-- The error of a closed slot, 0 where it commits (R51): its own failure, a rejected write, a register that another transaction has committed at this sluice, step state. -/
def Mod.slotErr (s : Mod) (taken : List (RegName × Nat)) (f : Nat) (c : CtSlot) : Nat :=
  if c.failed then c.err
  else match c.writes.findSome? (s.writeChk c.writes f) with
    | some e => e
    | none => if c.writes.any fun w => taken.any (fun t => t.1 == w.reg && t.2 == w.idx) || s.isStepReg w.reg w.idx then 0x22 else 0

/-! ## Effects of a commit -/

/-- A rejoin is armed at sluice f; it fails with BUSY if something is under way (R368). -/
def Mod.armRejoin (s : Mod) (f link : Nat) : Mod :=
  let at_ (lo hi : RegName) (p : Nat) : Bool := decide (f < s.pair lo hi p)
  let busy := (List.range s.polders).any (fun p => s.stepping p || (s.bit .UE_VOTE_HOST_VERDICT p && at_ .UE_VOTE_HOST_AT_LO .UE_VOTE_HOST_AT_HI p))
    || s.cq.cmds.any (fun c => !c.mgmt) || s.fc.change.isSome || s.zl.subst
  if busy then s.failRejoin 3 else { s with zl := { s.zl with rejoin := some (link, f, none) } }

/-- A die stops: its memory is in self-refresh, and its clocks stop (R463). -/
def Mod.stopDie (s : Mod) (d : Nat) : Mod :=
  { s.setFld .MC_DIE_STEP_STOPPED d 1 with rel := { s.rel with stopped := addOnce s.rel.stopped d, restarting := s.rel.restarting.filter fun x => x.1 != d } }

/-- A die restarts: it counts frames again within 64 frames (R463; log entry 6). -/
def Mod.restartDie (s : Mod) (d f : Nat) : Mod :=
  { s with rel := { s.rel with restarting := s.rel.restarting ++ [(d, f + spanOf 64 [4, f, d])] } }

/-- The dies whose restart is due at sluice f count again. -/
def Mod.restartsDue (s : Mod) (f : Nat) : Mod := (s.rel.restarting.filter fun x => decide (x.2 ≤ f)).foldl (fun s x => s.clockOn x.1) s

/-- A spare takes a failed tile's number, its registers at reset (R392). -/
def Mod.remap (s : Mod) (v : Nat) : Mod :=
  let d := bits v 25 24
  let t := d * 48 + v % 64
  match s.freeSpares d with
  | ph :: _ => ((s.zeroTile t).resetRegs (s.regInDomain 0 (d * 64 + v % 64))).takeSpare ph t
  | [] => s

/-- What a committed write does beside its new value, at sluice f. -/
def Mod.committed (f : Nat) (s : Mod) (w : TxWr) : Mod :=
  let v := w.val.toNat
  match w.reg with
  | .FC_FRAME_LEN => { s with fc := { s.fc with change := some (s.pair .FC_FRAME_LEN_AT_LO .FC_FRAME_LEN_AT_HI 0, bits v 20 16) } }
  | .ZL_CTRL =>
    let k := s.link w.idx
    if v % 2 = 0 then (if k.st = .disabled then s else s.leaveUp w.idx .disabled 7)
    else if k.st = .disabled then s.beginTraining w.idx else s
  | .ZL_REJOIN => if v.testBit 31 then s.armRejoin f (v % 32) else { s with zl := { s.zl with rejoin := none } }
  | .ZL_SUBST => { s with zl := { s.zl with subst := v.testBit 31 } }
  | .UE_VOTE_HOST =>
    { s with ue := { s.ue with verdictAt := s.ue.verdictAt.set w.idx (max f (s.pair .UE_VOTE_HOST_AT_LO .UE_VOTE_HOST_AT_HI w.idx)) } }
  | .MC_TILE_REMAP => if v.testBit 31 then s.remap v else s
  | .ME_CKPT_RESTORE => if v.testBit 31 then s.beginRestore w.idx (v % 65536) f else s
  | .MC_DIE_CTRL => [0, 1, 2, 3].foldl (fun s d =>
      let down := has s.rel.stopped d
      if v.testBit d then s.stopDie d else if down && !s.rel.restarting.any fun x => x.1 == d then s.restartDie d f else s) s
  | _ => s

/-- A per-channel entry's GRID follows its other fields (R101). -/
def Mod.regrid (s : Mod) (i : Nat) : Mod :=
  let l := (s.rd .EX_PCS_CTRL i).toNat :: (s.rd .EX_PCS_SCALE i).toNat :: (List.range 8).map fun k => (s.rd .EX_PCS_TABLE (i * 8 + k)).toNat
  match pcsEntryOf l with
  | c :: _ => s.put .EX_PCS_CTRL i c
  | [] => s

/-- The per-channel entries that writes change. -/
def pcsOf (ws : List TxWr) : List Nat :=
  dedup (ws.filterMap fun w => match w.reg with
    | .EX_PCS_CTRL | .EX_PCS_SCALE => some w.idx
    | .EX_PCS_TABLE => some (w.idx / 8)
    | _ => none)

/-- A change of the topology puts every link that is not DISABLED into RETRAIN (R362). -/
def Mod.retrainAll (s : Mod) : Mod :=
  (List.range 32).foldl (fun s l => if (s.link l).st = .disabled then s else s.leaveUp l .retrain 7) s

/-- A transaction's writes take effect together at sluice f: the values first, then what they do; a function whose binding changes loses its slots (R54). WO fields
keep no value. -/
def Mod.applyTx (s : Mod) (f : Nat) (ws : List TxWr) : Mod :=
  let topo := s.fld .ZL_TOPO_TOPO 0
  let bound := (List.range 8).map s.polderOf
  let s := ws.foldl (fun s w =>
    let m := w.reg.desc.tx &&& ~~~w.reg.desc.wo
    s.put w.reg w.idx ((s.rd w.reg w.idx &&& ~~~m) ||| (w.val &&& m))) s
  let s := (pcsOf ws).foldl Mod.regrid s
  let last := ws.zipIdx.filter fun w => !(ws.drop (w.2 + 1)).any fun x => x.reg == w.1.reg && x.idx == w.1.idx
  let s := last.foldl (fun s w => s.committed f w.1) s
  let s := ((List.range 8).filter fun fn => decide (s.polderOf fn ≠ bound.getD fn 0)).foldl Mod.dropSlots s
  if s.fld .ZL_TOPO_TOPO 0 = topo then s else s.retrainAll

/-- A closed slot is resolved at sluice f: committed, or rejected with its reason; refused writes count at the dike (R51). One that an earlier
commit of the sluice has abandoned is none (R54). -/
def Mod.resolveTx (f : Nat) (acc : Mod × List (RegName × Nat)) (x : Nat × CtSlot) : Mod × List (RegName × Nat) :=
  let (s, taken) := acc
  let (k, c) := x
  if s.ct.slots.get k ≠ some c then (s, taken) else
  let e := s.slotErr taken f c
  let s := (c.writes.filter (·.refused)).foldl (fun s _ => s.countReg .SP_DIKE_DENIED (s.polderOf (k / 16)) 1) s
  let s := s.setSlot (k / 16) (k % 16) ⟨.free, [], false, e⟩
  if e = 0 then (s.applyTx f c.writes, taken ++ c.writes.map fun w => (w.reg, w.idx))
  else
    let subst := c.writes.any fun w => (w.reg == .ZL_SUBST || w.reg == .ZL_SUBST_AT_LO || w.reg == .ZL_SUBST_AT_HI) && (s.writeChk c.writes f w).isSome
    (if subst then s.setFld .ZL_SUBST_STATUS_LAST_ERR 0 e else s, taken)

/-- The closed slots in the order in which their closes were received. -/
def Mod.closedSlots (s : Mod) : List (Nat × CtSlot) :=
  sortBy (fun x => match x.2.st with
    | .closed n => n
    | _ => 0) (s.ct.slots.cells.filter fun x => match x.2.st with
      | .closed _ => true
      | _ => false)

/-- The transactions closed in frame f are resolved (R51). -/
def Mod.commitTxs (s : Mod) (f : Nat) : Mod := (s.closedSlots.foldl (Mod.resolveTx f) (s, [])).1

/-- The slots abandoned in the frame, by their owner or by its Function Level Reset, are free and empty, with TX_ABANDONED (R54). -/
def Mod.abandonSlots (s : Mod) : Mod :=
  let s := s.pci.flr.foldl Mod.dropSlots (s.ct.abandons.foldl (fun s x => s.setSlot x.1 x.2 ⟨.free, [], false, 0x26⟩) s)
  { s with ct := { s.ct with abandons := [] } }

/-! ## Registered writes (R53) -/

/-- The counters that a write of a CLR bit clears; the events of the frame count after it (R182, R210, R242, R372, R400, R414). -/
def clearsOf (w : RegWr) : List RegName :=
  match w.reg with
  | .ST_STATUS => if w.val.getLsbD 31 then [.ST_BLK_SAT, .ST_BLK_ZERO, .ST_SHADOW_CHECKED, .ST_SHADOW_DISAGREE] else []
  | .TD_IDX_CTRL => if w.val.getLsbD 31 then [.TD_IDX_COUNT] else []
  | .MT_ECC_CTRL => if w.val.getLsbD 31 then [.MT_ECC_CORR_HBM, .MT_ECC_CORR_LP, .MT_ECC_UNCORR] else []
  | .BC_CTRL => if w.val.getLsbD 29 then [.BC_SLICES_DONE, .BC_SLICES_FAILED, .BC_STARVED] else []
  | .ZL_CTRL => if w.val.getLsbD 2 then [.ZL_FEC_CORR, .ZL_CRC_ERR, .ZL_RETRY, .ZL_SKEW, .ZL_PROTO_ERR, .ZL_DROP] else []
  | .MC_LEDGER_CTRL => if w.val.getLsbD 30 then [.MC_HANG_COUNT] else []
  | _ => []

/-- Counters are cleared, before the events of the frame are counted. -/
def Mod.clearCounts (s : Mod) : Mod := s.rf.stage.foldl (fun s w => (clearsOf w).foldl (fun s r => s.put r w.idx 0) s) s

/-- A write of CQ_TAIL (R283). -/
def Mod.setTail (s : Mod) (q : Nat) (v : Word) : Mod :=
  let k := s.queue q
  let t := v.toNat % 65536
  s.setQueue q (if 2 ^ s.fld .CQ_SIZES_RING_LOG2 q ≤ t then { k with badDoorbell := true } else { k with tail := t })

/-- A write of CQ_CPL_HEAD: one that would pass the tail is ignored, as is one after a RESET op (R281, R297). -/
def Mod.setCplHead (s : Mod) (q : Nat) (v : Word) : Mod :=
  let k := s.queue q
  let n := 2 ^ s.fld .CQ_SIZES_CPL_LOG2 q
  let h := v.toNat % 65536
  if k.resetting then s
  else if n ≤ h ∨ (k.cplTail + n - k.cplHead) % n < (h + n - k.cplHead) % n then s.setQueue q { k with badDoorbell := true }
  else s.setQueue q { k with cplHead := h }

/-- Whether a queue's ring fields pass R279 and R280. -/
def Mod.ringOk (s : Mod) (q : Nat) : Bool :=
  let r := s.fld .CQ_SIZES_RING_LOG2 q
  let c := s.fld .CQ_SIZES_CPL_LOG2 q
  let base := s.fld .CQ_RING_LO_ADDR q * 4096 + 2 ^ 32 * s.fld .CQ_RING_HI_ADDR q
  match s.queueOwner q with
  | none => false
  | some fn => decide (6 ≤ r ∧ r ≤ 16 ∧ 4 ≤ c ∧ c ≤ 16) && match s.objHolding (s.polderOf fn) base (64 * 2 ^ r) with
    | some (_, o) => !o.readonly && !o.window
    | none => false

/-- CQ_CMD at the sluice (R281). A RESET stops acceptance; it ends when nothing is in flight. -/
def Mod.queueOp (s : Mod) (q op : Nat) : Mod :=
  let k := s.queue q
  if k.resetting then s else
  match op, k.state with
  | 1, .disabled => s.setQueue q (if s.ringOk q then { k with state := .running } else { k with errStatus := 0x07 })
  | 2, .running => s.setQueue q { k with state := .paused }
  | 3, .paused | 3, .error => s.setQueue q { k with state := .running }
  | 4, .running | 4, .paused | 4, .error => s.setQueue q { k with resetting := true }
  | _, _ => s

/-- The ledger is emptied (R400). -/
def Mod.clearLedger (s : Mod) : Mod := (List.range 256).foldl (fun s i => s.put .MC_LEDGER i 0) s

/-- A registered write takes effect in step 5: bits of its kinds, then what its register does. -/
def Mod.applyWr (s : Mod) (w : RegWr) : Mod :=
  let d := w.reg.desc
  let old := s.rd w.reg w.idx
  let new := ((old &&& ~~~d.rw) ||| (w.val &&& d.rw)) &&& ~~~(w.val &&& d.w1c) ||| (w.val &&& d.w1s)
  match w.reg with
  | .CQ_TAIL => s.setTail w.idx w.val
  | .CQ_CPL_HEAD => s.setCplHead w.idx w.val
  | .CQ_CMD => s.queueOp w.idx (w.val.toNat % 8)
  | .CQ_STATE => if w.val.getLsbD 5 then s.setQueue w.idx { s.queue w.idx with badDoorbell := false } else s
  | .MQ_TAIL => { s with cq := { s.cq with mqs := s.cq.mqs.set w.idx { s.cq.mqs.getD w.idx ⟨0, 0, true⟩ with tail := w.val.toNat % 16 } } }
  | .MC_LEDGER_CTRL => if w.val.getLsbD 31 && w.fn == 0 then s.clearLedger else s
  | .ZL_CTRL => if w.val.getLsbD 1 && (s.link w.idx).st == .up then s.leaveUp w.idx .retrain 7 else s
  | _ => s.put w.reg w.idx new

/-- The registered writes of the frame take effect, in the order in which they reached the hub; clears of BAD_DOORBELL come first, so that no event of the frame
is lost (R15, R53). -/
def Mod.applyWrites (s : Mod) : Mod :=
  let first := s.rf.stage.filter fun w => w.reg == .CQ_STATE
  let rest := s.rf.stage.filter fun w => w.reg != .CQ_STATE
  let s := { s with rf := { s.rf with stage := [] } }
  (first ++ rest).foldl Mod.applyWr s

/-- The flags that hardware set in the frame are set, after the clears of the frame (R15). An alert cause that was clear sends its message (R302). -/
def Mod.applyFlags (s : Mod) : Mod :=
  let fs := s.rf.flags
  let s := { s with rf := { s.rf with flags := [] } }
  fs.foldl (fun s x =>
    if x.reg = .CQ_ALERT_CAUSE then
      let new := x.bits &&& ~~~s.rd x.reg x.idx
      let s := s.put x.reg x.idx (s.rd x.reg x.idx ||| x.bits)
      if new ≠ 0 && s.bit .CQ_ALERT_CTRL_EN x.idx then s.due (s.fld .CQ_ALERT_CTRL_FUNC x.idx) (s.fld .CQ_ALERT_CTRL_VECTOR x.idx) else s
    else s.put x.reg x.idx (s.rd x.reg x.idx ||| x.bits)) s

end Sys2Proof.Machine
end

