-- ==== Sys2Proof/Machine/Queue.lean ====
section
/-! DEFINITION. How command queues accept and check packets (10_command_interface.md R278 to R289, R312, R313), messages of unmasked vectors (R302),
and the Function Level Reset (18_pins_and_electrical.md R496). -/

namespace Sys2Proof.Machine

/-! ## Acceptance (R283 to R286) -/

/-- The device address of a queue's command ring. -/
def Mod.ringBase (s : Mod) (q : Nat) : Nat := s.fld .CQ_RING_LO_ADDR q * 4096 + 2 ^ 32 * s.fld .CQ_RING_HI_ADDR q

/-- The next packet of a queue: its words and the slots that it takes, once all of them are available; a packet that would run past the ring's last
slot takes the slots up to it (R283). -/
def Mod.nextPacket (s : Mod) (q pol : Nat) : Option (List Word × Nat) :=
  let k := s.queue q
  let r := 2 ^ s.fld .CQ_SIZES_RING_LOG2 q
  let slot := (k.head + k.taken) % r
  let avail := (k.tail + r - k.head) % r - k.taken
  if avail = 0 then none else
  let at_ := s.ringBase q + 64 * slot
  let len := s.getN pol (at_ + 4) 4 % 512
  let n := min (1 + ceilDiv len 64) (r - slot)
  if avail < n ∨ (s.downAt pol at_ (64 * n)).isSome then none
  else some ((List.range (min (16 + ceilDiv len 4) (16 * n))).map fun i => BitVec.ofNat 32 (s.getN pol (at_ + 4 * i) 4), n)

/-- Whether a queue's completion ring has room for one command more (R285). -/
def Mod.cplRoom (s : Mod) (q : Nat) : Bool :=
  let k := s.queue q
  let n := 2 ^ s.fld .CQ_SIZES_CPL_LOG2 q
  decide (s.inflight q + 1 < n - 1 - (k.cplTail + n - k.cplHead) % n)

/-- What an eligible queue offers: its function and its next packet (R285). -/
def Mod.offer (s : Mod) (q : Nat) : Option (Nat × List Word × Nat) :=
  let k := s.queue q
  match s.queueOwner q with
  | none => none
  | some fn =>
    if k.state != .running || k.resetting || decide (16 ≤ s.inflight q) || !s.cplRoom q then none
    else (s.nextPacket q (s.polderOf fn)).map fun x => (fn, x.1, x.2)

/-- A queue's next command is accepted at sluice f; its valid waits on weirs of its polder are posted (R285, R289). -/
def Mod.acceptOne (f : Nat) (s : Mod) (q : Nat) : Mod :=
  match s.offer q with
  | none => s
  | some (fn, words, slots) =>
    let k := s.queue q
    let p := s.polderOf fn
    let c : Cmd := { mgmt := false, qn := q, seq := k.seq, fn := fn, pol := p, ord := s.cq.nextOrd, accepted := f, words := words, slots := slots, waits := [],
                     relAt := f, phase := .accepted, first := 0, fin := 0, status := 0, detail := noDetail, result := 0, sr := false, inexact := false,
                     replayed := false, sigs := [], caps := [], land := [], told := false, note := 0 }
    let c := { c with waits := c.headerWaits.filter fun w => s.weirPol w.weir == p }
    let s := s.setQueue q { k with seq := (k.seq + 1) % 2 ^ 32, taken := k.taken + slots }
    let s := { s with cq := { s.cq with cmds := s.cq.cmds ++ [c], nextOrd := s.cq.nextOrd + 1, rr := s.cq.rr.set (q % 4) q } }
    let s := ((s.hubEvent f p 0 1).hubEvent f p 5 (if c.waits.isEmpty then 0 else 1)).note p f (.of 5 c.src q c.seq c.opcode (c.w 2))
    c.waits.foldl (fun s w => s.note p f (.of 1 c.src w.weir c.seq w.limit (s.rd .WEIR_LEVEL w.weir).toNat)) s

/-- The next queue of a processor's round robin among the eligible ones (R285). -/
def Mod.nextQueue (s : Mod) (n : Nat) : Option Nat :=
  let qs := (s.cq.queues.cells.map (·.1)).filter fun q => q % 4 == n && (s.offer q).isSome
  match s.cq.rr.get n with
  | some last => (qs.find? fun q => decide (last < q)).orElse fun _ => qs.head?
  | none => qs.head?

/-- A processor accepts up to k commands, one per visit (R285). -/
def Mod.acceptUpTo (f n : Nat) : Nat → Mod → Mod
  | 0, s => s
  | k + 1, s => match s.nextQueue n with
    | some q => Mod.acceptUpTo f n k (s.acceptOne f q)
    | none => s

/-- Step 8 of R45 at sluice f: CQ_HEAD moves past what was accepted a sluice ago; each processor that is not halted accepts up to 16 commands; the waits
just posted are tested against the counts that step 7 left (R285, R286, R289, R448). -/
def Mod.acceptAll (s : Mod) (f : Nat) : Mod :=
  let moved (q : Nat) (k : Queue) : Queue := { k with head := (k.head + k.taken) % 2 ^ s.fld .CQ_SIZES_RING_LOG2 q, taken := 0 }
  let s := { s with cq := { s.cq with queues := s.cq.queues.map moved } }
  let old := s.cq.nextOrd
  let s := [0, 1, 2, 3].foldl (fun s n => if s.hcpHalted n f then s else Mod.acceptUpTo f n 16 s) s
  let full (q : Nat) (k : Queue) : Queue :=
    { k with cplFull := k.state == .running && !k.resetting && decide (s.inflight q < 16) && !s.cplRoom q
        && (s.queueOwner q).any fun fn => (s.nextPacket q (s.polderOf fn)).isSome }
  let s := { s with cq := { s.cq with queues := s.cq.queues.map full } }
  let new := s.cq.cmds.filter fun c => !c.mgmt && decide (old ≤ c.ord)
  (dedup (new.flatMap fun c => c.waits.map (·.weir))).foldl (Mod.releaseWeir f) s

/-! ## The checks of a packet (R288) -/

/-- The parameter-block check of a command's opcode (R312); none where CL1 defines no such opcode. -/
def blockCheck (op : Nat) (step : Bool) : Option (Mod → Nat → List Word → Chk Unit) :=
  match op with
  | 0x0000 => some blkNop
  | 0x0001 => some blkDelay
  | 0x0002 => some blkSignal
  | 0x0003 => some blkWeirClear
  | 0x0004 => some blkNop
  | 0x0005 => some (blkRunProgram step)
  | 0x1000 => some blkFwdProduct
  | 0x1001 => some blkPcsLoad
  | 0x1002 => some blkCollectOpen
  | 0x1003 => some blkCollectClose
  | 0x2000 => some blkRevProduct
  | 0x2001 => some blkRowOp
  | 0x2002 => some blkExpandW
  | 0x3000 => some blkQuantize
  | 0x3001 => some blkAmax
  | 0x3002 => some blkHistRead
  | 0x3003 => some blkSlotClear
  | 0x4000 => some blkDescCreate
  | 0x4001 => some blkDescDestroy
  | 0x4002 => some blkDescRead
  | 0x4003 => some blkTransform
  | 0x4004 => some blkObjAlloc
  | 0x4005 => some blkObjRelease
  | 0x4006 => some blkMigrate
  | 0x4007 => some blkWindowFill
  | 0x4008 => some blkHostMove
  | 0x4009 => some blkHostMove
  | 0x400A => some blkImport
  | 0x5000 => some blkReduce
  | 0x5001 => some blkGroupInit
  | 0x6000 => some blkStepLoad
  | 0x6001 => some blkStepRun
  | 0x6002 => some blkLoopStart
  | 0x6003 => some blkLoopStop
  | 0x6004 => some blkCkptTake
  | 0x6005 => some blkCkptDrain
  | 0x6006 => some blkReplayDiag
  | 0x6007 => some blkRecordRead
  | 0x6008 => some blkSeal
  | 0x7000 => some (blkEmbLookup step)
  | 0x7001 => some blkEmbScatterAdd
  | 0x7002 => some blkEmbStageBind
  | 0xF000 => some blkDbgRead
  | 0xF001 => some blkTraceCtrl
  | 0xF002 => some blkBreakSet
  | 0xF003 => some blkBreakResume
  | _ => none

/-- The HC_FEAT0 bit that an opcode needs (R313). -/
def featureOf (op : Nat) : Option Nat :=
  match op with
  | 0x6002 | 0x6003 => some 9
  | 0x6004 | 0x6005 => some 8
  | 0x7000 | 0x7001 | 0x7002 => some 7
  | 0x4007 => some 6
  | 0x6008 => some 3
  | 0x400A => some 1
  | _ => none

/-- Check 2 of R288: RSV bits of the header, LEN, and the ring's last slot; the word that fails. -/
def Cmd.badWord (c : Cmd) : Option Nat :=
  let rsv (i : Nat) : Nat :=
    if i = 0 then 0x1FFF0000 else if i = 1 then 0xFFFFFE00 else if 3 ≤ i ∧ i ≤ 6 then 0x40000000 else if 12 ≤ i then 0xFFFFFFFF else 0
  (List.range 16).find? fun i => c.w i &&& rsv i != 0
    || (i == 1 && (decide (448 < c.len) || c.len % 4 != 0 || (!c.mgmt && decide (c.slots < 1 + ceilDiv c.len 64))))

/-- Checks 2 to 4 of R288. -/
def Mod.headerChk (s : Mod) (c : Cmd) : Chk Unit := do
  match c.badWord with
  | some i => .error (0x03, i)
  | none => .ok ()
  match (List.range 8).find? fun i => (c.w (3 + i)).testBit 31 && s.weirPol (bits (c.w (3 + i)) 29 16) != c.pol with
  | some i => .error (0x50, 3 + i)
  | none => .ok ()
  ensure (!c.step || s.stepOpen c.pol) 0x05 0

/-- The checks of R288 of a packet on a command queue. -/
def Mod.packetChk (s : Mod) (c : Cmd) : Chk Unit := do
  match blockCheck c.opcode c.step with
  | none => .error (0x02, 0)
  | some blk =>
    ensure ((featureOf c.opcode).all fun b => (s.rd .HC_FEAT0 0).toNat.testBit b) 0x02 0
    ensure (c.opcode / 4096 != 15 || !s.conf c.pol) 0x52 0
    s.headerChk c
    blk s c.pol c.params

/-- A packet is read and checked in the frame after its acceptance (R286, R288). CKPT_TAKE keeps its range array (R338), SEAL seals its ranges (R433). -/
def Mod.checkOne (s : Mod) (c : Cmd) : Mod :=
  match s.packetChk c with
  | .error (st, d) => s.setCmd { c with phase := .decided, status := st, detail := d, fin := s.fc.num, waits := [] }
  | .ok () =>
    let c := { c with phase := .ready }
    if c.opcode = 0x0005 then s.setCmd { c with words := c.words ++ (List.range 16).map fun k => BitVec.ofNat 32 (s.getN c.pol (pq c.params 0 + 4 * k) 4) }
    else if c.opcode = 0x6004 then s.setCmd { c with words := c.words ++ s.ckptArray c.pol c.params }
    else if c.opcode = 0x6008 then (s.setCmd c).beginSeal c
    else s.setCmd c

/-- The packets accepted at the sluice before are checked, those of processors that are not halted (R286, R448). -/
def Mod.checkAll (s : Mod) (f : Nat) : Mod :=
  (s.cq.cmds.filter fun c => !c.mgmt && c.phase == .accepted && decide (c.accepted < f) && !s.hcpHalted (c.qn % 4) f).foldl Mod.checkOne s

/-- A queue that RESET has stopped: with nothing in flight it is DISABLED and its counts start anew; what
ERR_STATUS, CQ_ERR_SEQ and BAD_DOORBELL show stays (R281, R299). -/
def Mod.resetQueue (s : Mod) (q : Nat) : Mod :=
  if s.inflight q = 0 then
    let k := s.queue q
    s.setQueue q { Queue.fresh with errStatus := k.errStatus, errSeq := k.errSeq, badDoorbell := k.badDoorbell }
  else s

/-- Every queue under RESET. -/
def Mod.resetQueues (s : Mod) : Mod :=
  ((s.cq.queues.cells.filter fun x => x.2.resetting).map (·.1)).foldl Mod.resetQueue s

/-- What ended commands leave behind at sluice f: a loop, a REDUCE's bucket, an import's place end with their command
(R333, R337, R385); the LOOP_STOP commands of the loop complete after step 7 (R290). -/
def Mod.strays (s : Mod) (f : Nat) : Mod :=
  let live (q k : Nat) : Bool := s.cq.cmds.any fun c => !c.mgmt && c.qn == q && c.seq == k && !c.done f
  let s := { s with ue := { s.ue with buckets := s.ue.buckets.map fun _ l => l.filter fun b => b.owner.all fun (o : Nat × Nat) => live o.1 o.2 }
                    sec := { s.sec with imports := s.sec.imports.filter fun x => live x.1 x.2.1 } }
  let t := s.ue.loops.cells.foldl (fun s (l : Nat × Loop) => if live l.2.q l.2.seq then s else s.endLoop l.1 f 0xF0 l.2) s
  let new := t.cq.cmds.filter fun c => c.phase == .decided && s.cq.cmds.any fun x => x.same c && x.phase != .decided
  { t with wr := { t.wr with sigs := t.wr.sigs ++ new.flatMap t.signalsOf } }

/-! ## MSI-X vectors and Function Level Reset -/

/-- A vector is unmasked: a write of its Mask bit, which sends its pending message (R301, R302). -/
def Mod.unmask (s : Mod) (fn v : Nat) : Mod :=
  let k := fn * 2048 + v
  (s.setVec k { s.pci.vecs.getD k .zero with masked := false }).flushVec k

/-- VECTOR_UNMASK (R302). -/
def execVectorUnmask (f : Fin 8) (v : Fin 2048) (s : State) : Host.Outcome State Fault Refusal := s.when (s.m.pci.up && has s.m.pci.memEn f) (s.m.unmask f v)

/-- The queues that a Function Level Reset empties at sluice f, after step 7: what executes is aborted, its signals with ALWAYS staged into the next frame, and every
reply that is not posted is lost (R290, R300, R342, R496). -/
def Mod.flrQueues (f : Nat) (s : Mod) (fn : Nat) : Mod :=
  let mine (c : Cmd) : Bool := !c.mgmt && s.queueOwner c.qn == some fn
  let run := (s.cq.cmds.filter fun c => mine c && c.phase == .running && !c.done f).map fun c => { c with status := 0xF0 }
  let qs := (s.cq.queues.cells.map (·.1)).filter fun q => s.queueOwner q == some fn
  let s := { s with wr := { s.wr with sigs := s.wr.sigs ++ run.flatMap s.signalsOf } }
  let s := (s.cq.cmds.filter mine).foldl Mod.dropCmd s
  let steps := (s.stepOf (s.polderOf fn)).any fun (st : Step) => match st.by_ with
    | .run q _ => has qs q
    | .diag q _ _ => has qs q
    | .loop => (s.ue.loops.get (s.polderOf fn)).any fun (l : Loop) => has qs l.q
  if run.any (·.step) || steps then s.abandonStep (s.polderOf fn) 64 true false else s

/-- A Function Level Reset: its MSI-X table and configuration state return to reset at once; F0's sessions end and its IDE streams leave the secure state. Its queues take
RESET, and it abandons its configuration slots, at the sluice (R54, R281, R496). -/
def Mod.functionReset (s : Mod) (fn : Nat) : Mod :=
  let qs := (s.cq.queues.cells.map (·.1)).filter fun q => s.queueOwner q == some fn
  let s := { s with rf := { s.rf with stage := s.rf.stage ++ qs.map fun q => RegWr.mk fn .CQ_CMD q 4#32 }, pci := { s.pci with flr := addOnce s.pci.flr fn } }
  let other (k : Nat) : Bool := k / 2048 != fn
  let s := { s with pci := { s.pci with vecs := s.pci.vecs.filter (fun k _ => other k), pend := s.pci.pend.filter other, due := s.pci.due.filter other
                                        memEn := s.pci.memEn.filter (· != fn), msixEn := s.pci.msixEn.filter (· != fn), fmask := s.pci.fmask.filter (· != fn), bars := s.pci.bars.filter fun k _ => k / 3 != fn
                                        held := s.pci.held.filter fun a => a.fn != fn } }
  if fn = 0 then { s with sec := { s.sec with sessions := s.sec.sessions.filter (fun x => x.fn != 0), ide := [] } } else s

/-- FUNCTION_LEVEL_RESET (R496). -/
def execFunctionLevelReset (f : Fin 8) (s : State) : Host.Outcome State Fault Refusal := s.when s.m.pci.up (s.m.functionReset f)

end Sys2Proof.Machine
end

