-- ==== Sys2Proof/Machine/Mgmt.lean ====
section
/-! DEFINITION. The management queues and their opcodes, class 0xE (10_command_interface.md R304 to R306, 11_command_reference.md R342,
14_self_test.md R408 to R414, 15_security_and_polders.md R416, R420). -/

namespace Sys2Proof.Machine

/-- The frame in which the management controller works: the hub's, or its own count while no sluice is taken (R306). -/
def Mod.mgmtNow (s : Mod) : Nat := if s.running then s.fc.num else s.fc.mgmt

/-- A function's management queue. -/
def Mod.mq (s : Mod) (fn : Nat) : MQueue := s.cq.mqs.getD fn ⟨0, 0, true⟩

/-! ## Acceptance -/

/-- The words of a management slot: the packet's header and LEN bytes of parameters. -/
def Mod.slotWords (s : Mod) (fn k : Nat) : List Word :=
  let w (i : Nat) : Word := s.cq.mqWords.getD (mqKey fn (0x200 * k + 4 * i)) 0
  (List.range (min 128 (16 + ceilDiv ((w 1).toNat % 512) 4))).map w

/-- Before a start is done, the management queue accepts TELEMETRY and RESET_DOMAIN alone (R389). -/
def Mod.mgmtMay (s : Mod) (op : Nat) : Bool := s.bit .MC_START_STATUS_DONE 0 || op == 0xE001 || op == 0xE005

/-- A function's next management packet is accepted at sluice f, with up to 8 in flight; PHASE turns with each pass of the index (R305). -/
def Mod.acceptMgmtOne (f fn : Nat) (s : Mod) : Mod :=
  let m := s.mq fn
  let words := s.slotWords fn (m.head % 8)
  if m.head = m.tail ∨ 8 ≤ (s.cq.cmds.filter fun c => c.mgmt && c.qn == fn).length ∨ !s.mgmtMay ((words.getD 0 0).toNat % 65536) then s else
  let p := s.polderOf fn
  let c : Cmd := { mgmt := true, qn := fn, seq := m.head, fn := fn, pol := p, ord := s.cq.nextOrd, accepted := f, words := words, slots := if m.phase then 1 else 0,
                   waits := [], relAt := f, phase := .accepted, first := 0, fin := 0, status := 0, detail := noDetail, result := 0, sr := false, inexact := false,
                   replayed := false, sigs := [], caps := [], land := [], told := false, note := 0 }
  let c := { c with waits := c.headerWaits.filter fun w => s.weirPol w.weir == p }
  let next := (m.head + 1) % 16
  let s := { s with cq := { s.cq with cmds := s.cq.cmds ++ [c], nextOrd := s.cq.nextOrd + 1
                                      mqs := s.cq.mqs.set fn { m with head := next, phase := if next = 0 then !m.phase else m.phase } } }
  let s := ((s.hubEvent f p 0 1).hubEvent f p 5 (if c.waits.isEmpty then 0 else 1)).note p f (.of 5 c.src fn c.seq c.opcode (c.w 2))
  c.waits.foldl (fun s w => s.note p f (.of 1 c.src w.weir c.seq w.limit (s.rd .WEIR_LEVEL w.weir).toNat)) s

/-- Every function's management packets are accepted at sluice f; their waits are tested against the counts that the sluice left (R289, R305). -/
def Mod.acceptMgmt (s : Mod) (f : Nat) : Mod :=
  let old := s.cq.nextOrd
  let s := (List.range 8).foldl (fun s fn => (List.range 8).foldl (fun s _ => s.acceptMgmtOne f fn) s) s
  let new := s.cq.cmds.filter fun c => c.mgmt && decide (old ≤ c.ord)
  (dedup (new.flatMap fun c => c.waits.map (·.weir))).foldl (Mod.releaseWeir f) s

/-! ## Checks -/

/-- Whether a management opcode is privileged whatever its parameters (R342). -/
def privileged (op : Nat) : Bool := op == 0xE001 || op == 0xE002 || op == 0xE003 || op == 0xE004 || op == 0xE006 || op == 0xE007 || op == 0xE008

/-- ABORT: SCOPE and TARGET; another function's queue or polder, and the module, are F0's alone. -/
def chkAbort (s : Mod) (fn : Nat) (ps : List Word) : Chk Unit := do
  lenChk ps 8
  rsvChk ps [.w 0 0xFFFFFFFC]
  let scope := pw ps 0
  let t := pw ps 4
  ensure (decide (scope ≤ 2)) 0x04 (detailAt 0)
  ensure (scope != 0 || decide (t < 16384)) 0x04 (detailAt 4)
  ensure (scope != 1 || decide (t < s.polders)) 0x04 (detailAt 4)
  ensure (fn == 0 || (scope == 0 && s.queueOwner t == some fn) || (scope == 1 && t == s.polderOf fn)) 0x51 (detailAt 0)

/-- RESET_DOMAIN: KIND and an INDEX that names a domain (R383). -/
def chkResetDomain (s : Mod) (_ : Nat) (ps : List Word) : Chk Unit := do
  lenChk ps 8
  rsvChk ps [.w 0 0xFFFFFFF8]
  let i := pw ps 4
  ensure (decide (pw ps 0 ≤ 5)) 0x04 (detailAt 0)
  ensure (match pw ps 0 with
    | 0 => decide (i < 256 ∧ i % 64 < s.tilesOn (i / 64))
    | 1 => decide (i < 4) && !has s.rel.dieDisabled i
    | 3 => decide (i < 32)
    | 4 => decide (i < s.polders)
    | _ => i == 0) 0x04 (detailAt 4)

/-- QUOTA_SET: POLDER and its pages. -/
def chkQuotaSet (s : Mod) (_ : Nat) (ps : List Word) : Chk Unit := do
  lenChk ps 12
  rsvChk ps [.w 0 0xFFFFFFFC]
  ensure (decide (pw ps 0 < s.polders)) 0x04 (detailAt 0)

/-- The queue ranges as the assignments of this frame leave them. -/
def Mod.assigned (s : Mod) : Tbl (Nat × Nat) :=
  (s.cq.cmds.filter fun c => c.mgmt && c.opcode == 0xE003 && c.phase == .decided && c.status == 0).foldl
    (fun t c => t.set (pw c.params 0 % 8) (if pw c.params 4 / 65536 = 0 then (0, 0) else (pw c.params 4 % 65536, pw c.params 4 / 65536))) s.cq.ranges

/-- QUEUE_ASSIGN: FUNC and a range whose queues are DISABLED and no other function's; FUNC's previous queues are DISABLED too (R342). -/
def chkQueueAssign (s : Mod) (_ : Nat) (ps : List Word) : Chk Unit := do
  lenChk ps 8
  rsvChk ps [.w 0 0xFFFFFFF8]
  let fn := pw ps 0
  let first := pw ps 4 % 65536
  let count := pw ps 4 / 65536
  let t := s.assigned
  let old := t.getD fn (0, 0)
  let inR (r : Nat × Nat) (q : Nat) : Bool := decide (r.1 ≤ q ∧ q < r.1 + r.2)
  ensure (s.cq.queues.cells.all fun x => x.2.state == .disabled || !(inR (first, count) x.1 || inR old x.1)) 0x04 noDetail
  ensure ((List.range 8).all fun g => g == fn || !meets first count (t.getD g (0, 0)).1 (t.getD g (0, 0)).2) 0x04 (detailAt 4)
  ensure (count == 0 || decide (first + count ≤ 16384)) 0x04 (detailAt 4)

/-- POWER_CAP: a cap in W. -/
def chkPowerCap (_ : Mod) (_ : Nat) (ps : List Word) : Chk Unit := lenChk ps 4

/-- TELEMETRY: SENSOR. -/
def chkTelemetry (_ : Mod) (_ : Nat) (ps : List Word) : Chk Unit := do
  lenChk ps 4
  rsvChk ps [.w 0 0xFFFF0000]

/-- Whether a running step program of a polder may name a tile: one of its programs names the die (log entry 10). -/
def Mod.stepNames (s : Mod) (die : Nat) : Bool :=
  match s.ue.progs.get (s.dieOf die) with
  | some sp => sp.progs.any fun a => (s.getN (s.dieOf die) (a + 4) 4).testBit die
  | none => false

/-- SELFTEST: its operation; OFFLINE needs an idle tile (14). -/
def chkSelftest (s : Mod) (_ : Nat) (ps : List Word) : Chk Unit := do
  lenChk ps 8
  let w := pw ps 0
  rsvChk ps [.w 0 0x00FFFFF8, .w 4 0xFFFFFFFF]
  ensure (decide (w % 8 ≤ 2)) 0x04 (detailAt 0)
  let t := ctrlTile w
  if w % 8 = 0 then
    ensure (decide (t % 48 < s.tilesOn (t / 48)) && decide (bits w 29 24 < 48)) 0x04 (detailAt 0)
    ensure (!s.tileMarked t) 0xF9 noDetail
    ensure (s.tileLive t && !(s.cq.cmds.any fun c => !c.mgmt && s.worksOnTile c t) && !s.stepNames (t / 48)) 0x04 (detailAt 0)
  else ensure (!has s.rel.dieDisabled (bits w 31 30)) 0x04 (detailAt 0)

/-- POLDER_SET: COUNT 1, 2 or 4. -/
def chkPolderSet (_ : Mod) (_ : Nat) (ps : List Word) : Chk Unit := do
  lenChk ps 4
  rsvChk ps [.w 0 0xFFFFFFF8]
  ensure (pw ps 0 == 1 || pw ps 0 == 2 || pw ps 0 == 4) 0x04 (detailAt 0)

/-- CONF_SET: POLDER and ENABLE; to enable needs the feature (R313). -/
def chkConfSet (s : Mod) (_ : Nat) (ps : List Word) : Chk Unit := do
  lenChk ps 4
  rsvChk ps [.w 0 0xFFFFFEFC]
  ensure (!(pw ps 0).testBit 8 || (s.rd .HC_FEAT0 0).toNat.testBit 1) 0x02 0
  ensure (decide (pw ps 0 % 4 < s.polders)) 0x04 (detailAt 0)

/-- The parameter-block check of a management opcode. -/
def mgmtBlock (op : Nat) : Option (Mod → Nat → List Word → Chk Unit) :=
  match op with
  | 0xE000 => some chkAbort
  | 0xE001 => some chkResetDomain
  | 0xE002 => some chkQuotaSet
  | 0xE003 => some chkQueueAssign
  | 0xE004 => some chkPowerCap
  | 0xE005 => some chkTelemetry
  | 0xE006 => some chkSelftest
  | 0xE007 => some chkPolderSet
  | 0xE008 => some chkConfSet
  | _ => none

/-- The checks of R288 of a management packet. -/
def Mod.mgmtChk (s : Mod) (c : Cmd) : Chk Unit := do
  match mgmtBlock c.opcode with
  | none => .error (0x02, 0)
  | some blk =>
    ensure (c.fn == 0 || !privileged c.opcode) 0x51 0
    s.headerChk c
    blk s c.fn c.params

/-- Whether a management packet may execute now: accepted, its waits released, its order kept; what acts on the hub's state waits while the hub is
stopped or in reset (R306). -/
def Mod.mgmtOpen (s : Mod) (c : Cmd) : Bool :=
  c.mgmt && c.phase == .accepted && c.waits.isEmpty
    && (!c.order || !s.cq.cmds.any fun y => y.mgmt && y.qn == c.qn && decide (y.ord < c.ord))
    && (s.running || c.opcode == 0xE001 || c.opcode == 0xE004 || c.opcode == 0xE005)

/-- Whether the management packet of a function's slot index is of an opcode and may execute now. -/
def Mod.mgmtReady (s : Mod) (f : Fin 8) (k : Fin 16) (op : Nat) : Bool := s.fc.window.isNone && (s.mgmtCmd f k).any fun c => c.opcode == op && s.mgmtOpen c

/-- A management packet is decided in this frame. -/
def Mod.mgmtEnd (s : Mod) (c : Cmd) (status detail result : Nat) : Mod :=
  s.setCmd { c with phase := .decided, status := status, detail := detail, result := BitVec.ofNat 64 result, fin := s.mgmtNow, waits := []
                    first := if status = 0 then s.mgmtNow else 0 }

/-- A management packet executes: a failed check completes it; else it acts. -/
def Mod.mgmtRun (s : Mod) (c : Cmd) (act : Mod → Cmd → Mod) : Mod :=
  match s.mgmtChk c with
  | .error (st, d) => s.mgmtEnd c st d 0
  | .ok () => act s c

/-- The row of a management packet. -/
def State.mgmt (s : State) (f : Fin 8) (k : Fin 16) (op : Nat) (act : Mod → Cmd → Mod) : Host.Outcome State Fault Refusal :=
  s.when (s.m.mgmtReady f k op) (match s.m.mgmtCmd f k with
    | some c => s.m.mgmtRun c act
    | none => s.m)

/-! ## The opcodes -/

/-- ABORT and QUEUE_ASSIGN, and all else that acts at the frame's sluice, are decided. -/
def Mod.actDone (s : Mod) (c : Cmd) : Mod := s.mgmtEnd c 0 noDetail 0

/-- ABORT: every executing command in the scope ends with ABORTED at the frame's sluice, after step 7 (R290, R385). -/
def execAbort (f : Fin 8) (k : Fin 16) (s : State) : Host.Outcome State Fault Refusal := s.mgmt f k 0xE000 Mod.actDone

/-- RESET_DOMAIN asks for a reset, which begins at the frame's sluice; it completes at the release (R383). -/
def Mod.actResetDomain (s : Mod) (c : Cmd) : Mod :=
  (s.setCmd { c with phase := .running, first := s.mgmtNow, fin := never }).askReset (pw c.params 0) (pw c.params 4) 0 [(c.qn, c.seq)]

/-- RESET_DOMAIN (R384). -/
def execResetDomain (f : Fin 8) (k : Fin 16) (s : State) : Host.Outcome State Fault Refusal := s.mgmt f k 0xE001 Mod.actResetDomain

/-- QUOTA_SET sets a polder's quotas at the sluice (R219). -/
def Mod.actQuotaSet (s : Mod) (c : Cmd) : Mod :=
  let p := pw c.params 0
  ((s.stage 0 (.reg .MT_QUOTA_HBM p (BitVec.ofNat 32 (pw c.params 4)))).stage 0 (.reg .MT_QUOTA_LP p (BitVec.ofNat 32 (pw c.params 8)))).actDone c

/-- QUOTA_SET (R219, R342). -/
def execQuotaSet (f : Fin 8) (k : Fin 16) (s : State) : Host.Outcome State Fault Refusal := s.mgmt f k 0xE002 Mod.actQuotaSet

/-- QUEUE_ASSIGN: the range is FUNC's from the sluice on (R342). -/
def execQueueAssign (f : Fin 8) (k : Fin 16) (s : State) : Host.Outcome State Fault Refusal := s.mgmt f k 0xE003 Mod.actDone

/-- POWER_CAP: the cap, within 1,200 W and 3,200 W (R461). -/
def Mod.actPowerCap (s : Mod) (c : Cmd) : Mod := { s with pwr := { s.pwr with askHost := some (clampCap (pw c.params 0)) } }.actDone c

/-- POWER_CAP (R461). -/
def execPowerCap (f : Fin 8) (k : Fin 16) (s : State) : Host.Outcome State Fault Refusal := s.mgmt f k 0xE004 Mod.actPowerCap

/-- TELEMETRY: the reading goes to CR_RESULT (R467). -/
def Mod.actTelemetry (s : Mod) (c : Cmd) : Mod := s.mgmtEnd c 0 noDetail (s.sensor (pw c.params 0)).toNat

/-- TELEMETRY (R467). -/
def execTelemetry (f : Fin 8) (k : Fin 16) (s : State) : Host.Outcome State Fault Refusal := s.mgmt f k 0xE005 Mod.actTelemetry

/-- A self-test that takes open time within the bound of OP 0 and OP 1 (R408; log entry 6). -/
def Mod.testFor (s : Mod) (c : Cmd) (result : Nat) : Mod :=
  s.setCmd { c with phase := .running, status := 0, detail := noDetail, result := BitVec.ofNat 64 result, first := s.fc.num
                    fin := s.fc.num + (spanOf (3 + ceilDiv 40960 s.budget) (5 :: s.fc.num :: c.words.map (·.toNat)) - 1) }

/-- OFFLINE: the tile's memories are zeroed; a failure is recorded and given in CR_RESULT, and the tile is reset as failed (R392). -/
def Mod.actOffline (fail : Option TestFail) (s : Mod) (c : Cmd) : Mod :=
  let t := ctrlTile (pw c.params 0)
  let s := s.zeroTile t
  match fail, s.physTile t with
  | some x, some ph =>
    let s := (s.firstFail' ph 3 0xFF x.bank.toNat x.line.toNat).askReset 0 (t / 48 * 64 + t % 48) 2 []
    s.testFor c (2 ^ 31 + 3 * 2 ^ 28 + ph % 52 * 2 ^ 22 + 0xFF * 256)
  | _, _ => s.testFor c 0

/-- Whether a SELFTEST packet of an operation may execute; a packet that fails its checks answers to any operation. -/
def Mod.selftestReady (s : Mod) (f : Fin 8) (k : Fin 16) (op : Nat) : Bool :=
  s.mgmtReady f k 0xE006 && (s.mgmtCmd f k).any fun c => pw c.params 0 % 8 == op || match s.mgmtChk c with
    | .error _ => true
    | .ok _ => false

/-- OFFLINE (R342, 14). -/
def execOffline (f : Fin 8) (k : Fin 16) (fail : Option TestFail) (s : State) : Host.Outcome State Fault Refusal :=
  s.when (s.m.selftestReady f k 0) (match s.m.mgmtCmd f k with
    | some c => s.m.mgmtRun c (Mod.actOffline fail)
    | none => s.m)

/-- SPARES: every spare of the die is tested; those that fail are marked failed (R409). -/
def Mod.actSpares (failed : List (Fin 52)) (s : Mod) (c : Cmd) : Mod :=
  let d := bits (pw c.params 0) 31 30
  let bad := (s.freeSpares d).filter fun ph => failed.any fun n => n.val == ph % 52
  (bad.foldl (fun s ph => (s.startFail ph 2).failTile ph) s).testFor c 0

/-- SPARES (R409). -/
def execSpares (f : Fin 8) (k : Fin 16) (failed : List (Fin 52)) (s : State) : Host.Outcome State Fault Refusal :=
  s.when (s.m.selftestReady f k 1) (match s.m.mgmtCmd f k with
    | some c => s.m.mgmtRun c (Mod.actSpares failed)
    | none => s.m)

/-- RESTART: every periodic pass of the die begins again at slice 0 (R408). -/
def Mod.actRestart (s : Mod) (c : Cmd) : Mod :=
  let d := bits (pw c.params 0) 31 30
  (((List.range 52).map fun n => d * 52 + n).foldl Mod.restartPass s).actDone c

/-- RESTART (R408). -/
def execRestart (f : Fin 8) (k : Fin 16) (s : State) : Host.Outcome State Fault Refusal :=
  s.when (s.m.selftestReady f k 2) (match s.m.mgmtCmd f k with
    | some c => s.m.mgmtRun c Mod.actRestart
    | none => s.m)

/-- POLDER_SET: the count waits in SP_LAYOUT.PENDING for the next module reset (R416). -/
def Mod.actPolderSet (s : Mod) (c : Cmd) : Mod := (s.setFld .SP_LAYOUT_PENDING 0 (pw c.params 0)).actDone c

/-- POLDER_SET (R416). -/
def execPolderSet (f : Fin 8) (k : Fin 16) (s : State) : Host.Outcome State Fault Refusal := s.mgmt f k 0xE007 Mod.actPolderSet

/-- CONF_SET: the change is made at the frame's sluice (R420). -/
def Mod.actConfSet (s : Mod) (c : Cmd) : Mod :=
  { s with sec := { s.sec with confAsk := s.sec.confAsk ++ [(pw c.params 0 % 4, (pw c.params 0).testBit 8)] } }.actDone c

/-- CONF_SET (R420). -/
def execConfSet (f : Fin 8) (k : Fin 16) (s : State) : Host.Outcome State Fault Refusal := s.mgmt f k 0xE008 Mod.actConfSet

/-! ## At the sluice -/

/-- What a management packet does that no row has executed in its frame: all but a self-test, which outside outcomes end. -/
def Mod.autoMgmt (s : Mod) (c : Cmd) : Mod :=
  match c.opcode with
  | 0xE001 => s.mgmtRun c Mod.actResetDomain
  | 0xE002 => s.mgmtRun c Mod.actQuotaSet
  | 0xE004 => s.mgmtRun c Mod.actPowerCap
  | 0xE005 => s.mgmtRun c Mod.actTelemetry
  | 0xE006 => match s.mgmtChk c, pw c.params 0 % 8 with
    | .ok (), 2 => s.mgmtRun c Mod.actRestart
    | .ok (), _ => s
    | .error (st, d), _ => s.mgmtEnd c st d 0
  | 0xE007 => s.mgmtRun c Mod.actPolderSet
  | 0xE008 => s.mgmtRun c Mod.actConfSet
  | _ => s.mgmtRun c Mod.actDone

/-- The management packets that are to execute in the frame and have not, in the order of acceptance (R305). -/
def Mod.settleMgmt (s : Mod) : Mod :=
  (sortBy (·.ord) (s.cq.cmds.filter (·.mgmt))).foldl (fun s c => match s.cq.cmds.find? fun x => x.mgmt && x.ord == c.ord with
    | some x => if s.mgmtOpen x then s.autoMgmt x else s
    | none => s) s

/-- The decided aborts of the frame, after step 7: every executing command in their scopes ends with ABORTED, its signals staged into the next frame, and steps that lose work are abandoned (R385, R386). -/
def Mod.aborts (s : Mod) (f : Nat) : Mod :=
  (s.cq.cmds.filter fun c => c.mgmt && c.opcode == 0xE000 && c.phase == .decided && c.status == 0 && c.fin == f).foldl (fun s a =>
    let scope := pw a.params 0
    let t := pw a.params 4
    let hit (c : Cmd) : Bool := !c.mgmt && c.phase == .running && decide (f < c.fin) && (scope == 2 || (scope == 0 && c.qn == t) || (scope == 1 && c.pol == t))
    let runs (p : Nat) (st : Step) : Bool := match st.by_ with
      | .run q k => s.cq.cmds.any fun c => hit c && c.qn == q && c.seq == k
      | .diag q k _ => s.cq.cmds.any fun c => hit c && c.qn == q && c.seq == k
      | .loop => (s.ue.loops.get p).any fun l => s.cq.cmds.any fun c => hit c && c.qn == l.q && c.seq == l.seq
    let pols := (List.range 4).filter fun p => (s.cq.cmds.any fun c => hit c && c.step && c.pol == p) || (s.stepOf p).any (runs p)
    let s := s.endCmds hit 0xF0 f
    pols.foldl (fun s p => s.abandonStep p 64 true false) s) s

end Sys2Proof.Machine
end

