-- ==== Sys2Proof/Machine/Due.lean ====
section
/-! DEFINITION. What a frame owes when its sluice is taken - granted commands that no row has executed, reductions, flushes, messages - and the events of the
sluice itself that no row has named (02_frames_and_commit.md R39, R45; 12_links_and_board.md R370, R371; log entry 5). -/

namespace Sys2Proof.Machine

/-! ## Changes due at a sluice (R39, R370, R371) -/

/-- Whether a change of the frame length is in force from the frame that follows the sluice being taken. -/
def Mod.lenDue (s : Mod) : Bool := s.sluiceA.any fun f => s.fc.change.any fun c => decide (c.1 ≤ f + 1)

/-- The new length is the active one (R39). -/
def Mod.takeLen (s : Mod) : Mod := { s with fc := { s.fc with log2 := s.log2, change := none } }

/-- Whether a substitution stands at the sluice that is being taken, the one before its target frame (R370). -/
def Mod.substDue (s : Mod) : Bool := s.zl.subst && s.sluiceA.any fun f => f + 1 == s.pair .ZL_SUBST_AT_LO .ZL_SUBST_AT_HI 0

/-- Routes to a node turn to slot 8, and the links toward it are DISABLED (R370). -/
def Mod.turnRoutes (s : Mod) (old : Nat) : Mod :=
  let s := (List.range 64).foldl (fun s e => if s.bit .ZL_ROUTE_VALID e && s.fld .ZL_ROUTE_SLOT e == old then s.setFld .ZL_ROUTE_SLOT e 8 else s) s
  (groupsTo (s.fld .ZL_TOPO_TOPO 0) (s.fld .ZL_NODE_SLOT 0) old).foldl
    (fun s g => [0, 1, 2, 3].foldl (fun s i => s.leaveUp (4 * g + i) .disabled 5) s) s

/-- The standby takes the node number, or a working module turns its routes; nothing with a step open or a loop running (R370, R371). -/
def Mod.substitute (s : Mod) : Mod :=
  let old := s.fld .ZL_SUBST_OLD 0
  let s := { s with zl := { s.zl with subst := false } }
  if (List.range s.polders).any s.stepping then s.setFld .ZL_SUBST_STATUS_LAST_ERR 0 0x22
  else (if s.fld .ZL_NODE_SLOT 0 = 8 then s.setFld .ZL_NODE_NODE 0 old else s.turnRoutes old).raiseNow .ZL_SUBST_STATUS_DONE 0

/-! ## Events at the sluice that is being taken -/

/-- What a bucket owes before step 7: its lateness, its pass one. -/
def Mod.bucketA (p : Nat) (s : Mod) (n : Nat) : Mod :=
  let s := if s.bktLate p n then s.onBucketLate p n else s
  if s.passOneDue p n then s.onPassOne p n else s

/-- What a polder's step owes before step 7, in the order in which its phases follow. -/
def Mod.stepA (s : Mod) (p : Nat) : Mod :=
  let s := ((s.bkts p).map (·.num)).foldl (Mod.bucketA p) s
  let s := if s.ballotDue p then s.castBallot p else s
  let s := if s.voteDue p then s.vote p else s
  let s := if (s.verdict p).isSome then s.onVerdict p else s
  let s := if s.hostLate p then s.settleHost p 2 true else s
  let s := if s.maintenanceDue p then s.maintain p else s
  let s := if s.passTwoDue p then s.endPassTwo p else s
  let s := if s.closeDue p then s.closeStep p s.fc.num else s
  if s.closeLate p then s.closeWithout p else s

/-- The events that stand before step 7: scheduled changes and the commits of the sluice (R45 steps 5 and 6). -/
def Mod.settleA (s : Mod) : Mod :=
  let s := if s.lenDue then s.takeLen else s
  let s := if s.substDue then s.substitute else s
  (List.range s.polders).foldl Mod.stepA s

/-- Whether one of them is due. -/
def Mod.dueA (s : Mod) : Bool :=
  s.lenDue || s.substDue || (List.range s.polders).any fun p =>
    ((s.bkts p).any fun b => s.bktLate p b.num || s.passOneDue p b.num) || s.ballotDue p || s.voteDue p || (s.verdict p).isSome || s.hostLate p
      || s.maintenanceDue p || s.passTwoDue p || s.closeDue p || s.closeLate p

/-- What a polder owes after step 7: the buckets that its weirs closed, a replay or a step that opens, a whole checkpoint or restore. -/
def Mod.stepB (s : Mod) (p : Nat) : Mod :=
  let s := ((s.bkts p).map (·.num)).foldl (fun s n => if s.fillDone p n then s.onBucketClose p n else s) s
  let s := if s.replayDue p then s.reopen p else s
  let s := if s.stepDue p then s.openStep p else s
  let s := if (s.wholeCkpt p).isSome then s.completeCkpt p else s
  if (s.wholeRestore p).isSome then s.endRestore p else s

/-- The physical tiles whose periodic pass starves (R408). -/
def Mod.starving (s : Mod) : List Nat :=
  (([0, 1, 2, 3].filter fun d => s.bit .BC_CTRL_PERIODIC_EN d).flatMap fun d => (List.range 52).map fun n => d * 52 + n).filter s.starved

/-- The breakpoints on weirs that the sluice released (R447), as polder and number. -/
def Mod.weirBreaks (s : Mod) : List (Nat × Nat) :=
  (s.ob.brks.cells.filter fun (x : Nat × Brk) => x.2.weir && s.brkReady (x.1 / 8) (x.1 % 8)).map fun x => (x.1 / 8, x.1 % 8)

/-- Waits that the sluice ended (R57). -/
def Mod.settleWaits (s : Mod) : Mod :=
  let late := s.cq.cmds.filter s.waitLate
  if late.isEmpty then s else s.endCmds (fun y => late.any fun x => x.ord == y.ord && x.mgmt == y.mgmt) 0x21 s.fc.num

/-- The events that follow the weirs, before step 8. -/
def Mod.settleB (s : Mod) : Mod :=
  let s := s.weirBreaks.foldl (fun s x => s.brkHit x.1 x.2) s.settleWaits
  let s := (List.range s.polders).foldl Mod.stepB s
  let s := s.mem.ctls.cells.foldl (fun s (x : Nat × Ctl) => if s.zeroDue x.1 then s.onZeroed x.1 else s) s
  let s := s.starving.foldl Mod.starve s
  let s := [0, 1, 2, 3].foldl (fun s d => if s.roundDue d then s.startRound d else s) s
  let s := if s.rejoinLate then s.failRejoin 1 else s
  if s.rel.hung.isEmpty then s else s.onHang

/-- Whether one of them is due. -/
def Mod.dueB (s : Mod) : Bool :=
  s.cq.cmds.any s.waitLate || !s.weirBreaks.isEmpty || !s.starving.isEmpty || [0, 1, 2, 3].any s.roundDue || s.rejoinLate || !s.rel.hung.isEmpty
    || (s.mem.ctls.cells.any fun (x : Nat × Ctl) => s.zeroDue x.1)
    || (List.range s.polders).any fun p => ((s.bkts p).any fun b => s.fillDone p b.num) || s.replayDue p || s.stepDue p || (s.wholeCkpt p).isSome || (s.wholeRestore p).isSome

/-! ## Granted commands -/

/-- A granted command executes in its frame. HOST_IN waits for its data, and what sends to the host for
the port (R331). -/
def Mod.runDue (fu : Fuses) (s : Mod) (x : Cmd) : Mod :=
  let c : CmdId := ⟨⟨x.qn % 16384, Nat.mod_lt _ (by decide)⟩, BitVec.ofNat 32 x.seq⟩
  let w : Work := .packet c
  match x.opcode with
  | 0x0000 => s.runCmd c planNop
  | 0x0001 => s.runDelay c
  | 0x0002 => s.runSignal w
  | 0x0003 => s.runWeirClear c
  | 0x0004 => s.runCmd c planFrameMark
  | 0x0005 => s.runRunProgram c
  | 0x1000 => s.runWork 0x1000 w blkFwdProduct planFwdProduct fun ps => some (tsqOf (ctrlTile (pw ps 0xC0)))
  | 0x1001 => s.runWork 0x1001 w blkPcsLoad planPcsLoad fun ps => some (tsqOf (ctrlTile (pw ps 0)))
  | 0x1002 => s.runCmd c planCollectOpen
  | 0x1003 => s.runCmd c planCollectClose
  | 0x2000 => s.runWork 0x2000 w blkRevProduct planRevProduct fun ps => some (tsqOf (ctrlTile (pw ps 0xC0)))
  | 0x2001 => s.runRow w
  | 0x2002 => s.runWork 0x2002 w blkExpandW planExpandW fun ps => some (tsqOf (ctrlTile (pw ps 0x40)))
  | 0x3000 => s.runWork 0x3000 w blkQuantize planQuantize fun ps => some (tsqOf (ctrlTile (pw ps 0x60)))
  | 0x3001 => s.runWork 0x3001 w blkAmax planAmax fun ps => some (tsqOf (ctrlTile (pw ps 0x20)))
  | 0x3002 => s.runCmd c planHistRead
  | 0x3003 => s.runSlotClear c
  | 0x4000 => s.runCmd c planDescCreate
  | 0x4001 => s.runCmd c planDescDestroy
  | 0x4002 => s.runCmd c planDescRead
  | 0x4003 => s.runXf w
  | 0x4004 => s.runCmd c planObjAlloc
  | 0x4005 => s.runCmd c planObjRelease
  | 0x4006 => s.runWork 0x4006 w blkMigrate planMigrate fun _ => none
  | 0x4007 => s.runWork 0x4007 w blkWindowFill planWindowFill fun _ => none
  | 0x4009 => if s.canSend c planHostOut then s.runCmd c planHostOut else s
  | 0x400A => s.runImport c
  | 0x5000 => s.runReduce c
  | 0x5001 => s.runCmd c planGroupInit
  | 0x6000 => s.runCmd c planStepLoad
  | 0x6001 => s.runStepRun c
  | 0x6002 => s.runLoopStart c
  | 0x6003 => s.runLoopStop c
  | 0x6004 => s.runCkptTake c
  | 0x6005 => if s.canSend c planCkptDrain then s.runCmd c planCkptDrain else s
  | 0x6006 => s.runReplayDiag c
  | 0x6007 => s.runCmd c planRecordRead
  | 0x6008 => s.runCmd c (planSeal fu)
  | 0x7000 => s.runWork 0x7000 w (blkEmbLookup (s.workStep w)) planEmbLookup fun ps => some (ceOf (ctrlCe (pw ps 0x80)))
  | 0x7001 => s.runWork 0x7001 w blkEmbScatterAdd planEmbScatterAdd fun ps => some (ceOf (ctrlCe (pw ps 0x60)))
  | 0x7002 => s.runCmd c planEmbStageBind
  | 0xF000 => s.runCmd c planDbgRead
  | 0xF001 => s.runTrace c
  | 0xF002 => s.runCmd c planBreakSet
  | 0xF003 => s.runCmd c planBreakResume
  | _ => s

/-- The granted commands of the frame that no row has executed, in the order of earliness (R286). -/
def Mod.settleCmds (s : Mod) (fu : Fuses) : Mod :=
  (sortBy (·.ord) (s.cq.cmds.filter fun c => !c.mgmt && c.phase == .granted)).foldl (Mod.runDue fu) s

/-! ## Buckets, flushes and messages -/

/-- What the frame's reductions complete (R250, R252). -/
def Mod.settleBuckets (s : Mod) : Mod :=
  (List.range s.polders).foldl (fun s p => ((s.bkts p).map (·.num)).foldl (fun s n =>
    let s := if s.stageOneDue p n then s.onStageOne p n else s
    let own : Bool := match s.bkt p n with
      | some k => (s.ownSum p k).isSome
      | none => false
    if own then s.onOwnSum p n else s) s) s

/-- The flushes of the frame (R148). -/
def Mod.settleFlushes (s : Mod) : Mod :=
  let keys := (s.rf.vals.cells.map (·.1)).filter fun k => k % 256 == RegName.ACB_RGN_CTRL.num
  keys.foldl (fun s k => if s.flushDue (k / 256 / 16) (k / 256 % 16) then s.flushRgn (k / 256 / 16) (k / 256 % 16) else s) s

/-- A message whose sluice this is takes effect. -/
def Mod.onMessage (l : Nat) (s : Mod) (m : Msg) : Mod :=
  match m.kind with
  | 0 => s.onShard l m
  | 1 => s.onResult l m
  | 2 => s.onBallot m
  | 3 => s.onClose m
  | 4 => s.onRowadd l m
  | 5 => s.onXfer l m
  | 6 => s.onIdle l m
  | _ => s

/-- Whether a message takes effect at the sluice of the frame that runs (R48, R254). -/
def Mod.msgDue (s : Mod) (m : Msg) : Bool := decide ((if m.kind < 4 then s.heldUntil (m.dst % 4) m else m.at_) ≤ s.fc.num)

/-- The messages of a link that the sluice makes visible, in sequence order (R46, R48). -/
def Mod.settleLink (s : Mod) (l : Nat) : Mod :=
  let k := s.link l
  let now := k.inbox.filter s.msgDue
  if now.isEmpty then s else now.foldl (Mod.onMessage l) (s.setLink l { k with inbox := k.inbox.filter fun m => !s.msgDue m })

/-- All that the frame owes before its sluice is taken. -/
def Mod.settle (s : Mod) (fu : Fuses) : Mod :=
  let s := (s.settleCmds fu).settleFlushes
  let s := (List.range 33).foldl Mod.settleLink s.settleBuckets
  s.settleMgmt

end Sys2Proof.Machine
end

