-- ==== Sys2Proof/Machine/Sluice.lean ====
section
/-! DEFINITION. The sluice: overruns, what becomes visible and in which order, progress and hangs, board alignment, and the management controller's own frames
(02_frames_and_commit.md R42 to R48, R59 to R61; 10_command_interface.md R286, R306; 12_links_and_board.md R368; 13_reliability_and_recovery.md R375, R376). -/

namespace Sys2Proof.Machine

/-! ## Overruns (R42, R43) -/

/-- An engine as FC_OVERRUN_SRC names it (R65). -/
def engineSrc (e : Engine) : Nat :=
  let (k, d, n) := unitParts (unitOf e)
  d * 2 ^ 24 + k * 2 ^ 20 + n

/-- The order in which overruns are named: the dies' engines by die, KIND and UNIT, then the update engine, then the links (R43). -/
def engineOrder (e : Engine) : Nat := if (Engine.die? e).isSome then engineSrc e else 2 ^ 30 + engineSrc e

/-- Whether a frame program has work on an engine: it issued work to it, or the engine is the sequencer that runs it. -/
def Prog.on (p : Prog) (e : Engine) : Bool :=
  p.used.any (· == e) || !p.ended && match e with
    | .fsq d _ => has p.dies d.val
    | _ => false

/-- The memory controller of an address of a polder, as a reducer's die and number. -/
def Mod.ctlOf (s : Mod) (p addr : Nat) : Option Nat := (s.physPage p addr).map fun x => (pageCtl (x / 2 ^ 22) (x % 2 ^ 22)).1

/-- Whether a contribution goes to a reducer. -/
def Mod.reducesOn (s : Mod) (e : Engine) (p : Nat) (c : Contrib) : Bool :=
  match e with
  | .nmr d n => s.ctlOf p c.addr == some (d.val * 14 + n.val)
  | _ => false

/-- Whether a polder's open step has work on an engine in the frame (R43). -/
def Mod.stepOn (s : Mod) (e : Engine) (p : Nat) : Bool :=
  (s.stg.any fun x => x.step == some p && (x.eng == some e || match x.eff with
      | .reduce q cs => cs.any (s.reducesOn e q)
      | _ => false))
  || (s.cq.cmds.any fun c => c.step && !c.mgmt && c.pol == p && s.worksOn c e)
  || (s.ue.running.any fun r => r.step && r.pol == p && r.on e)
  || match e with
    | .ue => (s.bkts p).any fun b => b.owner.isNone && b.final && !b.passOne
    | .link l => has (s.link l).tx.srcs p
    | _ => false

/-- What an engine staged in the frame is discarded, and its programs stop; a link's transmitter sends nothing more of the frame. -/
def Mod.dropEngine (s : Mod) (e : Engine) : Mod :=
  let s := match e with
    | .link l => let k := s.link l; if [0, 1, 2, 3].all fun v => (k.tx.waits.getD v []).isEmpty then s else s.setLink l { k with tx := { k.tx with waits := [[], [], [], []] } }
    | _ => s
  let trim (x : Staged) : Staged := match x.eff with
    | .reduce p cs => { x with eff := .reduce p (cs.filter fun c => !s.reducesOn e p c) }
    | _ => x
  { s with stg := (s.stg.filter fun x => decide (x.eng ≠ some e)).map trim
           wr := { s.wr with sigs := s.wr.sigs.filter fun g => decide (g.eng ≠ some e) }
           ue := { s.ue with later := s.ue.later.filter fun x => decide (x.2.eng ≠ some e)
                             running := s.ue.running.filter fun p => !p.on e } }

/-- An engine overran frame f: its work is discarded, its commands end with FRAME_OVERRUN, the steps it worked for are abandoned (R43, R44). -/
def Mod.overrun (f : Nat) (s : Mod) (e : Engine) : Mod :=
  let pols := (List.range 4).filter (s.stepOn e)
  let hit (c : Cmd) : Bool := !c.mgmt && s.worksOn c e
  let stop (c : Cmd) : Cmd := if hit c then { c with phase := .decided, status := 0x20, detail := noDetail, fin := f } else c
  let s := { s with cq := { s.cq with cmds := s.cq.cmds.map stop } }.dropEngine e
  let s := pols.foldl (fun s p => s.abandonStep p 8 true true) s
  let (k, d, n) := unitParts (unitOf e)
  let owners := match Engine.die? e with
    | some d => [s.dieOf d]
    | none => List.range s.polders
  let s := owners.foldl (fun s p => s.note p f (.of 10 (d * 2 ^ 22 + k * 65536 + n) (2 ^ 31 + engineSrc e) 0 0 0)) s
  match Engine.die? e with
  | some d => s.event f d 31 1
  | none => s

/-- The overruns of frame f: counted, the first recorded (R43). -/
def Mod.overruns (s : Mod) (f : Nat) (late : List Engine) : Mod :=
  let es := sortBy engineOrder (once (late ++ s.fc.stuck))
  match es with
  | [] => s
  | e :: _ =>
    let s := s.countReg .FC_OVERRUN_COUNT 0 es.length
    let armed := !s.bit .FC_OVERRUN_SRC_VALID 0 || s.rf.stage.any fun w => w.reg == .FC_OVERRUN_SRC && w.val.getLsbD 31
    let s := if armed then
        (((s.put .FC_OVERRUN_SRC 0 ((s.rd .FC_OVERRUN_SRC 0 &&& 0x80000000#32) ||| BitVec.ofNat 32 (engineSrc e))).putPair .FC_OVERRUN_FRAME_LO .FC_OVERRUN_FRAME_HI 0 f).raise .FC_OVERRUN_SRC_VALID 0)
      else s
    es.foldl (Mod.overrun f) s
where
  /-- Each engine once. -/
  once : List Engine → List Engine
    | [] => []
    | x :: rest => x :: (once rest).filter fun y => decide (y ≠ x)

/-! ## Before the data -/

/-- The records of the frame's starts and marks (R443); the array cycle of a start is open (log entry 11). -/
def Mod.noteStarts (s : Mod) (f : Nat) : Mod :=
  s.cq.cmds.foldl (fun s c =>
    if c.mgmt || c.first != f || c.phase != .running || c.status == 0x01 then s else
    match s.ob.traces.get c.pol with
    | none => s
    | some _ => match s.fresh Config.freeNat with
      | (n, s) =>
        let s := s.note c.pol f { Rec.of 6 c.src c.qn c.seq (f % 2 ^ 32) 0 with cycle := n % s.budget }
        if c.opcode = 4 then s.note c.pol f (.of 14 c.src (c.result.toNat % 2 ^ 32) (c.w 2) 0 0) else s) s

/-- Whether a command that sends to the host stands still in this frame: the port carries nothing (R331). -/
def Mod.outHeld (s : Mod) (c : Cmd) : Bool := !s.pci.up && !c.mgmt && (c.opcode == 0x4009 || c.opcode == 0x6005) && c.phase == .running

/-- The effects of frame f in the order in which they join it: those of work begun in earlier frames, then those staged in it; output tiles that start in it are computed. -/
def Mod.gather (s : Mod) (f : Nat) : Mod :=
  let late := s.cq.cmds.flatMap fun c => if c.phase = .running ∧ !s.outHeld c then (c.land.filter fun x => decide (x.1 ≤ f)).map (·.2) else []
  let cut (c : Cmd) : Cmd :=
    if c.phase ≠ .running then c
    else if s.outHeld c then { c with fin := c.fin + 1, land := c.land.map fun x => (x.1 + 1, x.2) }
    else { c with land := c.land.filter fun x => decide (f < x.1) }
  let all := late ++ (s.landing.filter fun x => decide (x.1 ≤ f)).map (·.2) ++ s.stg
  all.foldl (Mod.begin f) { s with stg := [], cq := { s.cq with cmds := s.cq.cmds.map cut }
                                   ue := { s.ue with later := s.ue.later.filter fun x => decide (f < x.1)
                                                     running := s.ue.running.map fun p => { p with land := p.land.filter fun x => decide (f < x.1) } } }

/-- Steps whose work read poisoned data are abandoned (R236). -/
def Mod.takePoison (s : Mod) : Mod := (dedup (s.stg.filterMap s.consumes)).foldl (fun s p => s.abandonStep p 128 false true) s

/-! ## Counters of a frame's data (R436, R437) -/

/-- The bits that masked writes write, in bytes. -/
def maskBytes (cells : List WCell) : Nat := ceilDiv (cells.map fun w => ((List.range 8).filter w.mask.getLsbD).length).sum 8

/-- Lines and the bytes of them that are written, next to each other once. -/
def lineRuns : List (Nat × Nat) → List (Nat × Nat)
  | [] => []
  | x :: rest => match lineRuns rest with
    | y :: more => if y.1 = x.1 then (x.1, x.2 ||| y.2) :: more else x :: y :: more
    | [] => [x]

/-- The 64-byte lines of device memory that an effect writes, each with the bytes that it covers. -/
def Mod.linesOf (s : Mod) (e : Staged) : List (Nat × Nat) :=
  let full (p addr n : Nat) : List (Nat × Nat) := (List.range (n / 64)).filterMap fun i => (s.phys p (addr + 64 * i)).map fun a => (a / 64, 2 ^ 64 - 1)
  match e.eff with
  | .mem p cells => lineRuns (cells.filterMap fun w => (s.phys p w.addr).map fun a => (a / 64, 2 ^ (a % 64)))
  | .copyRange p _ dst n => full p dst n
  | .reduce p cs => cs.flatMap fun c => full p (c.addr / 64 * 64) 64
  | _ => []

/-- The die and tier of a line. -/
def lineCtl (l : Nat) : Nat := (pageCtl (l / 2 ^ 15 / 2 ^ 22) (l / 2 ^ 15 % 2 ^ 22)).1

/-- The bytes that an effect moves, by its engine and kind. -/
def Mod.bytesOf (f : Nat) (s : Mod) (e : Staged) : Mod :=
  match e.eff, e.eng with
  | .mem p cells, none => if e.rank = rankHostIn then s.hubEvent f p 17 cells.length else s
  | .poison p gs, none => if e.rank = rankHostIn then s.hubEvent f p 17 (32 * gs.length) else s
  | .mem _ cells, some (.ce d _) | .sram _ cells, some (.ce d _) | .sramStep _ _ cells, some (.ce d _) => s.event f d.val 20 (maskBytes cells)
  | .copyRange _ _ _ n, some (.me d _) => s.event f d.val 21 n
  | .migSub p page _, some (.me d _) =>
    let s := s.event f d.val 21 65536
    match s.mem.migs.find? fun g => g.pol == p && g.page == page with
    | some g => let c := (pageCtl g.tier g.frame).1; s.event f (c / 14) (if ctlHbm c then 26 else 28) 1024
    | none => s
  | .reduce p cs, _ => [0, 1, 2, 3].foldl (fun s d => s.event f d 24 (cs.filter fun c => (s.ctlOf p c.addr).any fun k => k / 14 == d).length) s
  | _, _ => s

/-- The dies whose engines worked in the frame. -/
def Mod.worked (s : Mod) : List Nat :=
  [0, 1, 2, 3].filter fun d => (s.stg.any fun e => e.eng.bind Engine.die? == some d)
    || s.cq.cmds.any fun c => c.phase == .running && c.engines.any fun e => Engine.die? e == some d

/-- The polders whose device memory the frame reads: those with work that runs, and those of the host's accesses held for the sluice. -/
def Mod.reading (s : Mod) : List Nat :=
  dedup ((s.cq.cmds.filter fun c => c.phase == .running && !c.mgmt).map (·.pol) ++ s.ue.running.map (·.pol) ++ s.pci.held.filterMap fun a => match a with
    | .read2 fn _ _ | .write2 fn _ _ => some (s.polderOf fn)
    | _ => none)

/-- Corrected errors of the frame's reads, and misses of the translation caches: how many is open (R190, R221, R235; log entry 11). -/
def Mod.readErrors (s : Mod) : Mod :=
  match s.reading with
  | [] => s
  | ps =>
    let n := s.io.free
    let dies := [0, 1, 2, 3].filter fun d => has ps (s.dieOf d)
    let s := dies.foldl (fun s d => (List.range (s.tilesOn d)).foldl (fun s t => s.countReg .TS_ECC_CORR (d * 48 + t) (Config.span [n, 0, d * 48 + t])) s) s.bump
    let s := (s.countReg .MT_ECC_CORR_HBM 0 (Config.span [n, 1])).countReg .MT_ECC_CORR_LP 0 (Config.span [n, 2])
    ps.foldl (fun s p => s.countReg .MT_TLB_MISS p (Config.span [n, 3, p])) s

/-- The reducers that contributions of a frame flood: more distinct granules than one holds (R230). Their senders stall, and do not end the frame. -/
def Mod.flooders (s : Mod) : List Engine :=
  let adds : List (Nat × Nat × Option Engine) := s.stg.flatMap fun e => match e.eff with
    | .reduce p cs => cs.filterMap fun c => (s.phys p c.addr).map fun a => ((pageCtl (a / 2 ^ 21 / 2 ^ 22) (a / 2 ^ 21 % 2 ^ 22)).1, a / 32, e.eng)
    | _ => []
  let full := (dedup (adds.map (·.1))).filter fun k => decide ((if ctlHbm k then 8192 else 1024) < (dedup ((adds.filter fun x => x.1 == k).map (·.2.1))).length)
  (adds.filter fun x => has full x.1).filterMap (·.2.2)

/-- Zeroing and patrol go on in a frame, on the controllers whose dies are up (R220, R237, R239): a pass of patrol takes 2^22 frames on an HBM controller, 2^25 on an LPDDR one. -/
def Mod.upkeep (s : Mod) : Mod :=
  let on := s.bit .MT_ECC_CTRL_PATROL_EN 0
  let go (c : Nat) (k : Ctl) : Ctl :=
    if s.dieDown (c / 14) then k
    else { k with zdone := if k.zq.isEmpty then 0 else k.zdone + 1, patrol := if on then (k.patrol + 1) % 2 ^ (if ctlHbm c then 22 else 25) else k.patrol }
  { s with mem := { s.mem with ctls := s.mem.ctls.map go } }

/-- The counts of frame f that its staged effects give; those that the spec leaves to the array's timing are open (log entry 11). -/
def Mod.dataEvents (s : Mod) (f : Nat) : Mod :=
  let stg := s.stg
  let dies := s.worked
  let s := stg.foldl (Mod.bytesOf f) s
  let s := s.mem.ckpts.foldl (fun s k => match s.diesOf k.pol with
    | d :: _ => s.event f d 21 (65536 * ((k.paced f).filter fun i => !has k.copied i && decide (i < k.subs.length)).length)
    | [] => s) s
  let lines := lineRuns (sortBy (·.1) (stg.flatMap s.linesOf))
  let s := [0, 1, 2, 3].foldl (fun s d =>
    let mine := lines.filter fun l => lineCtl l.1 / 14 == d
    let s := s.event f d 26 (mine.filter fun l => ctlHbm (lineCtl l.1)).length
    let s := s.event f d 28 (mine.filter fun l => !ctlHbm (lineCtl l.1)).length
    s.event f d 29 (mine.filter fun l => l.2 != 2 ^ 64 - 1).length) s
  let s := dies.foldl (fun s d => [2, 3, 6, 7, 25, 27].foldl (fun s i => match s.fresh Config.freeNat with
    | (n, s) => s.event f d i (if i < 25 then n % (s.tilesOn d * 2 ^ s.log2 + 1) else n)) s) s
  s.cq.cmds.foldl (fun s c => if c.waiting && !c.waits.isEmpty then s.hubEvent f c.pol 5 1 else s) s

/-! ## Progress (R375, R376) -/

/-- The engines on which commands that run on past frame f, and programs that no halt holds, have work. -/
def Mod.busyEngines (s : Mod) (f : Nat) : List Nat :=
  (s.cq.cmds.flatMap fun c => if c.phase = .running ∧ !c.mgmt ∧ !c.done f then c.engines.map unitOf else [])
    ++ s.ue.running.flatMap fun p => if s.halted p then [] else
        p.used.map unitOf ++ if p.ended then [] else p.dies.flatMap fun d => (List.range 4).map (unitKey 1 d)

/-- The engines whose command's work ends in frame f. -/
def Mod.doneEngines (s : Mod) (f : Nat) : List Nat := s.cq.cmds.flatMap fun c => if c.phase = .running ∧ !c.mgmt ∧ c.done f then c.engines.map unitOf else []

/-- The units that make progress in frame f, as far as its staged effects show. -/
def Mod.movedUnits (s : Mod) (f : Nat) : List Nat :=
  let stalled (k : Nat) : Bool := s.rel.stalled.any fun x => x.1 == k
  (s.stg.filterMap fun e => e.eng.map unitOf) ++ ((s.busyEngines f ++ s.doneEngines f).filter fun k => !stalled k)
    ++ (s.cq.cmds.filterMap fun c => if !c.mgmt ∧ (c.accepted + 1 = f ∨ c.first = f) then some (unitKey 7 0 (c.qn % 4)) else none)
    ++ ((List.range 32).filter fun l => (s.link l).used != [0, 0, 0, 0] || (s.link l).acked != (s.unit (unitKey 6 0 l)).mark).map (unitKey 6 0)
    ++ (s.stg.flatMap fun e => match e.eff with
          | .reduce p cs => cs.filterMap fun c => (s.ctlOf p c.addr).map fun k => unitKey 4 (k / 14) (k % 14)
          | _ => [])
    ++ (if s.stg.any fun e => e.rank == rankHostIn then [unitKey 8 0 1] else [])
    ++ (if s.stg.any fun e => match e.eff with
          | .toHost _ _ _ _ _ _ _ => true
          | _ => false then [unitKey 8 0 2] else [])
    ++ s.rel.moved

/-- The units that owe work at sluice f (R375). -/
def Mod.owedUnits (s : Mod) (f : Nat) : List Nat :=
  s.rel.stalled.map (·.1) ++ s.busyEngines f
    ++ ((List.range 32).filter fun l => (s.link l).sent != (s.link l).acked).map (unitKey 6 0)
    ++ (if s.pci.stuck.isEmpty then [] else [unitKey 8 0 0])
    ++ (s.cq.cmds.filterMap fun c => if !c.mgmt ∧ c.phase = .accepted then some (unitKey 7 0 (c.qn % 4)) else none)
    ++ (s.cq.cmds.flatMap fun c =>
          if c.mgmt || !(c.phase == .granted || (c.phase == .running && decide (f < c.fin))) then [] else
          if c.opcode = 0x4008 then [unitKey 8 0 1] else if c.opcode = 0x4009 ∨ c.opcode = 0x6005 then [unitKey 8 0 2] else [])
    ++ s.cq.cmds.filterMap fun c => if !c.mgmt && c.waiting && c.waits.any (·.limit == 0) then some (unitKey 9 0 c.qn) else none

/-- Whether the hang detector exempts a unit in frame f: a domain in reset holds it, or its core is halted (R376, R448). -/
def Mod.exempt (s : Mod) (f k : Nat) : Bool :=
  let d := unitDomain k
  (s.rel.resets.any fun r => s.holds r.kind r.index d.1 d.2) || ((unitParts k).1 == 7 && s.hcpHalted (unitParts k).2.2 f)

/-- Progress counts and OWED bits at sluice f, and the units found hung: each time that a window passes without progress. -/
def Mod.unitStep (s : Mod) (f : Nat) (moved : List Nat) : Mod :=
  let moved := moved ++ s.cq.cmds.filterMap fun c => if !c.mgmt ∧ c.relAt = f ∧ c.accepted < f then some (unitKey 9 0 c.qn) else none
  let owed := s.owedUnits f
  let keys := dedup (moved ++ owed ++ s.rel.units.cells.map (·.1))
  let next (k : Nat) : Unit' :=
    let u := s.unit k
    let go := has moved k
    { count := if go then (u.count + 1) % 65536 else u.count
      owed := has owed k
      quiet := if has owed k && !go && !s.exempt f k then u.quiet + 1 else 0
      mark := if (unitParts k).1 = 6 then (s.link (unitParts k).2.2).acked else 0 }
  let s := { s with rel := { s.rel with units := keys.foldl (fun (t : Tbl Unit') k => t.set k (next k)) s.rel.units, moved := [] } }
  let w := 2 ^ max 4 (s.fld .MC_HANG_CTRL_WINDOW_LOG2 0)
  if s.bit .MC_HANG_CTRL_EN 0 then
    { s with rel := { s.rel with hung := keys.filter fun k => decide (0 < (s.unit k).quiet) && (s.unit k).quiet % w == 0 } } else s

/-! ## The steps of R45 -/

/-- Step 5: configuration transactions, registered writes, keys, queue ranges, and what commands change beside data; power changes that are due. -/
def Mod.stepFive (s : Mod) (f : Nat) : Mod :=
  let s := (s.commitTxs f).applyWrites.applyKeys
  let s := { s with cq := { s.cq with ranges := s.assigned } }
  let s := s.applyRest
  ((({ s with stg := [] }).applyFlags).powerStep).restartsDue f

/-- Confidential mode that CONF_SET asked for in the frame (R420). -/
def Mod.confStep (s : Mod) (f : Nat) : Mod :=
  s.sec.confAsk.foldl (fun s x => if x.2 then s.enterConf x.1 f else s.setFld .SP_CONF_OFF_PENDING x.1 1) { s with sec := { s.sec with confAsk := [] } }

/-- Frame programs whose last frame was f end; one whose work goes on stays until the last of it retires (R290, R294). -/
def Mod.endProgs (s : Mod) (f : Nat) : Mod :=
  let next (p : Prog) : Prog := { p with ended := decide (p.first + p.frames + p.halted ≤ f + 1), jobs := p.jobs.filter fun j => decide (f < j.last) }
  { s with ue := { s.ue with running := (s.ue.running.map next).filter fun p => !p.ended || !p.jobs.isEmpty } }

/-- What observes the sluice: halted cores, traces, counter banks, coarse counters (R422, R435, R441, R448). -/
def Mod.observe (s : Mod) (f : Nat) (ops : List Eff) : Mod :=
  let s := (List.range s.polders).foldl Mod.brkStatus s
  let s := s.flushTraces f
  let s := (ops.foldl (Mod.traceOp f) s).banksStep f
  if f % 4096 = 0 then s.keepCoarse else s

/-- FRAME_SYNC_OUT and FC_SYNC_STATUS after a sluice: LOCKED says that it was taken on an edge; a module holds the net low from the next frame on if it is
aligned, was on this sluice or is so newly, does not rejoin, and is not one that left the board's frame (R59 to R61, R368). -/
def Mod.syncStep (s : Mod) (was edge lost : Bool) : Mod :=
  let s := s.setFld .FC_SYNC_STATUS_LOCKED 0 (if edge then 1 else 0)
  let s := if lost then (s.raiseNow .FC_SYNC_STATUS_LOST 0).alertAll .CQ_ALERT_CAUSE_SYNC_LOST else s
  let low := s.bit .FC_SYNC_CTRL_ALIGN_EN 0 && s.zl.rejoin.isNone && !lost && !s.fc.astray && (edge || !was)
  { s with fc := { s.fc with waiting := none, syncLow := low, astray := s.fc.astray || lost } }

/-- A frame number kept across a rejoin's renumbering: bounds in frames count elapsed frames (R368). -/
def shiftFrame (a b x : Nat) : Nat := x + b - a

/-- The frame numbers that the state keeps, when frame a + 1 is numbered b + 1 (R368). -/
def Mod.renumber (s : Mod) (a b : Nat) : Mod :=
  let t := shiftFrame a b
  let cmd (c : Cmd) : Cmd := { c with accepted := t c.accepted, relAt := t c.relAt, first := if c.first = 0 then 0 else t c.first, fin := t c.fin
                                      land := c.land.map fun (x : Nat × Staged) => (t x.1, x.2) }
  let msg (m : Msg) : Msg := { m with at_ := t m.at_ }
  let prog (p : Prog) : Prog :=
    { p with first := t p.first, jobs := p.jobs.map (fun j => { j with first := t j.first, last := t j.last }), land := p.land.map fun (x : Nat × Staged) => (t x.1, x.2) }
  { s with fc := { s.fc with num := b + 1, last := some b }
           cq := { s.cq with cmds := s.cq.cmds.map cmd }
           mem := { s.mem with objs := s.mem.objs.map fun _ o => { o with since := t o.since }
                               ckpts := s.mem.ckpts.map fun (k : Ckpt) => { k with at_ := t k.at_ }
                               restores := s.mem.restores.map fun (r : Restore) => { r with began := t r.began } }
           td := s.td.map fun _ d => { d with created := t d.created }
           ue := { s.ue with later := s.ue.later.map fun (x : Nat × Staged) => (t x.1, x.2)
                             running := s.ue.running.map prog }
           zl := { s.zl with sendq := s.zl.sendq.map msg
                             links := s.zl.links.map fun _ k => { k with inbox := k.inbox.map msg, leftAt := if k.leftAt = 0 then 0 else t k.leftAt } }
           rel := { s.rel with resets := s.rel.resets.map fun (r : ResetS) => { r with began := t r.began }
                               passStart := s.rel.passStart.map fun _ x => t (x / 2) * 2 + x % 2
                               restarting := s.rel.restarting.map fun (x : Nat × Nat) => (x.1, t x.2) }
           ob := { s.ob with halted := s.ob.halted.map fun (h : Halt) => { h with at_ := t h.at_, others := t h.others }
                             traces := s.ob.traces.map fun _ r => { r with frame := t r.frame, fired := r.fired.map t } } }

/-- A rejoin that this edge completes: the next frame is numbered P + 1 (R368). -/
def Mod.rejoined (s : Mod) (f : Nat) (edge : Bool) : Mod :=
  match edge, s.zl.rejoin with
  | true, some (_, _, some p) =>
    let s := { s with zl := { s.zl with rejoin := none }, fc := { s.fc with astray := false, syncLow := s.bit .FC_SYNC_CTRL_ALIGN_EN 0 } }
    let s := ((s.setFld .FC_SYNC_STATUS_LOST 0 0).setFld .ZL_REJOIN_ARM 0 0).raiseNow .ZL_REJOIN_STATUS_DONE 0
    s.renumber f p
  | _, _ => s

/-! ## The window (R45, R47; log entry 5) -/

/-- Steps 1 to 5 of R45 at sluice f, the frame that runs, once all that the frame owes is done; then its window is open. `late` names the engines whose frame-done
flags were clear; `edge` says that the sluice is taken on FRAME_SYNC_IN's edge, `lost` that it never came. -/
def Mod.openWindow (s : Mod) (late : List Engine) (edge lost : Bool) : Mod :=
  let f := s.fc.num
  let was := s.bit .FC_SYNC_CTRL_ALIGN_EN 0
  let s := (s.noteStarts f).haltFrame
  let s := ((s.checkAll f).clearCounts).gather f
  let s := ((s.overruns f (late ++ s.flooders ++ s.unsent)).abandonSlots).takePoison
  let s := (List.range s.polders).foldl Mod.goPass s
  let s := (s.takeFaults.dataEvents f).readErrors.upkeep
  let moved := s.movedUnits f
  let ops := (s.stg.map (·.eff)).filter fun e => match e with
    | .trace _ _ _ _ _ _ _ _ _ _ => true
    | _ => false
  let (s, writes) := s.applyData
  let s := (s.stepFive f).sweepMigs
  let s := { s with fc := { s.fc with waiting := none, last := some f, window := some ⟨.commits, moved, ops, was, edge, lost, writes⟩ }, ob := { s.ob with hits := [] } }
  s.releaseStep

/-- The window at a part. -/
def Mod.part (s : Mod) (p : WinPart) : Mod := { s with fc := { s.fc with window := s.fc.window.map fun w => { w with part := p } } }

/-- Step 7, and what is decided after it has applied the frame's signals (R290): aborts, Function Level Resets, confidential mode, and the hang detector's counts.
Polders without a step take their checkpoints before it (R338). -/
def Mod.evalWeirs (s : Mod) (w : Window) : Mod :=
  let f := s.fc.num
  let s := (((s.takeIdle f).weirStep f).part .events).aborts f
  let s := s.pci.flr.foldl (Mod.flrQueues f) { s with pci := { s.pci with flr := [] } }
  ((s.confStep f).endProgs f).unitStep f w.moved

/-- Step 8: resets end what they end, replies are posted, queues that RESET stopped are done, and commands are accepted (R45, R286, R291, R299). -/
def Mod.postAll (s : Mod) : Mod :=
  let f := s.fc.num
  let s := ((s.strays f).prepAsked f).replyStep f
  let s := s.resetQueues.emptyQueues f
  ((s.acceptAll f).acceptMgmt f).part .posted

/-- The next frame begins: its number, programs, grants, links, messages sent, resets that were asked for, and the accesses that the window held (R47, R286, R383). -/
def Mod.nextFrame (s : Mod) (f : Nat) (edge : Bool) : Mod :=
  let s := { s with fc := { s.fc with num := f + 1, stuck := [], window := none } }
  let s := s.rejoined f edge
  let f := s.fc.num - 1
  let s := (List.range s.polders).foldl Mod.nextProg s
  let s := ((s.grants f).raiseLinks).startLinks
  (((s.sendDue).beginAsked f).releaseHeld).releaseStuck

/-- The end of a sluice: replies of waits that ended at their posting, what observes the sluice, and the next frame. -/
def Mod.endWindow (s : Mod) (w : Window) : Mod :=
  let f := s.fc.num
  let s := ((s.replyStep f).observe f w.ops).syncStep w.was w.edge w.lost
  s.applyFlags.nextFrame f w.edge

/-- The last part of a sluice, if nothing is due in it. -/
def Mod.resumeC (s : Mod) (w : Window) : Mod := if s.cq.cmds.any s.waitLate then s else s.endWindow w

/-- The part after the weirs, and the last, as far as nothing is due. -/
def Mod.resumeB (s : Mod) (w : Window) : Mod := if s.dueB then s else s.postAll.resumeC w

/-- A sluice whose window is open goes on until one of its events is due that a row is to name. -/
def Mod.resume (s : Mod) : Mod :=
  match s.fc.window with
  | none => s
  | some w => match w.part with
    | .commits => if s.dueA then s else (s.evalWeirs w).resumeB w
    | .events => s.resumeB w
    | .posted => s.resumeC w

/-- The rest of a sluice from after the weirs on, its events in their order. -/
def Mod.finishB (s : Mod) (w : Window) : Mod := (s.settleB.postAll).settleWaits.endWindow w

/-- A sluice whose window is open is completed, its events in their order. -/
def Mod.closeWindow (s : Mod) : Mod :=
  match s.fc.window with
  | none => s
  | some w => match w.part with
    | .commits => (s.settleA.evalWeirs w).finishB w
    | .events => s.finishB w
    | .posted => s.settleWaits.endWindow w

/-- The sluice of the frame that runs, up to the first of its events that a row may name; with none due, to its end. -/
def Mod.takeSluice (s : Mod) (fu : Fuses) (late : List Engine) (edge lost : Bool) : Mod := ((s.settle fu).openWindow late edge lost).resume

/-! ## The rows -/

/-- Whether the sluice waits for an edge of FRAME_SYNC_IN (R59, R368). -/
def Mod.awaitsEdge (s : Mod) : Bool :=
  (s.bit .FC_SYNC_CTRL_ALIGN_EN 0 && s.fc.syncLow) || match s.zl.rejoin with
    | some (_, _, some _) => true
    | _ => false

/-- SLUICE (R45): the frame's cycles are counted, and its sluice is taken, or one that has stopped at an event is completed (log entry 5). A module that is aligned
samples the flags, releases FRAME_SYNC_OUT, and waits. -/
def execSluice (late : List Engine) (s : State) : Host.Outcome State Fault Refusal :=
  s.when (s.m.running && s.m.fc.waiting.isNone)
    (if s.m.fc.window.isSome then s.m.closeWindow
     else if s.m.awaitsEdge then { s.m.settle s.fuse with fc := { (s.m.settle s.fuse).fc with waiting := some late, syncLow := false } }
     else s.m.takeSluice s.fuse late false false)

/-- FRAME_SYNC_RISE (R59): a module that waits takes the sluice on the edge. -/
def execFrameSyncRise (s : State) : Host.Outcome State Fault Refusal :=
  match s.m.fc.waiting with
  | some late => s.when s.m.running (s.m.takeSluice s.fuse late true false)
  | none => .next s

/-- SYNC_LOST (R61): the timeout passed, and the module takes the sluice alone. -/
def execSyncLost (s : State) : Host.Outcome State Fault Refusal :=
  s.when (s.m.running && s.m.fc.waiting.isSome) (s.m.takeSluice s.fuse (s.m.fc.waiting.getD []) false true)

/-- A frame of the management controller's own count: its packets execute, complete and are accepted, and its domain's registers take their writes (R306). -/
def Mod.mgmtFrame (s : Mod) : Mod :=
  let f := s.fc.mgmt
  let s := (s.settleMgmt.applyWrites).applyFlags
  let s := s.postReplies (s.cq.cmds.filter fun c => c.mgmt && c.phase == .decided) f
  let s := s.acceptMgmt f
  let s := { s with fc := { s.fc with mgmt := f + 1 } }
  ((s.prepAsked f).beginAsked f).sendDue

/-- MANAGEMENT_FRAME (R306). -/
def execManagementFrame (s : State) : Host.Outcome State Fault Refusal := s.when (s.pins.aux && !s.m.running) s.m.mgmtFrame

end Sys2Proof.Machine
end

