-- ==== Sys2Proof/Machine/Window.lean ====
section
/-! DEFINITION. The rows that name an event of the sluice that is being taken: each acts in its part of the window, and the sluice then goes on to the next event that
is due (02_frames_and_commit.md R45; log entry 5). -/

namespace Sys2Proof.Machine

/-- The answer of a row that names an event of a sluice. -/
def State.event (s : State) (b : Bool) (m : Mod) : Host.Outcome State Fault Refusal := s.when b m.resume

/-! ## Before step 7 -/

/-- FRAME_LEN_CHANGE (R39). -/
def execFrameLenChange (s : State) : Host.Outcome State Fault Refusal :=
  s.event s.m.lenDue s.m.takeLen

/-- SUBSTITUTION (R370). -/
def execSubstitution (s : State) : Host.Outcome State Fault Refusal :=
  s.event s.m.substDue s.m.substitute

/-- BUCKET_LATE (R253). -/
def execBucketLate (p : Fin 4) (b : BitVec 12) (s : State) : Host.Outcome State Fault Refusal :=
  s.event (s.m.bktLate p b.toNat) (s.m.onBucketLate p b.toNat)

/-- PASS_ONE (R261). -/
def execPassOne (p : Fin 4) (b : BitVec 12) (s : State) : Host.Outcome State Fault Refusal :=
  s.event (s.m.passOneDue p b.toNat) (s.m.onPassOne p b.toNat)

/-- BALLOT_SLUICE (R255). -/
def execBallotSluice (p : Fin 4) (s : State) : Host.Outcome State Fault Refusal :=
  s.event (s.m.ballotDue p) (s.m.castBallot p)

/-- VOTE_SLUICE (R257). -/
def execVoteSluice (p : Fin 4) (s : State) : Host.Outcome State Fault Refusal :=
  s.event (s.m.voteDue p) (s.m.vote p)

/-- HOST_VERDICT (R259). -/
def execHostVerdict (p : Fin 4) (s : State) : Host.Outcome State Fault Refusal :=
  s.event (s.m.verdict p).isSome (s.m.onVerdict p)

/-- HOST_TIMEOUT (R259). -/
def execHostTimeout (p : Fin 4) (s : State) : Host.Outcome State Fault Refusal :=
  s.event (s.m.hostLate p) (s.m.settleHost p 2 true)

/-- MAINTENANCE_PASS (R171). -/
def execMaintenancePass (p : Fin 4) (s : State) : Host.Outcome State Fault Refusal :=
  s.event (s.m.maintenanceDue p) (s.m.maintain p)

/-- PASS_TWO (R264). -/
def execPassTwo (p : Fin 4) (s : State) : Host.Outcome State Fault Refusal :=
  s.event (s.m.passTwoDue p) (s.m.endPassTwo p)

/-- CLOSING_SLUICE (R269). -/
def execClosingSluice (p : Fin 4) (s : State) : Host.Outcome State Fault Refusal :=
  s.event (s.m.closeDue p) (s.m.closeStep p s.m.fc.num)

/-- CLOSE_TIMEOUT (R269). -/
def execCloseTimeout (p : Fin 4) (s : State) : Host.Outcome State Fault Refusal :=
  s.event (s.m.closeLate p) (s.m.closeWithout p)

/-! ## After step 7 -/

/-- BUCKET_CLOSE (R248). -/
def execBucketClose (p : Fin 4) (b : BitVec 12) (s : State) : Host.Outcome State Fault Refusal :=
  s.event (s.m.fillDone p b.toNat) (s.m.onBucketClose p b.toNat)

/-- REPLAY_OPEN (R174). -/
def execReplayOpen (p : Fin 4) (s : State) : Host.Outcome State Fault Refusal :=
  s.event (s.m.replayDue p) (s.m.reopen p)

/-- STEP_OPEN (R49, R337). -/
def execStepOpen (p : Fin 4) (s : State) : Host.Outcome State Fault Refusal :=
  s.event (s.m.stepDue p) (s.m.openStep p)

/-- CHECKPOINT_COMPLETE (R394). -/
def execCheckpointComplete (p : Fin 4) (s : State) : Host.Outcome State Fault Refusal :=
  s.event (s.m.wholeCkpt p).isSome (s.m.completeCkpt p)

/-- RESTORE_COMPLETE (R396). -/
def execRestoreComplete (p : Fin 4) (s : State) : Host.Outcome State Fault Refusal :=
  s.event (s.m.wholeRestore p).isSome (s.m.endRestore p)

/-- PAGE_ZEROED (R220). -/
def execPageZeroed (d : Fin 4) (ctl : Fin 14) (s : State) : Host.Outcome State Fault Refusal :=
  s.event (s.m.zeroDue (d * 14 + ctl)) (s.m.onZeroed (d * 14 + ctl))

/-- PASS_STARVED (R408). -/
def execPassStarved (d : Fin 4) (t : Fin 52) (s : State) : Host.Outcome State Fault Refusal :=
  s.event (s.m.starved (d * 52 + t)) (s.m.starve (d * 52 + t))

/-- SPARE_TEST_ROUND (R409). -/
def execSpareTestRound (d : Fin 4) (s : State) : Host.Outcome State Fault Refusal :=
  s.event (s.m.roundDue d) (s.m.startRound d)

/-- HANG_DETECT (R378). -/
def execHangDetect (s : State) : Host.Outcome State Fault Refusal :=
  s.event (!s.m.rel.hung.isEmpty) s.m.onHang

/-- REJOIN_NO_PEER (R368). -/
def execRejoinNoPeer (s : State) : Host.Outcome State Fault Refusal :=
  s.event s.m.rejoinLate (s.m.failRejoin 1)

/-- BREAKPOINT_HIT: a weir's release at the sluice (R447), or a PC in the frame that runs (R448). -/
def execBreakpointHit (p : Fin 4) (id : Fin 8) (s : State) : Host.Outcome State Fault Refusal :=
  s.event (s.m.brkReady p id) (s.m.brkHit p id)

/-- WEIR_TIMEOUT (R57, R289). -/
def execWeirTimeout (c : CmdId) (s : State) : Host.Outcome State Fault Refusal :=
  s.event (match s.m.cmd c with
    | some x => s.m.waitLate x
    | none => false) (s.m.weirTimeout c)

end Sys2Proof.Machine
end

