-- ==== Sys2Proof/Machine/Dispatch.lean ====
section
/-! DEFINITION. One arm for every command: a direct call of its meaning, or its rejection by name. -/

namespace Sys2Proof.Machine

/-- The effect of a command on everything but the queue. -/
def exec (i : Instr) (s : State) : Host.Outcome State Fault Refusal :=
  match i with
  | .sluice late => Sys2Proof.Machine.execSluice late s
  | .frameSyncRise => Sys2Proof.Machine.execFrameSyncRise s
  | .syncLost => Sys2Proof.Machine.execSyncLost s
  | .sluiceWatchdog late => Sys2Proof.Machine.execSluiceWatchdog late s
  | .frameLenChange => Sys2Proof.Machine.execFrameLenChange s
  | .weirTimeout c => Sys2Proof.Machine.execWeirTimeout c s
  | .registerWrite h off len v => Sys2Proof.Machine.execRegisterWrite h off len v s
  | .fcCtOpen h slot => Sys2Proof.Machine.execFcCtOpen h slot s
  | .fcCtClose h slot => Sys2Proof.Machine.execFcCtClose h slot s
  | .fcCtAbandon h slot => Sys2Proof.Machine.execFcCtAbandon h slot s
  | .weirSignal h n add => Sys2Proof.Machine.execWeirSignal h n add s
  | .weirCtrlClear h n v => Sys2Proof.Machine.execWeirCtrlClear h n v s
  | .doorbell h q v => Sys2Proof.Machine.execDoorbell h q v s
  | .cqCplHead h q v => Sys2Proof.Machine.execCqCplHead h q v s
  | .enable h q => Sys2Proof.Machine.execEnable h q s
  | .pause h q => Sys2Proof.Machine.execPause h q s
  | .resume h q => Sys2Proof.Machine.execResume h q s
  | .reset h q => Sys2Proof.Machine.execReset h q s
  | .mqTail h v => Sys2Proof.Machine.execMqTail h v s
  | .nop c => Sys2Proof.Machine.execNop c s
  | .delay c => Sys2Proof.Machine.execDelay c s
  | .signal w => Sys2Proof.Machine.execSignal w s
  | .weirClear c => Sys2Proof.Machine.execWeirClear c s
  | .frameMark c => Sys2Proof.Machine.execFrameMark c s
  | .runProgram c => Sys2Proof.Machine.execRunProgram c s
  | .fwdProduct w => Sys2Proof.Machine.execFwdProduct w s
  | .pcsLoad w => Sys2Proof.Machine.execPcsLoad w s
  | .collectOpen c => Sys2Proof.Machine.execCollectOpen c s
  | .collectClose c => Sys2Proof.Machine.execCollectClose c s
  | .revProduct w => Sys2Proof.Machine.execRevProduct w s
  | .regionFlush d t rgn => Sys2Proof.Machine.execRegionFlush d t rgn s
  | .lnFwd w => Sys2Proof.Machine.execLnFwd w s
  | .lnBwd w => Sys2Proof.Machine.execLnBwd w s
  | .rmsFwd w => Sys2Proof.Machine.execRmsFwd w s
  | .rmsBwd w => Sys2Proof.Machine.execRmsBwd w s
  | .smFwd w => Sys2Proof.Machine.execSmFwd w s
  | .smBwd w => Sys2Proof.Machine.execSmBwd w s
  | .expandW w => Sys2Proof.Machine.execExpandW w s
  | .quantize w => Sys2Proof.Machine.execQuantize w s
  | .amax w => Sys2Proof.Machine.execAmax w s
  | .histRead c => Sys2Proof.Machine.execHistRead c s
  | .slotClear c => Sys2Proof.Machine.execSlotClear c s
  | .descCreate c => Sys2Proof.Machine.execDescCreate c s
  | .descDestroy c => Sys2Proof.Machine.execDescDestroy c s
  | .descRead c => Sys2Proof.Machine.execDescRead c s
  | .copy w => Sys2Proof.Machine.execCopy w s
  | .transpose w => Sys2Proof.Machine.execTranspose w s
  | .convert w => Sys2Proof.Machine.execConvert w s
  | .gather w => Sys2Proof.Machine.execGather w s
  | .scatterWrite w => Sys2Proof.Machine.execScatterWrite w s
  | .scatterAdd w => Sys2Proof.Machine.execScatterAdd w s
  | .objAlloc c => Sys2Proof.Machine.execObjAlloc c s
  | .objRelease c => Sys2Proof.Machine.execObjRelease c s
  | .migrate w => Sys2Proof.Machine.execMigrate w s
  | .windowFill w => Sys2Proof.Machine.execWindowFill w s
  | .hostIn c data bad => Sys2Proof.Machine.execHostIn c data bad s
  | .hostOut c => Sys2Proof.Machine.execHostOut c s
  | .import c => Sys2Proof.Machine.execImport c s
  | .reduce c => Sys2Proof.Machine.execReduce c s
  | .groupInit c => Sys2Proof.Machine.execGroupInit c s
  | .stepLoad c => Sys2Proof.Machine.execStepLoad c s
  | .stepRun c => Sys2Proof.Machine.execStepRun c s
  | .loopStart c => Sys2Proof.Machine.execLoopStart c s
  | .loopStop c => Sys2Proof.Machine.execLoopStop c s
  | .ckptTake c => Sys2Proof.Machine.execCkptTake c s
  | .ckptDrain c => Sys2Proof.Machine.execCkptDrain c s
  | .replayDiag c => Sys2Proof.Machine.execReplayDiag c s
  | .recordRead c => Sys2Proof.Machine.execRecordRead c s
  | .seal c => Sys2Proof.Machine.execSeal c s
  | .embLookup w => Sys2Proof.Machine.execEmbLookup w s
  | .embScatterAdd w => Sys2Proof.Machine.execEmbScatterAdd w s
  | .embStageBind c => Sys2Proof.Machine.execEmbStageBind c s
  | .abort f k => Sys2Proof.Machine.execAbort f k s
  | .resetDomain f k => Sys2Proof.Machine.execResetDomain f k s
  | .quotaSet f k => Sys2Proof.Machine.execQuotaSet f k s
  | .queueAssign f k => Sys2Proof.Machine.execQueueAssign f k s
  | .powerCap f k => Sys2Proof.Machine.execPowerCap f k s
  | .telemetry f k => Sys2Proof.Machine.execTelemetry f k s
  | .offline f k fail => Sys2Proof.Machine.execOffline f k fail s
  | .spares f k failed => Sys2Proof.Machine.execSpares f k failed s
  | .restart f k => Sys2Proof.Machine.execRestart f k s
  | .polderSet f k => Sys2Proof.Machine.execPolderSet f k s
  | .confSet f k => Sys2Proof.Machine.execConfSet f k s
  | .dbgRead c => Sys2Proof.Machine.execDbgRead c s
  | .configure c => Sys2Proof.Machine.execConfigure c s
  | .start c => Sys2Proof.Machine.execStart c s
  | .stop c => Sys2Proof.Machine.execStop c s
  | .trigger c => Sys2Proof.Machine.execTrigger c s
  | .breakSet c => Sys2Proof.Machine.execBreakSet c s
  | .breakResume c => Sys2Proof.Machine.execBreakResume c s
  | .breakpointHit p id => Sys2Proof.Machine.execBreakpointHit p id s
  | .stepOpen p => Sys2Proof.Machine.execStepOpen p s
  | .bucketClose p b => Sys2Proof.Machine.execBucketClose p b s
  | .stage1Complete p b => Sys2Proof.Machine.execStage1Complete p b s
  | .shard l => Sys2Proof.Machine.execShard l s
  | .result l => Sys2Proof.Machine.execResult l s
  | .bucketLate p b => Sys2Proof.Machine.execBucketLate p b s
  | .passOne p b => Sys2Proof.Machine.execPassOne p b s
  | .ballotSluice p => Sys2Proof.Machine.execBallotSluice p s
  | .ballot l => Sys2Proof.Machine.execBallot l s
  | .voteSluice p => Sys2Proof.Machine.execVoteSluice p s
  | .hostVerdict p => Sys2Proof.Machine.execHostVerdict p s
  | .hostTimeout p => Sys2Proof.Machine.execHostTimeout p s
  | .maintenancePass p => Sys2Proof.Machine.execMaintenancePass p s
  | .replayOpen p => Sys2Proof.Machine.execReplayOpen p s
  | .passTwo p => Sys2Proof.Machine.execPassTwo p s
  | .close l => Sys2Proof.Machine.execClose l s
  | .closingSluice p => Sys2Proof.Machine.execClosingSluice p s
  | .closeTimeout p => Sys2Proof.Machine.execCloseTimeout p s
  | .linkTraining l lanes peer => Sys2Proof.Machine.execLinkTraining l lanes peer s
  | .trainTimeout l => Sys2Proof.Machine.execTrainTimeout l s
  | .retrainInterval l => Sys2Proof.Machine.execRetrainInterval l s
  | .laneLockLoss l allLost => Sys2Proof.Machine.execLaneLockLoss l allLost s
  | .ackTimeout l => Sys2Proof.Machine.execAckTimeout l s
  | .zlCtrlRetrain h l v => Sys2Proof.Machine.execZlCtrlRetrain h l v s
  | .zlCtrlClr h l v => Sys2Proof.Machine.execZlCtrlClr h l v s
  | .flitReceive l flit corrected => Sys2Proof.Machine.execFlitReceive l flit corrected s
  | .idle l => Sys2Proof.Machine.execIdle l s
  | .mgmt l => Sys2Proof.Machine.execMgmt l s
  | .rowadd l => Sys2Proof.Machine.execRowadd l s
  | .xfer l => Sys2Proof.Machine.execXfer l s
  | .substitution => Sys2Proof.Machine.execSubstitution s
  | .rejoinNoPeer => Sys2Proof.Machine.execRejoinNoPeer s
  | .hangDetect => Sys2Proof.Machine.execHangDetect s
  | .domainRelease kind index failed => Sys2Proof.Machine.execDomainRelease kind index failed s
  | .tileFault d t => Sys2Proof.Machine.execTileFault d t s
  | .memUncorr p addr => Sys2Proof.Machine.execMemUncorr p addr s
  | .patrolScrub d ctl addr uncorr => Sys2Proof.Machine.execPatrolScrub d ctl addr uncorr s
  | .pageZeroed d ctl => Sys2Proof.Machine.execPageZeroed d ctl s
  | .checkpointComplete p => Sys2Proof.Machine.execCheckpointComplete p s
  | .meCkptRestoreGo h p v => Sys2Proof.Machine.execMeCkptRestoreGo h p v s
  | .restoreComplete p => Sys2Proof.Machine.execRestoreComplete p s
  | .mcTileRemapGo h v => Sys2Proof.Machine.execMcTileRemapGo h v s
  | .inServiceSlice d t fail => Sys2Proof.Machine.execInServiceSlice d t fail s
  | .passStarved d t => Sys2Proof.Machine.execPassStarved d t s
  | .spareTestRound d => Sys2Proof.Machine.execSpareTestRound d s
  | .stStatusClrCounts h d t v => Sys2Proof.Machine.execStStatusClrCounts h d t v s
  | .tdIdxCtrlClr h p v => Sys2Proof.Machine.execTdIdxCtrlClr h p v s
  | .mtEccCtrlClr h v => Sys2Proof.Machine.execMtEccCtrlClr h v s
  | .bcCtrlClr h d v => Sys2Proof.Machine.execBcCtrlClr h d v s
  | .obBankCtrlClr h b v => Sys2Proof.Machine.execObBankCtrlClr h b v s
  | .obBankCtrlSample h b v => Sys2Proof.Machine.execObBankCtrlSample h b v s
  | .mcLedgerCtrlClear h v => Sys2Proof.Machine.execMcLedgerCtrlClear h v s
  | .clrHang h v => Sys2Proof.Machine.execClrHang h v s
  | .mcDieCtrl h v => Sys2Proof.Machine.execMcDieCtrl h v s
  | .hostBar2Write h off data => Sys2Proof.Machine.execHostBar2Write h off data s
  | .hostBar2Read h off len => Sys2Proof.Machine.execHostBar2Read h off len s
  | .vectorUnmask f v => Sys2Proof.Machine.execVectorUnmask f v s
  | .functionLevelReset f => Sys2Proof.Machine.execFunctionLevelReset f s
  | .auxPowerUp straps => Sys2Proof.Machine.execAuxPowerUp straps s
  | .pwrEnAssert => Sys2Proof.Machine.execPwrEnAssert s
  | .pwrEnDeassert => Sys2Proof.Machine.execPwrEnDeassert s
  | .perstAssert => Sys2Proof.Machine.execPerstAssert s
  | .moduleStart r => Sys2Proof.Machine.execModuleStart r s
  | .railFault rail => Sys2Proof.Machine.execRailFault rail s
  | .inputVoltageFault high => Sys2Proof.Machine.execInputVoltageFault high s
  | .auxUndervoltage => Sys2Proof.Machine.execAuxUndervoltage s
  | .powerWindow meanMw r => Sys2Proof.Machine.execPowerWindow meanMw r s
  | .fastPowerLimit => Sys2Proof.Machine.execFastPowerLimit s
  | .thermalReading r => Sys2Proof.Machine.execThermalReading r s
  | .readSensor args => Sys2Proof.Machine.execReadSensor args s
  | .readStatus args => Sys2Proof.Machine.execReadStatus args s
  | .setCap args => Sys2Proof.Machine.execSetCap args s
  | .readCap args => Sys2Proof.Machine.execReadCap args s
  | .readLedger args => Sys2Proof.Machine.execReadLedger args s
  | .readId args => Sys2Proof.Machine.execReadId args s
  | .alertRead args => Sys2Proof.Machine.execAlertRead args s
  | .alertClear args => Sys2Proof.Machine.execAlertClear args s
  | .alertMask args => Sys2Proof.Machine.execAlertMask args s
  | .entdaa addr => Sys2Proof.Machine.execEntdaa addr s
  | .setdasa old addr => Sys2Proof.Machine.execSetdasa old addr s
  | .rstdaa => Sys2Proof.Machine.execRstdaa s
  | .setnewda old addr => Sys2Proof.Machine.execSetnewda old addr s
  | .getpid addr => Sys2Proof.Machine.execGetpid addr s
  | .getbcr addr => Sys2Proof.Machine.execGetbcr addr s
  | .getdcr addr => Sys2Proof.Machine.execGetdcr addr s
  | .getstatus addr => Sys2Proof.Machine.execGetstatus addr s
  | .enec addr bits => Sys2Proof.Machine.execEnec addr bits s
  | .disec addr bits => Sys2Proof.Machine.execDisec addr bits s
  | .getmrl addr => Sys2Proof.Machine.execGetmrl addr s
  | .setmrl addr len => Sys2Proof.Machine.execSetmrl addr len s
  | .getmwl addr => Sys2Proof.Machine.execGetmwl addr s
  | .setmwl addr len => Sys2Proof.Machine.execSetmwl addr len s
  | .getmxds addr => Sys2Proof.Machine.execGetmxds addr s
  | .rstact addr kind => Sys2Proof.Machine.execRstact addr kind s
  | .extest => Sys2Proof.Machine.execExtest s
  | .samplePreload load => Sys2Proof.Machine.execSamplePreload load s
  | .idcode => Sys2Proof.Machine.execIdcode s
  | .clamp => Sys2Proof.Machine.execClamp s
  | .highz => Sys2Proof.Machine.execHighz s
  | .ijtag => Sys2Proof.Machine.execIjtag s
  | .bypass => Sys2Proof.Machine.execBypass s
  | .tapReset => Sys2Proof.Machine.execTapReset s
  | .scanEn => Sys2Proof.Machine.execScanEn s
  | .bcResult d => Sys2Proof.Machine.execBcResult d s
  | .pprStatus d => Sys2Proof.Machine.execPprStatus d s
  | .misrRead d => Sys2Proof.Machine.execMisrRead d s
  | .getVersion f msg => Sys2Proof.Machine.execGetVersion f msg s
  | .getCapabilities f msg => Sys2Proof.Machine.execGetCapabilities f msg s
  | .negotiateAlgorithms f msg => Sys2Proof.Machine.execNegotiateAlgorithms f msg s
  | .getDigests f msg => Sys2Proof.Machine.execGetDigests f msg s
  | .getCertificate f msg => Sys2Proof.Machine.execGetCertificate f msg s
  | .challenge f msg => Sys2Proof.Machine.execChallenge f msg s
  | .getMeasurements f session index nonce => Sys2Proof.Machine.execGetMeasurements f session index nonce s
  | .keyExchange f msg => Sys2Proof.Machine.execKeyExchange f msg s
  | .finish f session msg => Sys2Proof.Machine.execFinish f session msg s
  | .endSession f session msg => Sys2Proof.Machine.execEndSession f session msg s
  | .heartbeat f session msg => Sys2Proof.Machine.execHeartbeat f session msg s
  | .keyUpdate f session msg => Sys2Proof.Machine.execKeyUpdate f session msg s
  | .release f session body => Sys2Proof.Machine.execRelease f session body s
  | .revoke f session body => Sys2Proof.Machine.execRevoke f session body s
  | .query f session body => Sys2Proof.Machine.execQuery f session body s
  | .kSetGo f session stream => Sys2Proof.Machine.execKSetGo f session stream s
  | .kSetStop f session stream => Sys2Proof.Machine.execKSetStop f session stream s
  | .registerRead h off len => Sys2Proof.Machine.execRegisterRead h off len s
  | .p48vReaching40V => Sys2Proof.Machine.execP48vReaching40V s
  | .p48vBelow36V => Sys2Proof.Machine.execP48vBelow36V s
  | .managementFrame => Sys2Proof.Machine.execManagementFrame s
  | .shardOwnerSum p b => Sys2Proof.Machine.execShardOwnerSum p b s
  | .spareTestEnd d t pass => Sys2Proof.Machine.execSpareTestEnd d t pass s
  | .coarsePowerRefresh => Sys2Proof.Machine.execCoarsePowerRefresh s

end Sys2Proof.Machine
end

