-- ==== Sys2Proof/Safety.lean ====
section
/-! DEFINITION. What a safe run is: no step faults. A refusal names an event that cannot happen in the state and ends the run as well. -/

namespace Sys2Proof

/-- A step goes on: it answers a next state. -/
def Machine.State.goesOn (s : Machine.State) : Prop := ∃ t, Machine.step s = .next t

/-- A step is free of faults. -/
def Machine.State.faultFree (s : Machine.State) : Prop := ∀ r, Machine.step s ≠ .fault r

end Sys2Proof
end

