-- ==== Sys2Proof/Certificates/Slice0/Obligations.lean ====
section
/-! DEFINITION. The statements for the provers. -/

open Sys2Proof Sys2Proof.Machine

/-! ## The block as a whole -/

/-- A step runs the command at the front of the queue on the state with the queue's rest: commands run first in, first out. The queue is the model's (log entry 4). -/
def StepRunsFrontCommand : Prop :=
  ∀ (c : Instr) (rest : List Instr) (s : State), s.pending = c :: rest → step s = exec c { s with pending := rest }

/-- On an empty queue the block idles: the model's choice (log entry 4). -/
def EmptyQueueIdles : Prop :=
  ∀ s : State, s.pending = [] → step s = .next s

/-- A step runs the front command of the queue on the state with the queue's rest, and idles on an empty queue, which is the model's choice (log entry 4). -/
def Obligations.StepRunsTheQueueFirstInFirstOut : Prop := StepRunsFrontCommand ∧ EmptyQueueIdles

/-- No command changes the queue of the commands that wait behind it, and none changes what the module is fused with (R308, R425, R434). -/
def Obligations.CommandsKeepQueueAndFuses : Prop :=
  ∀ (i : Instr) (s t : State), exec i s = .next t → t.pending = s.pending ∧ t.fuse = s.fuse

/-- No command faults; one that the state does not call for is refused by that name alone (log entry 5). -/
def Obligations.CommandsAnswerOrAreNotEnabled : Prop :=
  ∀ (i : Instr) (s : State), (∃ t, exec i s = .next t) ∨ exec i s = .refused .notEnabled

/-- Device memory keeps its canonical form at every step: addresses strictly rising, no zero byte listed, so that equal memories are equal data. -/
def Obligations.StepKeepsMemoryCanonical : Prop :=
  ∀ s t : State, Memory.wf s.m.mem.cells = true → step s = .next t → Memory.wf t.m.mem.cells = true

/-- What the I3C target holds is legal: maximum write and read lengths of at most 32 bytes (R498), a 7-bit dynamic address (R499), a byte of alerts and a byte of
masks (R502). -/
def I3cLegal (c : I3c) : Prop := c.mwl ≤ 32 ∧ c.mrl ≤ 32 ∧ c.alert < 256 ∧ c.mask < 256 ∧ ∀ a, c.addr = some a → a < 128

/-- Every step keeps the I3C target legal (R498, R499, R502). -/
def StepKeepsI3cLegal : Prop :=
  ∀ s t : State, I3cLegal s.i3c → step s = .next t → I3cLegal t.i3c

/-- The test port's instruction is one of R505, BYPASS for every other code. -/
def TapLegal (c : Tap) : Prop := c.ir ∈ [0x01, 0x02, 0x03, 0x04, 0x05, 0x10, 0xFF]

/-- Every step keeps the test port's instruction among those of R505. -/
def StepKeepsTapInstructionLegal : Prop :=
  ∀ s t : State, TapLegal s.tap → step s = .next t → TapLegal t.tap

/-- Every step keeps the I3C target's lengths, address and alert byte legal, and the test port's instruction one of R505 (R498, R499, R502, R505). -/
def Obligations.StepKeepsI3cAndTapLegal : Prop := StepKeepsI3cLegal ∧ StepKeepsTapInstructionLegal

/-- Right after reset the queue is empty, nothing is listed in memory, and the invariants above hold. -/
def Obligations.ResetMeetsInvariants : Prop :=
  State.reset.pending = [] ∧ State.reset.m.mem.cells = [] ∧ Memory.wf State.reset.m.mem.cells = true ∧ I3cLegal State.reset.i3c ∧ TapLegal State.reset.tap

/-! ## Numbers (03_number_formats.md, 04_forward_array.md, 08_memory_tiers.md) -/

/-- Every code of a floating format but the NaN codes is the code that its own value narrows to, without a flag but INF_IN for an infinity: decoding loses
nothing, and the encoder names every code (R70 to R74, R90). -/
def Obligations.CodesRoundTrip : Prop :=
  ∀ (f : Fmt) (c : Nat), f.isFloat = true → c < 2 ^ f.width → f.decode c ≠ .nan →
    narrow f false none (f.decode c) = (c, if (f.decode c).isInf then cvINFIN else 0)

/-- Rounding of a magnitude m * 2^e to the grid of a format: without a draw the result lies within half a grid step of it, and with a 16-bit draw within less than
one (R85, R86). -/
def Obligations.RoundingStaysWithinTheGridStep : Prop :=
  ∀ (f : Fmt) (m : Nat) (e : Int), f.isFloat = true → 0 < m →
    (∀ n q, f.roundMag none m e = (n, q) → 2 * |(n : ℚ) * 2 ^ q - (m : ℚ) * 2 ^ e| ≤ 2 ^ q)
    ∧ ∀ (r n : Nat) (q : Int), r < 65536 → f.roundMag (some r) m e = (n, q) → |(n : ℚ) * 2 ^ q - (m : ℚ) * 2 ^ e| < 2 ^ q

/-- A narrowing conversion of a finite value gives a code of the format that is finite: overflow saturates and never makes an infinity or a NaN (R90). -/
def FiniteValuesNarrowToFiniteCodes : Prop :=
  ∀ (f : Fmt) (sub neg : Bool) (draw : Option Nat) (m : Nat) (e : Int), f.isFloat = true → (∀ r, draw = some r → r < 65536) →
    (narrow f sub draw (.fin neg m e)).1 < 2 ^ f.width ∧ (f.decode (narrow f sub draw (.fin neg m e)).1).isFin = true

/-- The conversions of R88's table keep the value: NaN gives the destination's NaN, an infinity the infinity of its sign, a finite value an equal one, and a zero keeps
its sign but into N8. -/
def ExactConversionsKeepTheValue : Prop :=
  ∀ (src dst : Fmt) (c : Nat), exactInto src dst = true → c < 2 ^ src.width →
    (src.decode c = .nan → dst.decode (exactConvert dst (src.decode c)) = .nan)
    ∧ (∀ neg, src.decode c = .inf neg → dst.decode (exactConvert dst (src.decode c)) = .inf neg)
    ∧ ((src.decode c).isFin = true → (dst.decode (exactConvert dst (src.decode c))).eqv (src.decode c) = true)
    ∧ ((src.decode c).isZero = true → dst ≠ .n8 → (dst.decode (exactConvert dst (src.decode c))).isNeg = (src.decode c).isNeg)

/-- A finite value narrows to a finite code, and a conversion that says it is exact keeps the value. -/
def Obligations.ConversionsOfFiniteValues : Prop := FiniteValuesNarrowToFiniteCodes ∧ ExactConversionsKeepTheValue

/-- What a long accumulator drains, and what a near-memory reducer makes of an element, does not depend on the order of the contributions (R111, R232). -/
def Obligations.SumsIgnoreTheOrderOfContributions : Prop :=
  (∀ l k : List Val, l.Perm k → (xsum l).val = (xsum k).val ∧ (xsum l).fl = (xsum k).fl)
  ∧ ∀ (anchor : Int) (kind old : Nat) (l k : List Contrib), l.Perm k → reduceElem anchor kind old l = reduceElem anchor kind old k

/-! ## Registers and memory -/

/-- The number of indices of a block of registers. -/
def RegBlk.count (b : RegBlk) : Nat := (b.dims.map (·.2)).foldl (· * ·) 1

/-- The BAR0 map is unambiguous: the offset of every register at every index of its block leads back to that register and that index. -/
def Obligations.RegisterOffsetsDecode : Prop :=
  ∀ (r : RegName) (b : RegBlk) (i : Nat), r.blk = some b → i < RegBlk.count b → regAt (r.addr i) = some (r, i)

/-- Device memory reads back what is written: under the mask at every address that maps to the byte, everything else as before, and no table of the
memory system changes (R8, R45). -/
def Obligations.DeviceMemoryReadsBack : Prop :=
  ∀ (m : Mod) (p : Nat) (w : WCell) (a : Nat), m.phys p w.addr = some a →
    (∀ p' x, m.phys p' x = some a → (m.putMem p [w]).getB p' x = (m.getB p' x &&& ~~~w.mask) ||| (w.val &&& w.mask))
    ∧ (∀ p' x, m.phys p' x ≠ some a → (m.putMem p [w]).getB p' x = m.getB p' x)
    ∧ ∃ cells, m.putMem p [w] = { m with mem := { m.mem with cells := cells } }

/-! ## Host accesses (02_frames_and_commit.md, 10_command_interface.md, 18_pins_and_electrical.md) -/

/-- A 32-bit write at a BAR0 offset. -/
def word (h : Port) (off : Nat) (v : Word) : Option (Port × HostAcc) := some (h, .write h.fn off 4 (0#32 ++ v))

/-- The access through BAR0 or BAR2 that each host row is, with the offsets of the register tables (R50, R58, R304, R310, R183, R210, R242, R372, R400, R414, R453, R468). -/
def hostRow : Instr → Option (Port × HostAcc)
  | .registerWrite h off len v => if h.space = .bar0 then some (h, .write h.fn off.toNat len v) else none
  | .registerRead h off len => if h.space = .bar0 then some (h, .read h.fn off.toNat len) else none
  | .hostBar2Write h off data => some (h, .write2 h.fn off.toNat data)
  | .hostBar2Read h off len => some (h, .read2 h.fn off.toNat len)
  | .fcCtOpen h slot => word h 0x300044 (BitVec.ofNat 32 (slot * 256 + 1))
  | .fcCtClose h slot => word h 0x300044 (BitVec.ofNat 32 (slot * 256 + 2))
  | .fcCtAbandon h slot => word h 0x300044 (BitVec.ofNat 32 (slot * 256 + 3))
  | .weirSignal h n add => word h (0x200008 + 0x10 * n) add
  | .weirCtrlClear h n v => word h (0x20000C + 0x10 * n) (v ||| 0x2#32)
  | .doorbell h q v => word h (0x100018 + 0x40 * q) v
  | .cqCplHead h q v => word h (0x100020 + 0x40 * q) v
  | .enable h q => word h (0x10002C + 0x40 * q) 1#32
  | .pause h q => word h (0x10002C + 0x40 * q) 2#32
  | .resume h q => word h (0x10002C + 0x40 * q) 3#32
  | .reset h q => word h (0x10002C + 0x40 * q) 4#32
  | .mqTail h v => word h (0x9104 + 0x2000 * h.fn) v
  | .zlCtrlRetrain h l v => word h (0x3000000 + 0x100 * l) (v ||| 0x2#32)
  | .zlCtrlClr h l v => word h (0x3000000 + 0x100 * l) (v ||| 0x4#32)
  | .meCkptRestoreGo h p v => word h (0x680070 + 8 * p) (v ||| 0x80000000#32)
  | .mcTileRemapGo h v => word h 0x680064 (v ||| 0x80000000#32)
  | .stStatusClrCounts h d t v => word h (0x1200024 + 0x800000 * d + 0x100 * t) (v ||| 0x80000000#32)
  | .tdIdxCtrlClr h p v => word h (0x4F0000 + 0x40 * p) (v ||| 0x80000000#32)
  | .mtEccCtrlClr h v => word h 0x401000 (v ||| 0x80000000#32)
  | .bcCtrlClr h d v => word h (0x1600000 + 0x800000 * d) (v ||| 0x20000000#32)
  | .obBankCtrlClr h b v => word h (0x610000 + 0x1000 * b) (v ||| 0x80000000#32)
  | .obBankCtrlSample h b v => word h (0x610000 + 0x1000 * b) (v ||| 0x40000000#32)
  | .mcLedgerCtrlClear h v => word h 0x680034 (v ||| 0x80000000#32)
  | .clrHang h v => word h 0x680034 (v ||| 0x40000000#32)
  | .mcDieCtrl h v => word h 0x681808 v
  | _ => none

/-- A host access that reaches the hub in a sluice window, which the row says or which is open, is held, unperformed, until the sluice is complete (R47); nothing else changes. -/
def HostAccessInTheSluiceWindowIsHeld : Prop :=
  ∀ (i : Instr) (h : Port) (a : HostAcc) (s : State), hostRow i = some (h, a) → s.m.pci.up = true → (h.win = true ∨ s.m.inFrame = false) → s.m.running = true →
    exec i s = .next { s with m := { s.m with pci := { s.m.pci with held := s.m.pci.held ++ [a] } } }

/-- A host access does not wait for a sluice: no sluice window is open, or the module takes no sluices. -/
def AtOnce (s : State) (h : Port) : Prop := (h.win = false ∧ s.m.inFrame = true) ∨ s.m.running = false

/-- A host access is performed at once: the port is up, no sluice window is open, the function's memory space is enabled, the access has a form that R495 allows, and
its target lies in a live domain. -/
def Reaches (s : State) (h : Port) (a : HostAcc) : Prop :=
  s.m.pci.up = true ∧ AtOnce s h ∧ a.fn ∈ s.m.pci.memEn ∧ a.allowed = true ∧ s.m.reach a = .live

/-- A write dropped and counted in MC_CDC_STATUS.DROPPED, which saturates: at the frame's sluice, or at once where the module takes no sluices (R28). -/
def droppedWrite (m : Mod) : Mod :=
  if m.running then { m with stg := m.stg ++ [⟨0, none, none, .countFld .MC_CDC_STATUS_DROPPED 0 1⟩] }
  else m.setFld .MC_CDC_STATUS_DROPPED 0 (min 65535 (m.fld .MC_CDC_STATUS_DROPPED 0 + 1))

/-- An access that may not be performed outside a sluice window: one of a disabled function or of a form that R495 does not allow is answered with Unsupported Request,
or dropped; one into a domain in reset with Completer Abort, or dropped and counted in MC_CDC_STATUS.DROPPED; one into a stopped die is held for it, a 17th write
dropped and counted (R379, R384, R494, R495). -/
def HostAccessTurnedAway : Prop :=
  ∀ (i : Instr) (h : Port) (a : HostAcc) (s : State), hostRow i = some (h, a) → s.m.pci.up = true → AtOnce s h →
    ((a.fn ∉ s.m.pci.memEn ∨ a.allowed = false) → ∃ t, exec i s = .next t ∧ t = if a.isRead then { s with m := s.m.emit (.unsupported a.fn) } else s)
    ∧ (a.fn ∈ s.m.pci.memEn → a.allowed = true → s.m.reach a = .inReset →
        ∃ t, exec i s = .next t ∧ t = if a.isRead then { s with m := s.m.emit (.abortCompletion a.fn) } else { s with m := droppedWrite s.m })
    ∧ ∀ d, a.fn ∈ s.m.pci.memEn → a.allowed = true → s.m.reach a = .stopped d →
        ∃ t, exec i s = .next t ∧ t = if a.isRead = false ∧ 16 ≤ (s.m.pci.stuck.filter fun x => x.1 == d).length then { s with m := droppedWrite s.m }
          else { s with m := { s.m with pci := { s.m.pci with stuck := s.m.pci.stuck ++ [(d, a)] } } }

/-- Host accesses that are not performed at once: held in the sluice window, or turned away. -/
def Obligations.HostAccessesAreHeldOrTurnedAway : Prop := HostAccessInTheSluiceWindowIsHeld ∧ HostAccessTurnedAway

/-- The rows that write bits outside the TX mark, each with the register, its index and the word written. -/
def stagedRow : Instr → Option (Port × RegName × Nat × Word)
  | .weirCtrlClear h n v => some (h, .WEIR_CTRL, n, v ||| 0x2#32)
  | .doorbell h q v => some (h, .CQ_TAIL, q, v)
  | .cqCplHead h q v => some (h, .CQ_CPL_HEAD, q, v)
  | .enable h q => some (h, .CQ_CMD, q, 1#32)
  | .pause h q => some (h, .CQ_CMD, q, 2#32)
  | .resume h q => some (h, .CQ_CMD, q, 3#32)
  | .reset h q => some (h, .CQ_CMD, q, 4#32)
  | .mqTail h v => some (h, .MQ_TAIL, h.fn, v)
  | .zlCtrlRetrain h l v => some (h, .ZL_CTRL, l, v ||| 0x2#32)
  | .zlCtrlClr h l v => some (h, .ZL_CTRL, l, v ||| 0x4#32)
  | .stStatusClrCounts h d t v => some (h, .ST_STATUS, d * 48 + t, v ||| 0x80000000#32)
  | .tdIdxCtrlClr h p v => some (h, .TD_IDX_CTRL, p, v ||| 0x80000000#32)
  | .mtEccCtrlClr h v => some (h, .MT_ECC_CTRL, 0, v ||| 0x80000000#32)
  | .bcCtrlClr h d v => some (h, .BC_CTRL, d, v ||| 0x20000000#32)
  | .obBankCtrlClr h b v => some (h, .OB_BANK_CTRL, b, v ||| 0x80000000#32)
  | .obBankCtrlSample h b v => some (h, .OB_BANK_CTRL, b, v ||| 0x40000000#32)
  | .mcLedgerCtrlClear h v => some (h, .MC_LEDGER_CTRL, 0, v ||| 0x80000000#32)
  | .clrHang h v => some (h, .MC_LEDGER_CTRL, 0, v ||| 0x40000000#32)
  | _ => none

/-- What a registered write leaves as it is until its sluice: the values of all registers and their flags, queues and commands, memories, descriptors, staged effects,
links, traces, the port's own state and the step state. -/
def SameUntilSluice (m t : Mod) : Prop :=
  t.rf.vals = m.rf.vals ∧ t.cq = m.cq ∧ t.mem = m.mem ∧ t.tile = m.tile ∧ t.td = m.td ∧ t.stg = m.stg ∧ t.ue = m.ue ∧ t.zl = m.zl ∧ t.sec = m.sec
    ∧ t.fc = m.fc ∧ t.pci = m.pci ∧ t.pwr = m.pwr ∧ t.io = m.io

/-- A registered write that its function may make waits for step 5 of the sluice, after those that arrived before it (R53); a write of WEIR_CTRL.CLEAR also stages the
weir's clear (R58), one of OB_BANK_CTRL the clear and the sample that it asks for (R438, R439). Nothing else changes but a configuration slot, where the write
carries TX bits too, and BARE_WRITE (R50). -/
def Obligations.RegisteredWritesWaitForTheSluice : Prop :=
  ∀ (i : Instr) (h : Port) (a : HostAcc) (r : RegName) (idx : Nat) (v : Word) (s : State),
    hostRow i = some (h, a) → stagedRow i = some (h, r, idx, v) → Reaches s h a →
    s.m.diked h.fn (.reg r idx) = false → s.m.notOwned h.fn (.reg r idx) = false →
    ∃ t, exec i s = .next t ∧ t.m.rf.stage = s.m.rf.stage ++ [⟨h.fn, r, idx, v⟩] ∧ SameUntilSluice s.m t.m
      ∧ t.m.wr.sigs = s.m.wr.sigs ∧ (∀ n, n ∈ t.m.wr.clears ↔ n ∈ s.m.wr.clears ∨ (r = .WEIR_CTRL ∧ n = idx))
      ∧ (∀ b, (t.m.bank b).armed = ((s.m.bank b).armed || (decide (r = .OB_BANK_CTRL ∧ b = idx) && v.getLsbD 31))
          ∧ (t.m.bank b).ask = ((s.m.bank b).ask || (decide (r = .OB_BANK_CTRL ∧ b = idx) && v.getLsbD 30)))
      ∧ (r.desc.tx = 0 → t.m.ct = s.m.ct ∧ t.m.rf.flags = s.m.rf.flags) ∧ t.pins = s.pins ∧ t.i3c = s.i3c ∧ t.tap = s.tap

/-- The state with one refusal by the dike of a polder counted for the frame's sluice (R28, R418). -/
def refusal (m : Mod) (p : Nat) : Mod := { m with stg := m.stg ++ [⟨0, none, none, .count .SP_DIKE_DENIED p 1⟩] }

/-- A registered write of a register of another polder is dropped, and where the register has no TX bits the refusal is counted in SP_DIKE_DENIED of the function's polder
(R28, R418); a write of a queue's register by a function that does not own the queue is dropped (R278). -/
def ForeignRegisterWritesAreDropped : Prop :=
  ∀ (i : Instr) (h : Port) (a : HostAcc) (r : RegName) (idx : Nat) (v : Word) (s : State),
    hostRow i = some (h, a) → stagedRow i = some (h, r, idx, v) → Reaches s h a →
    (s.m.diked h.fn (.reg r idx) = true → r.desc.tx = 0 →
      exec i s = .next { s with m := (refusal s.m (s.m.polderOf h.fn)).portMoved })
    ∧ (s.m.diked h.fn (.reg r idx) = false → s.m.notOwned h.fn (.reg r idx) = true → exec i s = .next { s with m := s.m.portMoved })

/-- FC_CT_CMD's operations act on a slot in the state that each names, and on no other: an open empties a free slot, a close takes its place in the order of closes,
an abandon waits for the sluice (R50, R51, R54). -/
def ConfigurationSlotsOpenCloseAndAbandon : Prop :=
  ∀ (i : Instr) (h : Port) (k : Fin 16) (a : HostAcc) (s : State), i ∈ [.fcCtOpen h k, .fcCtClose h k, .fcCtAbandon h k] → hostRow i = some (h, a) → Reaches s h a →
    ∃ t, exec i s = .next t ∧ SameUntilSluice s.m t.m ∧ t.m.rf = s.m.rf ∧ t.m.wr = s.m.wr ∧ t.m.ob = s.m.ob
      ∧ (∀ fn n, fn * 16 + n ≠ h.fn.val * 16 + k.val → t.m.ctSlot fn n = s.m.ctSlot fn n)
      ∧ let c := s.m.ctSlot h.fn k
        (i = .fcCtOpen h k → t.m.ct.closes = s.m.ct.closes ∧ t.m.ct.abandons = s.m.ct.abandons
          ∧ t.m.ctSlot h.fn k = if c.st = .free then ⟨.opened, [], false, c.err⟩ else c)
        ∧ (i = .fcCtClose h k → t.m.ct.abandons = s.m.ct.abandons ∧ t.m.ct.closes = (if c.st = .opened then s.m.ct.closes + 1 else s.m.ct.closes)
          ∧ t.m.ctSlot h.fn k = if c.st = .opened then { c with st := .closed s.m.ct.closes } else c)
        ∧ (i = .fcCtAbandon h k → t.m.ctSlot h.fn k = c ∧ t.m.ct.closes = s.m.ct.closes
          ∧ t.m.ct.abandons = if c.st = .free then s.m.ct.abandons else s.m.ct.abandons ++ [(h.fn.val, k.val)])

/-- The rows that write a register whose bits are all marked TX, each with the register, its index and the word. -/
def txRow : Instr → Option (Port × RegName × Nat × Word)
  | .meCkptRestoreGo h p v => some (h, .ME_CKPT_RESTORE, p, v ||| 0x80000000#32)
  | .mcTileRemapGo h v => some (h, .MC_TILE_REMAP, 0, v ||| 0x80000000#32)
  | .mcDieCtrl h v => some (h, .MC_DIE_CTRL, 0, v)
  | _ => none

/-- A write of a TX register goes to the slot that its function has selected, if that slot is open: as its last write, marked where the dike refuses it; the 257th write
is dropped and fails the slot with CONFIG_OVERFLOW. Without an open slot it is dropped and sets BARE_WRITE, and a refusal of the dike is counted. MC_DIE_CTRL takes
writes of F0 alone (R50, R51, R418, R463). -/
def TxWritesGoToTheOpenSlot : Prop :=
  ∀ (i : Instr) (h : Port) (a : HostAcc) (r : RegName) (idx : Nat) (v : Word) (s : State), hostRow i = some (h, a) → txRow i = some (h, r, idx, v) → Reaches s h a →
    let k := s.m.ctSel h.fn
    let c := s.m.ctSlot h.fn k
    let no := s.m.diked h.fn (.reg r idx)
    (r = .MC_DIE_CTRL → h.fn ≠ 0 → exec i s = .next { s with m := s.m.portMoved })
    ∧ ((r = .MC_DIE_CTRL → h.fn = 0) → c.st ≠ .opened → exec i s =
        .next { s with m := ((if no then refusal s.m (s.m.polderOf h.fn) else s.m).raise .FC_CT_STATUS_BARE_WRITE h.fn).portMoved })
    ∧ ((r = .MC_DIE_CTRL → h.fn = 0) → c.st = .opened → ∃ t, exec i s = .next t ∧ SameUntilSluice s.m t.m ∧ t.m.rf = s.m.rf ∧ t.m.wr = s.m.wr ∧ t.m.ob = s.m.ob
        ∧ t.m.ct.closes = s.m.ct.closes ∧ t.m.ct.abandons = s.m.ct.abandons
        ∧ (∀ fn n, fn * 16 + n ≠ h.fn.val * 16 + k → t.m.ctSlot fn n = s.m.ctSlot fn n)
        ∧ t.m.ctSlot h.fn k = if 256 ≤ c.writes.length then { c with failed := true, err := 0x28 }
            else { c with writes := c.writes ++ [⟨r, idx, v &&& r.desc.tx, no⟩] })

/-- Configuration slots open, close and are abandoned, and TX writes go to the function's open slot. -/
def Obligations.ConfigurationSlotsTakeWrites : Prop := ConfigurationSlotsOpenCloseAndAbandon ∧ TxWritesGoToTheOpenSlot

/-- WEIR_SIGNAL stages the amount for the weir's next sluice; 0 has no effect, and a weir of another polder takes nothing (R55, R58, R418). -/
def WeirSignalStagesItsAmount : Prop :=
  ∀ (h : Port) (n : Fin 16384) (add : Word) (a : HostAcc) (s : State), hostRow (.weirSignal h n add) = some (h, a) → Reaches s h a →
    (s.m.diked h.fn (.reg .WEIR_SIGNAL n) = false →
      ∃ t, exec (.weirSignal h n add) s = .next t ∧ SameUntilSluice s.m t.m ∧ t.m.rf = s.m.rf ∧ t.m.ct = s.m.ct ∧ t.m.wr.clears = s.m.wr.clears
        ∧ t.m.wr.sigs = if add = 0 then s.m.wr.sigs else s.m.wr.sigs ++ [{ weir := n.val, add := add.toNat, seq := 0, eng := none, src := 8 * 65536 }])
    ∧ (s.m.diked h.fn (.reg .WEIR_SIGNAL n) = true →
      exec (.weirSignal h n add) s = .next { s with m := (refusal s.m (s.m.polderOf h.fn)).portMoved })

/-- A 4-byte read of a register that is no half of a 64-bit quantity returns in one completion what the function may see of it: the register, 0 where the dike refuses the
read, which is counted, or where the register is of a queue of another function. It changes no register and nothing else (R52, R278, R418). -/
def RegisterReadReturnsTheRegister : Prop :=
  ∀ (h : Port) (off : BitVec 26) (r : RegName) (idx : Nat) (s : State), h.space = .bar0 → Reaches s h (.read h.fn off.toNat 4) →
    targetAt h.fn off.toNat = some (.reg r idx) → pairAt h.fn off.toNat = none →
    (s.m.diked h.fn (.reg r idx) = true → exec (.registerRead h off 4) s =
        .next { s with m := ((refusal s.m (s.m.polderOf h.fn)).emit (.completion h.fn 0 4)).portMoved })
    ∧ (s.m.diked h.fn (.reg r idx) = false → s.m.notOwned h.fn (.reg r idx) = true →
        exec (.registerRead h off 4) s = .next { s with m := (s.m.emit (.completion h.fn 0 4)).portMoved })
    ∧ (s.m.diked h.fn (.reg r idx) = false → s.m.notOwned h.fn (.reg r idx) = false → ∃ t, exec (.registerRead h off 4) s = .next t
        ∧ t.m.io.out = s.m.io.out ++ [.completion h.fn (0#32 ++ s.m.seen h.fn r idx) 4]
        ∧ t = { s with m := { s.m with io := t.m.io, rel := { s.m.rel with moved := t.m.rel.moved } } })

/-- A 4-byte write of a register without TX bits that is no half of a 64-bit quantity and has no command bits of its own kind waits for the sluice; one that touches no bit that
software may write is ignored (R13, R53). -/
def RegisterWriteWaitsForTheSluice : Prop :=
  ∀ (h : Port) (off : BitVec 26) (r : RegName) (idx : Nat) (v : DWord) (s : State), h.space = .bar0 → Reaches s h (.write h.fn off.toNat 4 v) →
    targetAt h.fn off.toNat = some (.reg r idx) → pairAt h.fn off.toNat = none → r.desc.tx = 0 → f0Only r = false →
    r ∉ [.FC_CT_SEL, .FC_CT_CMD, .WEIR_SIGNAL, .WEIR_CTRL, .OB_BANK_CTRL] →
    s.m.diked h.fn (.reg r idx) = false → s.m.notOwned h.fn (.reg r idx) = false →
    ∃ t, exec (.registerWrite h off 4 v) s = .next t ∧ SameUntilSluice s.m t.m ∧ t.m.ct = s.m.ct ∧ t.m.wr = s.m.wr ∧ t.m.ob = s.m.ob
      ∧ t.m.rf = if r.desc.rw = 0 ∧ r ≠ .CQ_TAIL ∧ r ≠ .MQ_TAIL ∧ (v.setWidth 32 : Word) &&& (r.desc.w1c ||| r.desc.w1s ||| r.desc.wo) = 0 then s.m.rf
          else { s.m.rf with stage := s.m.rf.stage ++ [⟨h.fn, r, idx, v.setWidth 32⟩] }

/-- Accesses of the configuration header and of BAR4 are the port's own and wait for no sluice: a read of the header answers with what R492 and R493 give it, and a read or write of a
field that software does not set changes nothing; a BAR4 access outside the MSI-X table and the pending bits, or with Memory Space Enable clear, is answered with Unsupported Request, or
dropped (R493, R494). -/
def PortStructuresAnswerTheHost : Prop :=
  ∀ (h : Port) (off : BitVec 26) (len : Nat) (v : DWord) (s : State), s.m.pci.up = true →
    (∀ r, h.space = .cfg r → exec (.registerRead h off len) s = .next { s with m := s.m.emit (.completion h.fn (s.m.cfgRead s.fuse h.fn r) 4) }
      ∧ (r = .device → s.m.cfgRead s.fuse h.fn r = 0x4801#64) ∧ (r = .revision → s.m.cfgRead s.fuse h.fn r = 0xA1#64) ∧ (r = .classCode → s.m.cfgRead s.fuse h.fn r = 0x120000#64)
      ∧ (r = .headerType → s.m.cfgRead s.fuse h.fn r = 0x80#64)
      ∧ (r ∈ [.vendor, .device, .revision, .classCode, .headerType, .subsystemVendor, .subsystem] → exec (.registerWrite h off len v) s = .next s)
      ∧ (r = .command → ∃ t, exec (.registerWrite h off len v) s = .next t ∧ t = { s with m := { s.m with pci := { s.m.pci with memEn := t.m.pci.memEn } } }
          ∧ ∀ n, n ∈ t.m.pci.memEn ↔ if n = h.fn.val then v.getLsbD 1 = true else n ∈ s.m.pci.memEn))
    ∧ (h.space = .bar4 → (h.fn.val ∉ s.m.pci.memEn ∨ 0x8100 < off.toNat + len ∨ (len ≠ 4 ∧ len ≠ 8)) →
        exec (.registerRead h off len) s = .next { s with m := s.m.emit (.unsupported h.fn) } ∧ exec (.registerWrite h off len v) s = .next s)
    ∧ (h.space = .bar4 → h.fn.val ∈ s.m.pci.memEn → off.toNat % 16 = 8 → off.toNat < 0x8000 →
        ∃ t, exec (.registerWrite h off 4 v) s = .next t ∧ t = { s with m := { s.m with pci := { s.m.pci with vecs := t.m.pci.vecs } } }
          ∧ (t.m.pci.vecs.getD (h.fn.val * 2048 + off.toNat / 16) .zero).data = v.setWidth 32
          ∧ ∀ k, k ≠ h.fn.val * 2048 + off.toNat / 16 → t.m.pci.vecs.get k = s.m.pci.vecs.get k)

/-- Register reads and writes of the host, and its accesses of the port's own structures. -/
def Obligations.RegisterAccessesOfTheHost : Prop :=
  RegisterReadReturnsTheRegister ∧ RegisterWriteWaitsForTheSluice ∧ ForeignRegisterWritesAreDropped ∧ PortStructuresAnswerTheHost

/-- The device address of a byte of a function's BAR2 aperture: its base, a multiple of 2 MiB, and the offset (R240, R242). -/
def apertureOf (m : Mod) (fn off : Nat) : Nat :=
  ((m.rd .MT_BAR2_BASE_HI fn).toNat % 65536) * 2 ^ 32 + (m.rd .MT_BAR2_BASE_LO fn).toNat / 2 ^ 21 * 2 ^ 21 + off

/-- A BAR2 write into the function's polder is staged for the sluice as the last of its writers, and no memory changes before it; one that leaves the objects, or meets a read-only
object or a sealed range, stages nothing and raises its flag (R45, R46, R240, R268, R433). -/
def Bar2WritesAreStaged : Prop :=
  ∀ (h : Port) (off : BitVec 36) (data : List Byte) (s : State), Reaches s h (.write2 h.fn off.toNat data) →
    let p := s.m.polderOf h.fn
    let x := apertureOf s.m h.fn off.toNat
    let n := data.length
    ∃ t, exec (.hostBar2Write h off data) s = .next t ∧ t.m.mem = s.m.mem ∧ t.m.rf.vals = s.m.rf.vals ∧ t.m.cq = s.m.cq ∧ t.m.tile = s.m.tile ∧ t.m.ue = s.m.ue ∧ t.m.io = s.m.io
      ∧ (s.m.mapped p x n = true → s.m.readonly p x n = false → (∀ y ∈ s.m.ue.seals, y.1 = p → meets y.2.1 y.2.2.1 x n = false) →
          t.m.stg = s.m.stg ++ [⟨2 ^ 80, none, none, .mem p (wcells x data)⟩])
      ∧ (s.m.mapped p x n = false → t.m.stg = s.m.stg ∧ t.m.rf.flags = s.m.rf.flags ++ [⟨.MT_BAR2_STATUS, p, Fld.mask .MT_BAR2_STATUS_UNMAPPED⟩])
      ∧ (s.m.mapped p x n = true → s.m.readonly p x n = true → t.m.stg = s.m.stg ∧ t.m.rf.flags = s.m.rf.flags ++ [⟨.MT_BAR2_STATUS, p, Fld.mask .MT_BAR2_STATUS_READONLY⟩])

/-- A BAR2 read returns the committed bytes of the function's polder, marked poisoned where a granule of theirs is, and Unsupported Request outside every object;
it changes no memory, and nothing staged becomes visible (R33, R236, R240). -/
def Bar2ReadsReturnCommittedBytes : Prop :=
  ∀ (h : Port) (off : BitVec 36) (len : Nat) (s : State), Reaches s h (.read2 h.fn off.toNat len) →
    let p := s.m.polderOf h.fn
    let x := apertureOf s.m h.fn off.toNat
    ∃ t, exec (.hostBar2Read h off len) s = .next t ∧ t.m.mem = s.m.mem ∧ t.m.stg = s.m.stg ∧ t.m.rf.vals = s.m.rf.vals ∧ t.m.cq = s.m.cq
      ∧ (s.m.mapped p x len = true → (∀ y ∈ s.m.ue.seals, y.1 = p → y.2.2.2.1 ≠ 0 → meets y.2.1 y.2.2.1 x len = false) →
          t.m.io.out = s.m.io.out ++ [.dataCompletion h.fn (s.m.getBs p x len) (s.m.poisoned p x len)])
      ∧ (s.m.mapped p x len = false → t.m.io.out = s.m.io.out ++ [.unsupported h.fn])

/-- Weir signals and BAR2 writes of the host are staged for the sluice, and BAR2 reads return committed bytes. -/
def Obligations.HostWritesAreStaged : Prop := WeirSignalStagesItsAmount ∧ Bar2WritesAreStaged ∧ Bar2ReadsReturnCommittedBytes

/-! ## Commands of queues and work of engines (02_frames_and_commit.md, 10_command_interface.md, 11_command_reference.md) -/

/-- The parts of the module that a command which runs in a frame leaves as they are until the frame's sluice: every register, memory, tile, descriptor, configuration slot,
link, key, power and reset state, and everything already sent outward. -/
def UntouchedBySending (m t : Mod) : Prop :=
  t.rf = m.rf ∧ t.mem = m.mem ∧ t.tile = m.tile ∧ t.td = m.td ∧ t.ct = m.ct ∧ t.zl = m.zl ∧ t.sec = m.sec ∧ t.pwr = m.pwr ∧ t.pci = m.pci ∧ t.ob = m.ob ∧ t.io.out = m.io.out
    ∧ t.fc.num = m.fc.num ∧ t.fc.log2 = m.fc.log2 ∧ t.fc.change = m.fc.change ∧ t.rel.resets = m.rel.resets ∧ t.rel.stopped = m.rel.stopped

/-- A state differs from another in its module alone. -/
def OnlyModule (s t : State) : Prop := t = { s with m := t.m }

/-- The rows that only a packet of a queue gives: the command, its opcode (R317, R330 to R343), the opcodes with which it takes its turn (allocations), and its plan. -/
def packetRow (fu : Fuses) : Instr → Option (CmdId × Nat × List Nat × (Mod → Ctx → List Word → Chk Plan))
  | .nop c => some (c, 0x0000, [], planNop)
  | .frameMark c => some (c, 0x0004, [], planFrameMark)
  | .collectOpen c => some (c, 0x1002, [0x1002], planCollectOpen)
  | .collectClose c => some (c, 0x1003, [], planCollectClose)
  | .histRead c => some (c, 0x3002, [], planHistRead)
  | .descCreate c => some (c, 0x4000, [0x4000], planDescCreate)
  | .descDestroy c => some (c, 0x4001, [], planDescDestroy)
  | .descRead c => some (c, 0x4002, [], planDescRead)
  | .objAlloc c => some (c, 0x4004, [0x4004, 0x4006], planObjAlloc)
  | .objRelease c => some (c, 0x4005, [], planObjRelease)
  | .hostIn c data bad => some (c, 0x4008, [], planHostIn data bad)
  | .hostOut c => some (c, 0x4009, [], planHostOut)
  | .groupInit c => some (c, 0x5001, [], planGroupInit)
  | .stepLoad c => some (c, 0x6000, [], planStepLoad)
  | .ckptDrain c => some (c, 0x6005, [], planCkptDrain)
  | .recordRead c => some (c, 0x6007, [], planRecordRead)
  | .seal c => some (c, 0x6008, [], planSeal fu)
  | .embStageBind c => some (c, 0x7002, [], planEmbStageBind)
  | .dbgRead c => some (c, 0xF000, [], planDbgRead)
  | .breakSet c => some (c, 0xF002, [], planBreakSet)
  | .breakResume c => some (c, 0xF003, [], planBreakResume)
  | .configure c => some (c, 0xF001, [], planTraceCtrl (9 * 65536 + c.q))
  | .start c => some (c, 0xF001, [], planTraceCtrl (9 * 65536 + c.q))
  | .stop c => some (c, 0xF001, [], planTraceCtrl (9 * 65536 + c.q))
  | .trigger c => some (c, 0xF001, [], planTraceCtrl (9 * 65536 + c.q))
  | _ => none

/-- A command is granted for the frame that runs, its packet has the opcode, and no earlier command of the named opcodes is still to act. -/
def Granted (m : Mod) (c : CmdId) (op : Nat) (ops : List Nat) (x : Cmd) : Prop :=
  m.inFrame = true ∧ m.cmd c = some x ∧ x.phase = .granted ∧ x.opcode = op ∧ ∀ y ∈ m.cq.cmds, y.phase = .granted → y.opcode ∈ ops → x.ord ≤ y.ord

/-- The row fits its packet: HOST_IN brings the bytes that its packet asks for, and names poisoned granules of its destination alone; a row of TRACE_CTRL is the operation that OP names,
and one that sends to the host finds the port up (R331, R395, R446). -/
def DataFits (m : Mod) (i : Instr) (x : Cmd) : Prop :=
  match i with
  | .hostIn _ data bad => data.length = pw x.params 16 ∧ ∀ k ∈ bad, k ≤ (pq x.params 8 + data.length - 1) / 32 - pq x.params 8 / 32
  | .hostOut _ | .ckptDrain _ => m.pci.up = true
  | .configure _ => pw x.params 0 / 2 ^ 24 % 8 = 0
  | .start _ => pw x.params 0 / 2 ^ 24 % 8 = 1
  | .stop _ => pw x.params 0 / 2 ^ 24 % 8 = 2
  | .trigger _ => pw x.params 0 / 2 ^ 24 % 8 = 3
  | _ => True

/-- A command that executes its plan for m frames from the frame that runs: its last frame, its outcome, and the effects still to be staged. -/
def ranFor (s : Mod) (x : Cmd) (p : Plan) (m : Nat) : Cmd :=
  { x with phase := .running, first := s.fc.num, fin := s.fc.num + (m - 1), status := p.status, detail := 0xFF, result := BitVec.ofNat 64 p.result, sr := p.sr,
           inexact := p.inexact, note := p.note, land := (p.staged (s.ctxOf x) s.fc.num m).filter fun e => decide (s.fc.num < e.1) }

/-- A command whose outcome is decided in this frame without its work. -/
def endedNow (s : Mod) (x : Cmd) (st d : Nat) : Cmd := { x with phase := .decided, status := st, detail := d, fin := s.fc.num }

/-- What the module holds after the command x became y: the other commands, the queues and everything of UntouchedBySending as before. -/
def OneCommandMoved (m t : Mod) (x y : Cmd) : Prop :=
  UntouchedBySending m t ∧ t.cq = { m.cq with cmds := m.cq.cmds.map fun z => if z.same x then y else z }

/-- A plan runs for at least the frames that its rate needs, and for no more than its bound beside them (R290, R331). -/
def RunsFor (p : Plan) (m : Nat) : Prop := 1 ≤ m ∧ p.least ≤ m ∧ (1 ≤ p.least → m ≤ max p.least p.bound)

/-- A granted command whose checks pass runs its plan from this frame on, for at least one frame and at most its bound: its effects of this frame are staged, those of later frames
wait in it, and no register and no memory changes before the sluice (R33, R45, R286, R290). One of a step that is no longer open completes with STEP_CLOSED (R292). -/
def Obligations.PacketCommandsRunTheirPlans : Prop :=
  ∀ (i : Instr) (c : CmdId) (op : Nat) (ops : List Nat) (plan : Mod → Ctx → List Word → Chk Plan) (s : State) (x : Cmd) (p : Plan),
    packetRow s.fuse i = some (c, op, ops, plan) → Granted s.m c op ops x → DataFits s.m i x → plan s.m (s.m.ctxOf x) x.params = .ok p →
    (s.m.closedTo x = false → ∃ t m, exec i s = .next t ∧ RunsFor p m ∧ OnlyModule s t ∧ OneCommandMoved s.m t.m x (ranFor s.m x p m)
      ∧ t.m.stg = s.m.stg ++ ((p.staged (s.m.ctxOf x) s.m.fc.num m).filter fun e => decide (e.1 ≤ s.m.fc.num)).map (·.2) ∧ t.m.wr = s.m.wr ∧ t.m.ue = s.m.ue)
    ∧ (s.m.closedTo x = true → ∃ t, exec i s = .next t ∧ OnlyModule s t ∧ OneCommandMoved s.m t.m x (endedNow s.m x 0x05 0xFF)
      ∧ t.m.stg = s.m.stg ∧ t.m.wr = s.m.wr ∧ t.m.ue = s.m.ue)

/-- A granted command one of whose checks fails completes in this frame with the check's status and detail, and does no work (R508). -/
def Obligations.FailedChecksEndTheCommandWithoutWork : Prop :=
  ∀ (i : Instr) (c : CmdId) (op : Nat) (ops : List Nat) (plan : Mod → Ctx → List Word → Chk Plan) (s : State) (x : Cmd) (st d : Nat),
    packetRow s.fuse i = some (c, op, ops, plan) → Granted s.m c op ops x → s.m.closedTo x = false → plan s.m (s.m.ctxOf x) x.params = .error (st, d) → st < 256 →
    ∃ t, exec i s = .next t ∧ OnlyModule s t ∧ OneCommandMoved s.m t.m x (endedNow s.m x st d) ∧ t.m.stg = s.m.stg ∧ t.m.wr = s.m.wr ∧ t.m.ue = s.m.ue

/-- The rows of work that a packet or a frame program gives: the work, its opcode, the opcodes with which a packet takes its turn, the test of its parameter block's own field that
tells the row from others of its opcode, its checks of the block, its plan, and the engine that runs it. -/
def workRow (m : Mod) : Instr → Option (Work × Nat × List Nat × (List Word → Bool) × (Mod → Nat → List Word → Chk Unit) × (Mod → Ctx → List Word → Chk Plan) × (List Word → Option Engine))
  | .fwdProduct w => some (w, 0x1000, [], fun _ => true, blkFwdProduct, planFwdProduct, fun ps => some (tsqOf (ctrlTile (pw ps 0xC0))))
  | .pcsLoad w => some (w, 0x1001, [], fun _ => true, blkPcsLoad, planPcsLoad, fun ps => some (tsqOf (ctrlTile (pw ps 0))))
  | .revProduct w => some (w, 0x2000, [], fun _ => true, blkRevProduct, planRevProduct, fun ps => some (tsqOf (ctrlTile (pw ps 0xC0))))
  | .lnFwd w => some (w, 0x2001, [], fun ps => pw ps 0xA0 / 2 ^ 20 % 16 == 1, blkRowOp, planRowOp, fun ps => some (tsqOf (ctrlTile (pw ps 0xA0))))
  | .lnBwd w => some (w, 0x2001, [], fun ps => pw ps 0xA0 / 2 ^ 20 % 16 == 2, blkRowOp, planRowOp, fun ps => some (tsqOf (ctrlTile (pw ps 0xA0))))
  | .rmsFwd w => some (w, 0x2001, [], fun ps => pw ps 0xA0 / 2 ^ 20 % 16 == 3, blkRowOp, planRowOp, fun ps => some (tsqOf (ctrlTile (pw ps 0xA0))))
  | .rmsBwd w => some (w, 0x2001, [], fun ps => pw ps 0xA0 / 2 ^ 20 % 16 == 4, blkRowOp, planRowOp, fun ps => some (tsqOf (ctrlTile (pw ps 0xA0))))
  | .smFwd w => some (w, 0x2001, [], fun ps => pw ps 0xA0 / 2 ^ 20 % 16 == 5, blkRowOp, planRowOp, fun ps => some (tsqOf (ctrlTile (pw ps 0xA0))))
  | .smBwd w => some (w, 0x2001, [], fun ps => pw ps 0xA0 / 2 ^ 20 % 16 == 6, blkRowOp, planRowOp, fun ps => some (tsqOf (ctrlTile (pw ps 0xA0))))
  | .expandW w => some (w, 0x2002, [], fun _ => true, blkExpandW, planExpandW, fun ps => some (tsqOf (ctrlTile (pw ps 0x40))))
  | .quantize w => some (w, 0x3000, [], fun _ => true, blkQuantize, planQuantize, fun ps => some (tsqOf (ctrlTile (pw ps 0x60))))
  | .amax w => some (w, 0x3001, [], fun _ => true, blkAmax, planAmax, fun ps => some (tsqOf (ctrlTile (pw ps 0x20))))
  | .copy w => some (w, 0x4003, [], fun ps => pw ps 0x60 / 2 ^ 25 % 8 == 0, blkTransform, planTransform, fun ps => some (ceOf (ctrlCe (pw ps 0x60))))
  | .transpose w => some (w, 0x4003, [], fun ps => pw ps 0x60 / 2 ^ 25 % 8 == 1, blkTransform, planTransform, fun ps => some (ceOf (ctrlCe (pw ps 0x60))))
  | .convert w => some (w, 0x4003, [], fun ps => pw ps 0x60 / 2 ^ 25 % 8 == 2, blkTransform, planTransform, fun ps => some (ceOf (ctrlCe (pw ps 0x60))))
  | .gather w => some (w, 0x4003, [], fun ps => pw ps 0x60 / 2 ^ 25 % 8 == 3, blkTransform, planTransform, fun ps => some (ceOf (ctrlCe (pw ps 0x60))))
  | .scatterWrite w => some (w, 0x4003, [], fun ps => pw ps 0x60 / 2 ^ 25 % 8 == 4, blkTransform, planTransform, fun ps => some (ceOf (ctrlCe (pw ps 0x60))))
  | .scatterAdd w => some (w, 0x4003, [], fun ps => pw ps 0x60 / 2 ^ 25 % 8 == 5, blkTransform, planTransform, fun ps => some (ceOf (ctrlCe (pw ps 0x60))))
  | .migrate w => some (w, 0x4006, [0x4004, 0x4006], fun _ => true, blkMigrate, planMigrate, fun _ => none)
  | .windowFill w => some (w, 0x4007, [], fun _ => true, blkWindowFill, planWindowFill, fun _ => none)
  | .embLookup w => some (w, 0x7000, [], fun _ => true, blkEmbLookup (m.workStep w), planEmbLookup, fun ps => some (ceOf (ctrlCe (pw ps 0x80))))
  | .embScatterAdd w => some (w, 0x7001, [], fun _ => true, blkEmbScatterAdd, planEmbScatterAdd, fun ps => some (ceOf (ctrlCe (pw ps 0x60))))
  | _ => none

/-- An engine is not the sequencer of a logical tile marked failed. -/
def EngineServes (m : Mod) (e : Option Engine) : Prop := ∀ d t, e = some (.tsq d t) → m.tileMarked (d.val * 48 + t.val) = false

/-- Engine work of a granted packet whose checks pass runs its plan as PacketCommandsRunTheirPlans says; one of whose checks fails completes with its status; on the sequencer of a tile marked failed it completes with
TILE_FAULT and does no work (R286, R290, R392). -/
def EnginesRunThePacketsWork : Prop :=
  ∀ (i : Instr) (c : CmdId) (op : Nat) (ops : List Nat) (mine : List Word → Bool) (blk : Mod → Nat → List Word → Chk Unit) (plan : Mod → Ctx → List Word → Chk Plan)
    (eng : List Word → Option Engine) (s : State) (x : Cmd),
    workRow s.m i = some (.packet c, op, ops, mine, blk, plan, eng) → Granted s.m c op ops x → mine x.params = true →
    (∀ p, EngineServes s.m (eng x.params) → plan s.m (s.m.ctxOf x) x.params = .ok p → s.m.closedTo x = false →
      ∃ t m, exec i s = .next t ∧ RunsFor p m ∧ OnlyModule s t ∧ OneCommandMoved s.m t.m x (ranFor s.m x p m)
        ∧ t.m.stg = s.m.stg ++ ((p.staged (s.m.ctxOf x) s.m.fc.num m).filter fun e => decide (e.1 ≤ s.m.fc.num)).map (·.2) ∧ t.m.wr = s.m.wr ∧ t.m.ue = s.m.ue)
    ∧ (∀ st d, EngineServes s.m (eng x.params) → plan s.m (s.m.ctxOf x) x.params = .error (st, d) → st < 256 → s.m.closedTo x = false →
      ∃ t, exec i s = .next t ∧ OnlyModule s t ∧ OneCommandMoved s.m t.m x (endedNow s.m x st d) ∧ t.m.stg = s.m.stg ∧ t.m.wr = s.m.wr ∧ t.m.ue = s.m.ue)
    ∧ (∀ d t', eng x.params = some (.tsq d t') → s.m.tileMarked (d.val * 48 + t'.val) = true →
      ∃ t, exec i s = .next t ∧ OnlyModule s t ∧ OneCommandMoved s.m t.m x (endedNow s.m x 0xF9 0xFF) ∧ t.m.stg = s.m.stg ∧ t.m.wr = s.m.wr ∧ t.m.ue = s.m.ue)

/-- A frame program may issue work now: a frame runs that is one of its own, and no breakpoint has halted its cores (R294, R448). -/
def Issues (m : Mod) (r : Runner) (q : Prog) : Prop :=
  m.inFrame = true ∧ m.prog r = some q ∧ q.first ≤ m.fc.num ∧ m.fc.num < q.first + q.frames + q.halted ∧ m.halted q = false

/-- The command of a RUN_PROGRAM is told of work of its program: it executes at least until the work's last frame, and its reply shows the work's notes (R290, R295, R296). No other command
changes, and none where a step runs the program. -/
def ToldOfWork (m t : Mod) (r : Runner) (last : Nat) (p : Plan) : Prop :=
  match r with
  | .step _ _ => t.cq = m.cq
  | .cmd i => (m.cmd i = none → t.cq = m.cq) ∧ ∀ x, m.cmd i = some x → t.cq = { m.cq with cmds := m.cq.cmds.map fun z => if z.same x then
      { x with fin := max x.fin last, sr := x.sr || p.sr, inexact := x.inexact || p.inexact } else z }

/-- Engine work that a running frame program gives, on a die of the program and with its block's checks passed, runs its plan: its effects of this frame are staged, those of
later frames wait with the program; no register and no memory changes before the sluice, and the command that runs the program is told of it (R290, R294, R320). A check that fails
stops the engine: its frame-done flag stays clear, and nothing is staged but the count of a refusal by the dike (R418). -/
def EnginesRunTheProgramsWork : Prop :=
  ∀ (i : Instr) (r : Runner) (ps : List Word) (op : Nat) (ops : List Nat) (mine : List Word → Bool) (blk : Mod → Nat → List Word → Chk Unit)
    (plan : Mod → Ctx → List Word → Chk Plan) (eng : List Word → Option Engine) (s : State) (q : Prog),
    workRow s.m i = some (.program r ps, op, ops, mine, blk, plan, eng) → Issues s.m r q → mine ps = true → EngineServes s.m (eng ps) →
    (∀ p, (∀ e d, eng ps = some e → Engine.die? e = some d → d ∈ q.dies) → blk s.m q.pol ps = .ok () → plan s.m (s.m.progCtx q) ps = .ok p →
      ∃ t m, exec i s = .next t ∧ RunsFor p m ∧ OnlyModule s t ∧ UntouchedBySending s.m t.m ∧ t.m.wr = s.m.wr ∧ t.m.fc = s.m.fc ∧ ToldOfWork s.m t.m r (s.m.fc.num + (m - 1)) p
        ∧ t.m.stg = s.m.stg ++ ((p.staged (s.m.progCtx q) s.m.fc.num m).filter fun e => decide (e.1 ≤ s.m.fc.num)).map (·.2)
        ∧ t.m.ue = { s.m.ue with running := t.m.ue.running } ∧ ∃ q', t.m.prog r = some q' ∧ q' = { q with used := q'.used, jobs := q'.jobs, land := q'.land }
        ∧ q'.land = q.land ++ ((p.staged (s.m.progCtx q) s.m.fc.num m).filter fun e => decide (s.m.fc.num < e.1)) ∧ q'.jobs = q.jobs ++ [⟨op, ps, p.note, s.m.fc.num, s.m.fc.num + (m - 1)⟩]
        ∧ ∀ e, eng ps = some e → e ∈ q'.used)
    ∧ (∀ e st d, eng ps = some e → (blk s.m q.pol ps = .error (st, d) ∨ (blk s.m q.pol ps = .ok () ∧ plan s.m (s.m.progCtx q) ps = .error (st, d))) →
      ∃ t, exec i s = .next t ∧ OnlyModule s t ∧ UntouchedBySending s.m t.m ∧ t.m.cq = s.m.cq ∧ t.m.ue.later = s.m.ue.later
        ∧ t.m.stg = (if st = 0x50 then refusal s.m q.pol else s.m).stg ∧ t.m.fc.stuck = s.m.fc.stuck ++ [e])

/-- Engines run the work that packets and frame programs give, or say why not. -/
def Obligations.EnginesRunTheirWork : Prop := EnginesRunThePacketsWork ∧ EnginesRunTheProgramsWork

/-! ## Commands with an effect of their own (02, 09, 10, 11 and 13) -/

/-- NOP does no work: it completes in the frame in which it executes, with OK, and stages nothing (R279, R318). -/
def NopCompletesInItsFrame : Prop :=
  ∀ (c : CmdId) (s : State) (x : Cmd), Granted s.m c 0x0000 [] x → s.m.closedTo x = false →
    ∃ t y, exec (.nop c) s = .next t ∧ OnlyModule s t ∧ OneCommandMoved s.m t.m x y ∧ t.m.stg = s.m.stg ∧ t.m.wr = s.m.wr ∧ t.m.ue = s.m.ue
      ∧ y = { x with phase := .running, first := s.m.fc.num, fin := s.m.fc.num, status := 0x00, detail := 0xFF, result := 0, sr := false, inexact := false, note := 0, land := [] }

/-- FRAME_MARK completes in its frame e and returns e; DELAY executes in the frames e to e + N - 1, with N = 0 ending in OK_EMPTY at e (R318). -/
def FrameMarkAndDelayCountFrames : Prop :=
  ∀ (c : CmdId) (s : State) (x : Cmd), s.m.closedTo x = false →
    (Granted s.m c 0x0004 [] x → ∃ t y, exec (.frameMark c) s = .next t ∧ OnlyModule s t ∧ OneCommandMoved s.m t.m x y ∧ t.m.stg = s.m.stg ∧ t.m.wr = s.m.wr
      ∧ y = { x with phase := .running, first := s.m.fc.num, fin := s.m.fc.num, status := 0x00, detail := 0xFF, result := BitVec.ofNat 64 s.m.fc.num,
                     sr := false, inexact := false, note := 0, land := [] })
    ∧ (Granted s.m c 0x0001 [] x → ∃ t y, exec (.delay c) s = .next t ∧ OnlyModule s t ∧ OneCommandMoved s.m t.m x y ∧ t.m.stg = s.m.stg ∧ t.m.wr = s.m.wr
      ∧ let n := pw x.params 0 % 65536
        y = { x with phase := .running, first := s.m.fc.num, fin := s.m.fc.num + (n - 1), status := if n = 0 then 0x01 else 0x00, detail := 0xFF, result := 0,
                     sr := false, inexact := false, note := 0, land := [] })

/-- The signal that a word of a SIGNAL list names: WEIR in bits 29 to 16, ADD in bits 15 to 0 (R318). -/
def signalOf (w : Word) (seq : Nat) (eng : Option Engine) (src : Nat) : Sig :=
  { weir := w.toNat / 65536 % 16384, add := w.toNat % 65536, seq := seq, eng := eng, src := src }

/-- SIGNAL stages its list, word for word: a packet's with its command, to be applied with the header's signals when it completes in this frame; a frame program's for the sluice of
this frame, in its first frame sequencer's name. A word of a weir of another polder stops that sequencer, and is counted. WEIR_CLEAR stages the clear of every weir that it lists (R55, R58, R318). -/
def Obligations.SignalAndWeirClearStageTheirLists : Prop :=
  (∀ (c : CmdId) (s : State) (x : Cmd), Granted s.m c 0x0002 [] x → s.m.closedTo x = false →
    ∃ t y, exec (.signal (.packet c)) s = .next t ∧ OnlyModule s t ∧ OneCommandMoved s.m t.m x y ∧ t.m.stg = s.m.stg ∧ t.m.wr = s.m.wr ∧ y.sigs = x.params.map (signalOf · x.seq none x.src)
      ∧ y.phase = .running ∧ y.fin = s.m.fc.num ∧ y.status = 0x00)
  ∧ (∀ (r : Runner) (ps : List Word) (s : State) (q : Prog), Issues s.m r q →
    (blkSignal s.m q.pol ps = .ok () → ∃ t, exec (.signal (.program r ps)) s = .next t ∧ OnlyModule s t ∧ UntouchedBySending s.m t.m ∧ t.m.cq = s.m.cq ∧ t.m.stg = s.m.stg
      ∧ t.m.wr = { s.m.wr with sigs := s.m.wr.sigs ++ ps.map (signalOf · 0 q.fsq (q.dies.headD 0 * 2 ^ 22 + 65536)) })
    ∧ (∀ st d, blkSignal s.m q.pol ps = .error (st, d) → ∃ t, exec (.signal (.program r ps)) s = .next t ∧ OnlyModule s t ∧ UntouchedBySending s.m t.m ∧ t.m.wr = s.m.wr ∧ t.m.cq = s.m.cq
      ∧ t.m.stg = (if st = 0x50 then refusal s.m q.pol else s.m).stg
      ∧ t.m.fc.stuck = s.m.fc.stuck ++ q.fsq.toList))
  ∧ (∀ (c : CmdId) (s : State) (x : Cmd), Granted s.m c 0x0003 [] x → s.m.closedTo x = false →
    ∃ t y, exec (.weirClear c) s = .next t ∧ OnlyModule s t ∧ OneCommandMoved s.m t.m x y ∧ t.m.stg = s.m.stg ∧ y.phase = .running ∧ y.fin = s.m.fc.num ∧ y.status = 0x00
      ∧ t.m.wr = { s.m.wr with clears := s.m.wr.clears ++ x.params.map fun w => w.toNat % 16384 })

/-- RUN_PROGRAM whose handles are live and whose header, as it was read behind its packet, names the active frame length starts its frame program on the dies of the header, from this frame on for the header's FRAMES; the
command executes as long. A handle that is not live, or another frame length, ends it with its status and starts nothing (R40, R198, R320). -/
def RunProgramStartsTheProgram : Prop :=
  ∀ (c : CmdId) (s : State) (x : Cmd), Granted s.m c 0x0005 [] x → s.m.closedTo x = false →
    let h (k : Nat) := x.header.getD k 0
    (chkRunProgram s.m (s.m.ctxOf x) x.params x.header = .ok () → ∃ t y q, exec (.runProgram c) s = .next t ∧ OnlyModule s t ∧ OneCommandMoved s.m t.m x y
      ∧ t.m.stg = s.m.stg ∧ t.m.wr = s.m.wr ∧ y.phase = .running ∧ y.first = s.m.fc.num ∧ y.fin = s.m.fc.num + (h 0 % 65536 - 1) ∧ y.status = 0x00
      ∧ t.m.ue = { s.m.ue with running := s.m.ue.running ++ [q] }
      ∧ q.runner = .cmd c ∧ q.pol = x.pol ∧ q.first = s.m.fc.num ∧ q.frames = h 0 % 65536 ∧ q.step = (h 1).testBit 4 ∧ (∀ d, d ∈ q.dies ↔ d < 4 ∧ (h 1).testBit d = true)
      ∧ q.code = h 4 + 2 ^ 32 * (h 5 % 65536) ∧ q.halted = 0 ∧ q.handles = some (s.m.latch x.pol x.params (h 7 % 65536)))
    ∧ (∀ st d, chkRunProgram s.m (s.m.ctxOf x) x.params x.header = .error (st, d) → ∃ t, exec (.runProgram c) s = .next t ∧ OnlyModule s t
      ∧ OneCommandMoved s.m t.m x (endedNow s.m x st d) ∧ t.m.ue = s.m.ue ∧ t.m.stg = s.m.stg)

/-- SLOT_CLEAR of a usable slot that no open step holds, and whose arrays may be written, clears the slot's narrowing state at its last frame, GS_BASE.BASE kept, and its OFS and flag arrays
at 262,144 blocks a frame: it executes for as many frames as that takes. A slot that is not usable, or that an open step has declared, ends it with SLOT_INVALID or CONFIG_CONFLICT (R162, R328). -/
def SlotClearTakesItsFrames : Prop :=
  ∀ (c : CmdId) (s : State) (x : Cmd), Granted s.m c 0x3003 [] x → s.m.closedTo x = false →
    let n := pw x.params 0
    let k := max 1 (ceilDiv (s.m.fld .GS_BLOCKS_BLOCKS n) 262144)
    (∀ p, planSlotClear s.m (s.m.ctxOf x) x.params = .ok p → s.m.slotUsable x.pol n = true ∧ s.m.slotHeld x.pol n = false ∧ ∃ t y, exec (.slotClear c) s = .next t ∧ OnlyModule s t ∧ OneCommandMoved s.m t.m x y
      ∧ y.phase = .running ∧ y.first = s.m.fc.num ∧ y.fin = s.m.fc.num + (k - 1) ∧ y.status = 0x00
      ∧ ∃ e : Nat × Staged, (e ∈ y.land ∨ (k = 1 ∧ e.2 ∈ t.m.stg)) ∧ e.1 = s.m.fc.num + (k - 1) ∧ e.2.eff = .regBits .GS_BASE n 0xFFFF0000#32 0)
    ∧ (s.m.slotUsable x.pol n = false → ∃ t, exec (.slotClear c) s = .next t ∧ OneCommandMoved s.m t.m x (endedNow s.m x 0x30 16) ∧ t.m.stg = s.m.stg)
    ∧ (s.m.slotUsable x.pol n = true → s.m.slotHeld x.pol n = true → ∃ t, exec (.slotClear c) s = .next t ∧ OneCommandMoved s.m t.m x (endedNow s.m x 0x22 16) ∧ t.m.stg = s.m.stg)

/-- NOP, FRAME_MARK, DELAY, RUN_PROGRAM and SLOT_CLEAR. -/
def Obligations.PlainCommandsRun : Prop := NopCompletesInItsFrame ∧ FrameMarkAndDelayCountFrames ∧ RunProgramStartsTheProgram ∧ SlotClearTakesItsFrames

/-- A command that waits for its end: it runs from this frame on with nothing decided, and with these waits of its own. -/
def waitingFor (s : Mod) (x : Cmd) (ws : List WaitOn) : Cmd :=
  { x with phase := .running, first := s.fc.num, fin := 2 ^ 80, status := 0x00, detail := 0xFF, waits := ws }

/-- The loop that LOOP_START's parameters describe, before its first step (R337). -/
def newLoop (x : Cmd) : Loop :=
  { q := x.qn, seq := x.seq, weir0 := pw x.params 0, nweirs := pw x.params 4, steps := pw x.params 8, doneWeir := pw x.params 12, batch0 := pq x.params 16,
    started := 0, committed := 0, released := false, stop := [] }

/-- A loop that a LOOP_STOP has asked to end. -/
def stoppedBy (l : Loop) (x : Cmd) : Loop := { l with stop := l.stop ++ [(x.qn, x.seq)] }

/-- The rows of the step loop act on a loaded step program: STEP_RUN waits on its batch weir; LOOP_START makes the polder's loop, at its first weir with nothing started or committed,
and both answer at their end alone; without a loaded step program either ends with PARAM_INVALID and starts nothing. REPLAY_DIAG whose checks pass waits for its step, and one
whose checks fail ends with their status (R337, R338). -/
def StepLoopCommandsBegin : Prop :=
  ∀ (c : CmdId) (s : State) (x : Cmd), s.m.closedTo x = false →
    (Granted s.m c 0x6001 [] x → s.m.ue.progs.get x.pol ≠ none → ∃ t, exec (.stepRun c) s = .next t ∧ OnlyModule s t
      ∧ OneCommandMoved s.m t.m x (waitingFor s.m x [⟨pw x.params 0, 0⟩]) ∧ t.m.ue = s.m.ue ∧ t.m.stg = s.m.stg ∧ t.m.wr = s.m.wr)
    ∧ (Granted s.m c 0x6002 [] x → s.m.ue.progs.get x.pol ≠ none → ∃ t, exec (.loopStart c) s = .next t ∧ OnlyModule s t
      ∧ OneCommandMoved s.m t.m x (waitingFor s.m x []) ∧ t.m.stg = s.m.stg ∧ t.m.wr = s.m.wr
      ∧ t.m.ue = { s.m.ue with loops := s.m.ue.loops.set x.pol (newLoop x) })
    ∧ (∀ i op, (i, op) ∈ [(Instr.stepRun c, 0x6001), (.loopStart c, 0x6002)] → Granted s.m c op [] x → s.m.ue.progs.get x.pol = none →
      ∃ t, exec i s = .next t ∧ OnlyModule s t ∧ OneCommandMoved s.m t.m x (endedNow s.m x 0x04 0xFF) ∧ t.m.ue = s.m.ue ∧ t.m.stg = s.m.stg ∧ t.m.wr = s.m.wr)
    ∧ (Granted s.m c 0x6006 [] x →
      (chkReplayDiag s.m x.pol x.params = .ok () → ∃ t, exec (.replayDiag c) s = .next t ∧ OnlyModule s t ∧ OneCommandMoved s.m t.m x (waitingFor s.m x []) ∧ t.m.ue = s.m.ue
        ∧ t.m.stg = s.m.stg ∧ t.m.wr = s.m.wr)
      ∧ ∀ st d, chkReplayDiag s.m x.pol x.params = .error (st, d) → st < 256 → ∃ t, exec (.replayDiag c) s = .next t ∧ OnlyModule s t ∧ OneCommandMoved s.m t.m x (endedNow s.m x st d)
        ∧ t.m.ue = s.m.ue ∧ t.m.stg = s.m.stg ∧ t.m.wr = s.m.wr)

/-- LOOP_STOP without a loop completes with OK_EMPTY. A loop with a step open, or whose batch weir has released, goes on and remembers the command; one that waits on its weir ends at
this sluice, where no command of it has its outcome yet: the polder has no loop any more, LOOP_START's command completes with OK and the number of steps committed, and every LOOP_STOP that waited completes with OK (R337). -/
def LoopStopEndsTheLoop : Prop :=
  ∀ (c : CmdId) (s : State) (x : Cmd), Granted s.m c 0x6003 [] x → s.m.closedTo x = false →
    (s.m.ue.loops.get x.pol = none → ∃ t y, exec (.loopStop c) s = .next t ∧ OnlyModule s t ∧ OneCommandMoved s.m t.m x y ∧ t.m.ue = s.m.ue ∧ t.m.stg = s.m.stg
      ∧ y.phase = .running ∧ y.fin = s.m.fc.num ∧ y.status = 0x01)
    ∧ ∀ l, s.m.ue.loops.get x.pol = some l →
      ((s.m.ue.steps.get x.pol ≠ none ∨ l.released = true) → ∃ t, exec (.loopStop c) s = .next t ∧ OnlyModule s t ∧ OneCommandMoved s.m t.m x (waitingFor s.m x [])
        ∧ t.m.ue = { s.m.ue with loops := s.m.ue.loops.set x.pol (stoppedBy l x) } ∧ t.m.stg = s.m.stg ∧ t.m.wr = s.m.wr)
      ∧ (s.m.ue.steps.get x.pol = none → l.released = false → (∀ y ∈ s.m.cq.cmds, y.mgmt = false → (y.qn, y.seq) ∈ (l.q, l.seq) :: l.stop → y.phase ≠ .decided) → ∃ t, exec (.loopStop c) s = .next t ∧ OnlyModule s t ∧ UntouchedBySending s.m t.m
        ∧ t.m.ue.loops.get x.pol = none ∧ t.m.ue = { s.m.ue with loops := t.m.ue.loops } ∧ t.m.stg = s.m.stg ∧ t.m.wr = s.m.wr
        ∧ (∀ y ∈ t.m.cq.cmds, y.mgmt = false → (y.qn, y.seq) ∈ (l.q, l.seq) :: (l.stop ++ [(x.qn, x.seq)]) →
            y.phase = .decided ∧ y.fin = s.m.fc.num ∧ y.status = 0x00)
        ∧ ∀ y ∈ t.m.cq.cmds, y.mgmt = false → y.qn = l.q → y.seq = l.seq → (l.q, l.seq) ∉ l.stop ++ [(x.qn, x.seq)] → y.result = BitVec.ofNat 64 l.committed)

/-- STEP_RUN, LOOP_START, REPLAY_DIAG and LOOP_STOP. -/
def Obligations.StepLoopsBeginAndEnd : Prop := StepLoopCommandsBegin ∧ LoopStopEndsTheLoop

/-- CKPT_TAKE whose object and ranges pass its checks waits, from this frame on, for the sluice at which its checkpoint is taken; one whose object does not serve ends with OBJECT_INVALID,
one that names a range outside every object with ADDR_UNMAPPED, and takes nothing (R338). -/
def Obligations.CkptTakeWaitsForItsSluice : Prop :=
  ∀ (c : CmdId) (s : State) (x : Cmd), Granted s.m c 0x6004 [] x → s.m.closedTo x = false →
    let rs := takeRanges x.params
    let ok := s.m.ckptObjOk x.pol (pw x.params 0) (rs.map (·.2)).sum
    (ok = true → (∀ r ∈ rs, s.m.mapped x.pol r.1 r.2 = true) → ∃ t, exec (.ckptTake c) s = .next t ∧ OnlyModule s t ∧ t.m.stg = s.m.stg ∧ t.m.wr = s.m.wr
      ∧ OneCommandMoved s.m t.m x (waitingFor s.m x x.waits) ∧ t.m.ue = { s.m.ue with takes := s.m.ue.takes ++ [(x.qn, x.seq)] })
    ∧ (ok = true → (∃ r ∈ rs, s.m.mapped x.pol r.1 r.2 = false) → ∃ t, exec (.ckptTake c) s = .next t ∧ OnlyModule s t ∧ OneCommandMoved s.m t.m x (endedNow s.m x 0x16 18) ∧ t.m.ue = s.m.ue ∧ t.m.stg = s.m.stg)
    ∧ (ok = false → ∃ t, exec (.ckptTake c) s = .next t ∧ OnlyModule s t ∧ OneCommandMoved s.m t.m x (endedNow s.m x 0x56 16) ∧ t.m.ue = s.m.ue ∧ t.m.stg = s.m.stg)

/-- REDUCE whose checks pass, with fewer than 256 buckets of its polder in flight, opens the bucket that its header declares and closes it at sluice e, due DUE sluices later: the bucket is in flight
as the command's own, and the command waits for its end. One whose checks fail ends with their status and declares nothing (R249, R333). -/
def ReduceDeclaresAndClosesItsBucket : Prop :=
  ∀ (c : CmdId) (s : State) (x : Cmd), Granted s.m c 0x5000 [] x → s.m.closedTo x = false →
    (chkReduce s.m x.pol x.params = .ok () → s.m.inFlight x.pol < 256 → ∃ t b, exec (.reduce c) s = .next t ∧ OnlyModule s t
      ∧ t.m.cq = { s.m.cq with cmds := s.m.cq.cmds.map fun z => if z.same x then waitingFor s.m x x.waits else z } ∧ t.m.rf = s.m.rf ∧ t.m.wr = s.m.wr
      ∧ t.m.bkts x.pol = s.m.bkts x.pol ++ [b] ∧ b.addr = pq x.params 0 ∧ b.num = s.m.getN x.pol (pq x.params 0) 4 % 4096 ∧ b.due = s.m.fc.num + pw x.params 8
      ∧ b.owner = some (x.qn, x.seq) ∧ b.state = 2 ∧ b.closed = some s.m.fc.num ∧ s.m.fc.num < b.s1at ∧ b.failed = false ∧ b.final = false)
    ∧ ∀ st d, chkReduce s.m x.pol x.params = .error (st, d) → st < 256 → ∃ t, exec (.reduce c) s = .next t ∧ OnlyModule s t ∧ OneCommandMoved s.m t.m x (endedNow s.m x st d)
        ∧ t.m.ue = s.m.ue ∧ t.m.stg = s.m.stg

/-- IMPORT whose checks pass, with bytes to import and none of its header poisoned, runs at 16 bytes an array cycle: in the last frame of that rate it completes, its key's slot is in use until then, and every
chunk is checked in its own frame, in order. One whose slot holds no key, or whose header does not fit, ends with its status, and the import's failure is staged for
SP_IMPORT_STATUS alone; of its destination it writes nothing (R429, R430, R434). -/
def ImportRunsAtItsRateOrEnds : Prop :=
  ∀ (c : CmdId) (s : State) (x : Cmd), Granted s.m c 0x400A [] x → s.m.closedTo x = false →
    let n := pw x.params 16
    let m := n / (16 * s.m.budget) + 1
    (chkImport s.m (s.m.ctxOf x) x.params = .ok () → 0 < n → s.m.poisoned x.pol (pq x.params 0) 64 = false → ∃ t y, exec (.import c) s = .next t ∧ OnlyModule s t
      ∧ t.m.cq = { s.m.cq with cmds := s.m.cq.cmds.map fun z => if z.same x then y else z } ∧ y.phase = .running ∧ y.first = s.m.fc.num ∧ y.fin = s.m.fc.num + (m - 1) ∧ y.status = 0x00
      ∧ t.m.sec = { s.m.sec with imports := s.m.sec.imports ++ [(x.qn, x.seq, x.pol, pw x.params 20, 0)] } ∧ t.m.mem = s.m.mem ∧ t.m.rf = s.m.rf
      ∧ ((∀ e ∈ y.land, s.m.fc.num < e.1 ∧ e.1 ≤ y.fin) ∧
        (t.m.stg.drop s.m.stg.length ++ y.land.map (·.2)).map (·.eff) = (List.range ((n + 65535) / 65536)).map fun i => .importChunk x.pol x.qn x.seq i))
    ∧ ∀ r st d, chkImport s.m (s.m.ctxOf x) x.params = .error (r, st, d) → st < 256 → ∃ t, exec (.import c) s = .next t ∧ OnlyModule s t ∧ OneCommandMoved s.m t.m x (endedNow s.m x st d)
        ∧ t.m.stg = s.m.stg ++ (match r with | some k => [⟨rankImport, none, none, .importFail x.pol k (pw x.params 20) 0⟩] | none => [])

/-- The flush of a region in FLUSHING happens once in a frame: it is staged under the tile's rank for the sluice, in the tile sequencer's name, as bytes of the tile's SRAM from DEST on and the region's return to IDLE;
memory, registers and commands stay as they are until then (R46, R148). -/
def RegionFlushIsStagedOnce : Prop :=
  ∀ (d : Fin 4) (k : Fin 48) (rgn : Fin 16) (s : State), let tile := d.val * 48 + k.val
    s.m.fld .ACB_RGN_CTRL_STATE (tile * 16 + rgn.val) = 2 → (∀ e ∈ s.m.stg, e.eff ≠ .acbDone tile rgn.val) →
    ∃ t cells new, exec (.regionFlush d k rgn) s = .next t ∧ OnlyModule s t ∧ UntouchedBySending s.m t.m ∧ t.m.cq = s.m.cq ∧ t.m.wr = s.m.wr ∧ t.m.ue = s.m.ue
      ∧ t.m.stg = s.m.stg ++ new ∧ (new.map (·.eff)).take 2 = [.sram tile cells, .acbDone tile rgn.val]
      ∧ (∀ w ∈ cells, s.m.fld .ACB_RGN_DEST_DEST (tile * 16 + rgn.val) ≤ w.addr) ∧ (∀ e ∈ new, e.rank = tile ∧ e.eng = some (tsqOf tile) ∧ e.step = none)
      ∧ exec (.regionFlush d k rgn) t = .refused .notEnabled

/-- IMPORT and REGION_FLUSH. -/
def Obligations.ImportsAndFlushesRun : Prop := ImportRunsAtItsRateOrEnds ∧ RegionFlushIsStagedOnce

/-- A row that names an event of the sluice that is being taken leaves a module m, as its event makes it; from m the sluice goes on to the next event that is due, or to its end, which is
`m.resume` (log entry 5). A breakpoint on a weir that released at this sluice halts its cores from the next frame on, once; on a PC, in a frame in which a core that it names runs, from that frame on. Where
the condition meets a step's work alone and the scope is the core, nothing halts and MISSED counts it, up to 65,535 (R447, R448, R450). -/
def Obligations.BreakpointsHaltOrCountTheirMiss : Prop :=
  ∀ (p : Fin 4) (id : Fin 8) (s : State) (b : Brk), let k := p.val * 8 + id.val
    s.m.ob.brks.get k = some b → s.m.brkReady p id = true →
    let f := s.m.fc.num
    ∃ m : Mod, exec (.breakpointHit p id) s = .next { s with m := m.resume } ∧ m.cq = s.m.cq ∧ m.ue = s.m.ue ∧ m.wr = s.m.wr ∧ m.ob.brks = s.m.ob.brks ∧ m.fc = s.m.fc
      ∧ m.ob.hits = (if b.weir then s.m.ob.hits ++ [k] else s.m.ob.hits)
      ∧ (s.m.brkStep p b f = false → ∃ h, m.ob.halted = s.m.ob.halted ++ [h] ∧ h.key = k ∧ h.brk = b ∧ h.at_ = (if b.weir then f + 1 else f))
      ∧ (s.m.brkStep p b f = true → b.polder = false → m.ob.halted = s.m.ob.halted
          ∧ m.fld .OB_BRK_STATUS_MISSED p = min 65535 (s.m.fld .OB_BRK_STATUS_MISSED p + 1))

/-! ## The management queues (10_command_interface.md R304 to R306, 11_command_reference.md R342) -/

/-- The rows of management packets: the function, the packet's index, its opcode, and for SELFTEST its operation (R342, R408). -/
def mgmtRow : Instr → Option (Fin 8 × Fin 16 × Nat × Option Nat)
  | .abort f k => some (f, k, 0xE000, none)
  | .resetDomain f k => some (f, k, 0xE001, none)
  | .quotaSet f k => some (f, k, 0xE002, none)
  | .queueAssign f k => some (f, k, 0xE003, none)
  | .powerCap f k => some (f, k, 0xE004, none)
  | .telemetry f k => some (f, k, 0xE005, none)
  | .offline f k _ => some (f, k, 0xE006, some 0)
  | .spares f k _ => some (f, k, 0xE006, some 1)
  | .restart f k => some (f, k, 0xE006, some 2)
  | .polderSet f k => some (f, k, 0xE007, none)
  | .confSet f k => some (f, k, 0xE008, none)
  | _ => none

/-- The packet of a management row stands in its function's queue, is of the row's opcode, and may execute now (R305, R306). -/
def MayExecute (m : Mod) (i : Instr) (x : Cmd) : Prop :=
  ∃ f k op o, mgmtRow i = some (f, k, op, o) ∧ m.mgmtCmd f k = some x ∧ x.opcode = op ∧ m.mgmtOpen x = true

/-- A SELFTEST packet asks for the row's operation. -/
def AsksFor (i : Instr) (x : Cmd) : Prop := ∀ f k op v, mgmtRow i = some (f, k, op, some v) → pw x.params 0 % 8 = v

/-- A management packet that is decided in the controller's frame. -/
def mgmtEnded (m : Mod) (x : Cmd) (st d r : Nat) : Cmd :=
  { x with phase := .decided, status := st, detail := d, result := BitVec.ofNat 64 r, fin := m.mgmtNow, waits := [], first := if st = 0 then m.mgmtNow else 0 }

/-- The commands of a module with one of them changed. -/
def cmdsWith (m : Mod) (x y : Cmd) : Cqs := { m.cq with cmds := m.cq.cmds.map fun z => if z.same x then y else z }

/-- A management packet one of whose checks fails completes with the check's status and detail, and does nothing else (R305, R508). -/
def ManagementPacketsFailTheirChecksWithoutEffect : Prop :=
  ∀ (i : Instr) (s : State) (x : Cmd) (st d : Nat), MayExecute s.m i x → s.m.mgmtChk x = .error (st, d) →
    exec i s = .next { s with m := { s.m with cq := cmdsWith s.m x (mgmtEnded s.m x st d 0) } }

/-- A management packet whose checks pass acts: ABORT and QUEUE_ASSIGN, which act at the sluice, are decided alone; RESET_DOMAIN asks for its reset, which begins at the sluice, and runs until the release;
QUOTA_SET stages the polder's quotas; POWER_CAP asks for the cap, within 1,200 W and 3,200 W, 0 for none; TELEMETRY returns the sensor; POLDER_SET writes SP_LAYOUT.PENDING; CONF_SET
asks for the polder's mode (R219, R342, R383, R416, R420, R461, R467). -/
def ManagementPacketsAct : Prop :=
  ∀ (i : Instr) (s : State) (x : Cmd), MayExecute s.m i x → s.m.mgmtChk x = .ok () →
    let done := cmdsWith s.m x (mgmtEnded s.m x 0x00 0xFF 0)
    let a := pw x.params 0
    match i with
    | .abort _ _ | .queueAssign _ _ => exec i s = .next { s with m := { s.m with cq := done } }
    | .resetDomain _ _ =>
      let y := { x with phase := .running, first := s.m.mgmtNow, fin := 2 ^ 80 }
      exec i s = .next { s with m := { s.m with cq := cmdsWith s.m x y, rel := { s.m.rel with asked := s.m.rel.asked ++ [⟨a, pw x.params 4, 0, 0, [(x.qn, x.seq)]⟩] } } }
    | .quotaSet _ _ => exec i s = .next { s with m := { s.m with
        cq := done, stg := s.m.stg ++ [⟨0, none, none, .reg .MT_QUOTA_HBM a (BitVec.ofNat 32 (pw x.params 4))⟩, ⟨0, none, none, .reg .MT_QUOTA_LP a (BitVec.ofNat 32 (pw x.params 8))⟩] } }
    | .powerCap _ _ => exec i s = .next { s with m := { s.m with cq := done, pwr := { s.m.pwr with askHost := some (if a = 0 ∨ 3200 < a then 3200 else max 1200 a) } } }
    | .telemetry _ _ => exec i s = .next { s with m := { s.m with cq := cmdsWith s.m x (mgmtEnded s.m x 0x00 0xFF (s.m.sensor a).toNat) } }
    | .polderSet _ _ => exec i s = .next { s with m := { s.m.setFld .SP_LAYOUT_PENDING 0 a with cq := done } }
    | .confSet _ _ => exec i s = .next { s with m := { s.m with cq := done, sec := { s.m.sec with confAsk := s.m.sec.confAsk ++ [(a % 4, a.testBit 8)] } } }
    | _ => True

/-- Management packets act, or fail their checks without effect. -/
def Obligations.ManagementPacketsRun : Prop := ManagementPacketsFailTheirChecksWithoutEffect ∧ ManagementPacketsAct

/-- A SELFTEST packet whose checks pass runs for at most 3 frames and 40,960 cycles: OFFLINE zeroes the tile's memories, and a failure asks for the reset of the tile as failed and
returns its place; SPARES marks every free spare of the die that fails; RESTART begins every pass of the die at slice 0, and is decided at once (R392, R408, R409). -/
def Obligations.SelfTestsRunAndMarkWhatFails : Prop :=
  ∀ (i : Instr) (s : State) (x : Cmd), MayExecute s.m i x → AsksFor i x → s.m.mgmtChk x = .ok () → 
    let w := pw x.params 0
    let d := w / 2 ^ 30 % 4
    let tile := d * 48 + w / 2 ^ 24 % 64
    let runs (t : State) (r : Nat) : Prop := ∃ n, 1 ≤ n ∧ n ≤ 3 + ceilDiv 40960 s.m.budget
      ∧ t.m.cq = cmdsWith s.m x { x with phase := .running, status := 0x00, detail := 0xFF, result := BitVec.ofNat 64 r, first := s.m.fc.num, fin := s.m.fc.num + (n - 1) }
    match i with
    | .offline _ _ none => ∃ t, exec i s = .next t ∧ runs t 0 ∧ t.m.tile.sram.get tile = none ∧ t.m.rel = s.m.rel ∧ t.m.rf = s.m.rf
    | .offline _ _ (some _) => ∀ ph, s.m.physTile tile = some ph → ∃ t, exec i s = .next t ∧ runs t (2 ^ 31 + 3 * 2 ^ 28 + ph % 52 * 2 ^ 22 + 0xFF * 256)
        ∧ t.m.tile.sram.get tile = none ∧ t.m.rel.asked = s.m.rel.asked ++ [⟨0, d * 64 + tile % 48, 0, 2, []⟩] ∧ t.m.bit .BC_FIRST_FAIL_VALID (ph / 52) = true
    | .spares _ _ failed => ∃ t, exec i s = .next t ∧ runs t 0
        ∧ (∀ ph, ph ∈ t.m.rel.tileBad ↔ ph ∈ s.m.rel.tileBad ∨ (ph ∈ s.m.freeSpares d ∧ ∃ n ∈ failed, n.val = ph % 52))
        ∧ ∀ ph ∈ s.m.freeSpares d, (∃ n ∈ failed, n.val = ph % 52) → t.m.bit .BC_TILE_STATUS_FAILED ph = true ∧ t.m.bit .BC_TILE_STATUS_SPARE ph = false
    | .restart _ _ => ∃ t, exec i s = .next t ∧ t.m.cq = cmdsWith s.m x (mgmtEnded s.m x 0x00 0xFF 0)
        ∧ (∀ n < 52, t.m.fld .BC_TILE_STATUS_NEXT (d * 52 + n) = 0 ∧ t.m.rel.passStart.get (d * 52 + n) = some (2 * s.m.fc.num)) ∧ t.m.rel.tileBad = s.m.rel.tileBad
    | _ => True

/-! ## Reliability (07_tiles_tensors_and_layout.md R190, 08_memory_tiers.md R220 to R237, 13_reliability_and_recovery.md, 14_self_test.md) -/

/-- WEIR_TIMEOUT: a command that waits, and whose limit has passed at the sluice that is being taken, is decided with WEIR_TIMEOUT in it and waits on nothing; it does no work, and the
sluice posts its reply (R57, R290). -/
def WeirTimeoutEndsTheWait : Prop :=
  ∀ (c : CmdId) (s : State) (x : Cmd), s.m.cmd c = some x → s.m.waitLate x = true →
    ∃ m : Mod, exec (.weirTimeout c) s = .next { s with m := m.resume } ∧ m.stg = s.m.stg ∧ m.ue = s.m.ue ∧ m.rf.vals = s.m.rf.vals ∧ m.mem.cells = s.m.mem.cells ∧ m.io.out = s.m.io.out
      ∧ m.cq = { s.m.cq with cmds := s.m.cq.cmds.map fun y => if y.same x then { y with phase := .decided, status := 0x21, detail := 0xFF, fin := s.m.fc.num, waits := [] } else y }

/-- The units found hung at a sluice are reported once: HANG_COUNT counts the hang, the first unit is recorded if none was, the polders that own one are alerted, and with ACTION 0 nothing is
done about them: no command and no step ends, no reset is asked for. With ACTION 2 the reset of the domain of the only hung unit is asked for (R376, R378). Of several units the first
by kind, die and number is recorded, which is the model's choice (log entry 101). -/
def HangsAreReportedAndActedOn : Prop :=
  ∀ (s : State) (k : Nat) (ks : List Nat), s.m.rel.hung = k :: ks →
    ∃ m : Mod, exec .hangDetect s = .next { s with m := m.resume } ∧ m.rel.hung = []
      ∧ (s.m.fld .MC_HANG_CTRL_ACTION 0 = 0 → m.cq = s.m.cq ∧ m.ue = s.m.ue ∧ m.rel.resets = s.m.rel.resets ∧ m.rel.asked = s.m.rel.asked ∧ m.bit .MC_HANG_FIRST_VALID 0 = true
        ∧ (m.rd .MC_HANG_COUNT 0).toNat = min 0xFFFFFFFF ((s.m.rd .MC_HANG_COUNT 0).toNat + 1)
        ∧ (s.m.bit .MC_HANG_FIRST_VALID 0 = true → m.rd .MC_HANG_FIRST 0 = s.m.rd .MC_HANG_FIRST 0)
        ∧ ∀ u ∈ k :: ks, ∀ p ∈ s.m.unitPols u, m.bit .CQ_ALERT_CAUSE_HANG p = true)
      ∧ (s.m.fld .MC_HANG_CTRL_ACTION 0 = 2 → ks = [] → s.m.fc.window ≠ none → ∀ a b, s.m.hangTarget k = some (a, b) → m.rel.asked = s.m.rel.asked ++ [⟨a, b, 0, 1, []⟩])

/-- The sluice watchdog reports a hang of KIND 10 while hang detection is on and no reset of the hub or the module is in progress; with ACTION 0 it ends no command and begins no
reset (R377, R378). -/
def SluiceWatchdogReportsKind10 : Prop :=
  ∀ (late : BitVec 5) (s : State), s.m.bit .MC_HANG_CTRL_EN 0 = true → late ≠ 0 → s.m.fc.window = none → (∀ r ∈ s.m.rel.resets, r.kind ≠ 2 ∧ r.kind ≠ 5) →
    ∃ t, exec (.sluiceWatchdog late) s = .next t ∧ OnlyModule s t
      ∧ (s.m.fld .MC_HANG_CTRL_ACTION 0 = 0 → t.m.cq = s.m.cq ∧ t.m.ue = s.m.ue ∧ t.m.rel.resets = s.m.rel.resets
        ∧ (t.m.rd .MC_HANG_COUNT 0).toNat = min 0xFFFFFFFF ((s.m.rd .MC_HANG_COUNT 0).toNat + 1)
        ∧ (s.m.bit .MC_HANG_FIRST_VALID 0 = false → t.m.fld .MC_HANG_FIRST_KIND 0 = 10 ∧ t.m.bit .MC_HANG_FIRST_VALID 0 = true ∧ t.m.pair .MC_HANG_FRAME_LO .MC_HANG_FRAME_HI 0 = s.m.fc.num % 2 ^ 64))

/-- Weir timeouts, hangs and the sluice watchdog. -/
def Obligations.TimeoutsAndHangsAreReported : Prop := WeirTimeoutEndsTheWait ∧ HangsAreReportedAndActedOn ∧ SluiceWatchdogReportsKind10

/-- The start checks of a domain that may be released end in the frame, and wait for its sluice, which releases the domain; the hub, under which no sluice is taken, is released at once. A
released domain's reset is over, and the dies of its domain run again, unless it waits for a spare under test, in which case the spare knows the tile that waits (R383, R384, R388, R409). -/
def ReleasesEndTheirResets : Prop :=
  (∀ (kind : Fin 6) (index : BitVec 8) (failed : List (Fin 52)) (s : State) (r : ResetS), s.m.releasable kind index.toNat = some r →
    (kind ≠ 2 → exec (.domainRelease kind index failed) s = .next { s with m := { s.m with rel := { s.m.rel with releases := s.m.rel.releases ++ [(kind.val, index.toNat, failed.map (·.val))] } } })
    ∧ (kind = 2 → ∃ t, exec (.domainRelease kind index failed) s = .next t ∧ OnlyModule s t ∧ t.m.rel.resets = s.m.rel.resets.filter (· ≠ r)))
  ∧ ∀ (m : Mod) (kind index : Nat) (failed : List Nat) (r : ResetS), (m.rel.resets.find? fun r => r.kind == kind && r.index == index) = some r →
    (m.waitsSpare kind index = none → (m.onRelease kind index failed).rel.resets = m.rel.resets.filter (· ≠ r)
      ∧ ∀ d ∈ m.domainDies kind index, d ∉ (m.onRelease kind index failed).rel.stopped ∧ ∀ x ∈ (m.onRelease kind index failed).pci.stuck, x.1 ≠ d)
    ∧ ∀ ph tile, m.waitsSpare kind index = some (ph, tile) → (m.onRelease kind index failed).rel.resets = m.rel.resets
        ∧ (m.onRelease kind index failed).rel.spareTest = m.rel.spareTest.map fun x => if x.1 = ph then (ph, some tile) else x

/-- An uncorrectable error in a tile that is enabled, not failed and not in reset is counted at the sluice, and the tile's fault waits for it; until then nothing else changes (R190). -/
def TileFaultsWaitForTheSluice : Prop :=
  ∀ (d : Fin 4) (k : Fin 48) (s : State), let tile := d.val * 48 + k.val
    s.m.inFrame = true → s.m.tileLive tile = true → exec (.tileFault d k) s = .next { s with m := { s.m with
      stg := s.m.stg ++ [⟨tile, none, none, .count .TS_ECC_UNCORR tile 1⟩], rel := { s.m.rel with faults := s.m.rel.faults ++ [(tile, false)] } } }

/-- Resets are released, and tile faults wait for the sluice. -/
def Obligations.ReleasesAndTileFaults : Prop := ReleasesEndTheirResets ∧ TileFaultsWaitForTheSluice

/-- What an uncorrectable read at a physical place leaves: the count and the RETIRE mark of every page entry of the frame are staged for the sluice, the granule is poisoned, the bytes themselves and all
else in the memory system stay as they are; the first is recorded with its place (R236, R237). -/
def UncorrAt (m t : Mod) (id ofs : Nat) : Prop :=
  t.stg = m.stg ++ [⟨0, none, none, .count .MT_ECC_UNCORR 0 1⟩, ⟨0, none, none, .retire id⟩] ∧ (∀ g, g ∈ t.mem.poison ↔ g ∈ m.mem.poison ∨ g = (id * 2 ^ 21 + ofs) / 32)
    ∧ t.mem = { m.mem with poison := t.mem.poison } ∧ t.cq = m.cq ∧ t.ue = m.ue ∧ t.bit .MT_ECC_FIRST_VALID 0 = true
    ∧ (m.bit .MT_ECC_FIRST_VALID 0 = true → t.rf.vals = m.rf.vals) ∧ (m.bit .MT_ECC_FIRST_VALID 0 = false → (t.rd .MT_ECC_OFS 0).toNat = ofs / 32 * 32)

/-- An uncorrectable read of a mapped address, or of the patrol, marks its granule, and its page at the sluice; a single error that the patrol corrects is counted alone (R235, R236, R237). -/
def UncorrectableReadsPoisonAndRetire : Prop :=
  (∀ (p : Fin 4) (addr : BitVec 48) (s : State) (id : Nat), s.m.fc.window = none → s.m.physPage p addr.toNat = some id →
    ∃ t, exec (.memUncorr p addr) s = .next t ∧ OnlyModule s t ∧ UncorrAt s.m t.m id (addr.toNat % 2 ^ 21) ∧ t.m.rf.flags = s.m.rf.flags)
  ∧ (∀ (m : Mod) (id k : Nat), (m.markRetire id).mem.pages.get k = (m.mem.pages.get k).map fun e => if e.id = id then { e with retire := true } else e)
  ∧ ∀ (d : Fin 4) (ctl : Fin 14) (addr : BitVec 48) (s : State), s.m.fc.window = none → s.m.running = true → s.m.bit .MT_ECC_CTRL_PATROL_EN 0 = true → s.m.dieDown d = false →
    (∃ t, exec (.patrolScrub d ctl addr true) s = .next t ∧ OnlyModule s t
      ∧ UncorrAt s.m t.m ((ctlFrame (d * 14 + ctl) (addr.toNat / 2 ^ 21 % 65536)).1 * 2 ^ 22 + (ctlFrame (d * 14 + ctl) (addr.toNat / 2 ^ 21 % 65536)).2) (addr.toNat % 2 ^ 21)
      ∧ t.m.rf.flags = s.m.rf.flags ++ [⟨.CQ_ALERT_CAUSE, s.m.dieOf d, Fld.mask .CQ_ALERT_CAUSE_MEMORY⟩])
    ∧ exec (.patrolScrub d ctl addr false) s = .next { s with m := { s.m with
        stg := s.m.stg ++ [⟨0, none, none, .count (if ctl.val < 2 then .MT_ECC_CORR_HBM else .MT_ECC_CORR_LP) 0 1⟩] } }

/-- The frame at the head of a controller's zeroing queue, once its frames have passed, becomes free to allocate, and the next begins; every other controller stays as it is (R220). -/
def ZeroedFramesBecomeFree : Prop :=
  ∀ (d : Fin 4) (ctl : Fin 14) (s : State), let c := d.val * 14 + ctl.val
    s.m.zeroDue c = true → ∃ (m : Mod) (f : Nat) (rest : List (Nat × Nat)), exec (.pageZeroed d ctl) s = .next { s with m := m.resume } ∧ popRange (s.m.mem.ctl c).zq = some (f, rest)
      ∧ m.mem.ctl c = { s.m.mem.ctl c with zq := rest, free := pushRange f (s.m.mem.ctl c).free, zdone := 0 }
      ∧ (∀ c', c' ≠ c → m.mem.ctl c' = s.m.mem.ctl c') ∧ m = { s.m with mem := { s.m.mem with ctls := m.mem.ctls } }
      ∧ rangeCount (m.mem.ctl c).free = rangeCount (s.m.mem.ctl c).free + 1

/-- Uncorrectable reads poison and retire frames, and zeroed frames become free. -/
def Obligations.UncorrectableReadsAndZeroing : Prop := UncorrectableReadsPoisonAndRetire ∧ ZeroedFramesBecomeFree

/-- A checkpoint whose sub-blocks are all copied becomes COMPLETE in its head, and no longer copies before writes; a restore whose sub-blocks are all copied loads UE_STEP and the
state of the polder's enabled groups from the head, and is over (R394, R396). -/
def Obligations.CheckpointsAndRestoresComplete : Prop :=
  (∀ (p : Fin 4) (s : State) (k : Ckpt) (o : Obj), s.m.wholeCkpt p = some k → s.m.obj p k.obj = some o → ∃ m : Mod, exec (.checkpointComplete p) s = .next { s with m := m.resume }
    ∧ m.mem.ckpts = s.m.mem.ckpts.filter (· ≠ k) ∧ m.mem.cells = (s.m.putMem p (wcells o.base (leBytes (k.ranges.length * 256 + 1) 8))).mem.cells
    ∧ m = { s.m with mem := { s.m.mem with cells := m.mem.cells, ckpts := m.mem.ckpts, pages := m.mem.pages } })
  ∧ ∀ (p : Fin 4) (s : State) (r : Restore) (o : Obj), s.m.wholeRestore p = some (r, o) → ∃ m : Mod, exec (.restoreComplete p) s = .next { s with m := m.resume }
    ∧ m.mem = { s.m.mem with restores := s.m.mem.restores.filter (·.pol ≠ p.val) } ∧ m.bit .ME_CKPT_STATUS_BUSY p = false ∧ m.bit .ME_CKPT_STATUS_DONE p = true
    ∧ m.pair .UE_STEP_LO .UE_STEP_HI p = s.m.getN p (o.base + 0x10) 8
    ∧ ∀ g < 4096, s.m.fld .UE_GROUP_CTRL_POLDER g = p.val → s.m.bit .UE_GROUP_CTRL_ENABLE g = true →
        (m.rd .UE_GROUP_B1POW g).toNat = s.m.getN p (o.base + 0x1000 + 12 * g) 4 ∧ (m.rd .UE_GROUP_B2POW g).toNat = s.m.getN p (o.base + 0x1004 + 12 * g) 4
        ∧ (m.rd .UE_GROUP_STEPS g).toNat = s.m.getN p (o.base + 0x1008 + 12 * g) 4

/-- A donated frame runs the tile's next slice: a slice that passes moves NEXT on, after slice 18 to 0 with PASSES one more; one that fails leaves NEXT, is the die's first failure if none was, and is a tile fault at the
sluice. A frame donated to a tile that runs no slice passes, and is donated (R407, R408, R411); that a count of 0 marks it is the model's own. -/
def SlicesAdvanceTheirPass : Prop :=
  (∀ (d : Fin 4) (k : Fin 48) (x : Option TestFail) (s : State), s.m.inFrame = true → s.m.mayDonate (d.val * 48 + k.val) = true → s.m.sliceReady (d.val * 48 + k.val) = false →
    ∃ t, exec (.inServiceSlice d k x) s = .next t ∧ OnlyModule s t ∧ t.m = { s.m with stg := t.m.stg, ob := t.m.ob }
      ∧ t.m.stg = s.m.stg ++ [⟨d.val * 48 + k.val, none, none, .count .BC_SLICES_DONE d 0⟩] ∧ t.m.mayDonate (d.val * 48 + k.val) = false)
  ∧ ∀ (d : Fin 4) (k : Fin 48) (s : State) (ph : Nat), let tile := d.val * 48 + k.val
    s.m.inFrame = true → s.m.sliceReady tile = true → s.m.physTile tile = some ph → s.m.fld .BC_TILE_STATUS_NEXT ph ≤ 18 →
    (∃ t, exec (.inServiceSlice d k none) s = .next t ∧ OnlyModule s t ∧ t.m.rel.faults = s.m.rel.faults
      ∧ t.m.fld .BC_TILE_STATUS_NEXT ph = (s.m.fld .BC_TILE_STATUS_NEXT ph + 1) % 19
      ∧ t.m.fld .BC_TILE_STATUS_PASSES ph = (if s.m.fld .BC_TILE_STATUS_NEXT ph = 18 then (s.m.fld .BC_TILE_STATUS_PASSES ph + 1) % 256 else s.m.fld .BC_TILE_STATUS_PASSES ph)
      ∧ t.m.stg = s.m.stg ++ [⟨tile, none, none, .count .BC_SLICES_DONE d 1⟩])
    ∧ ∀ x, ∃ t, exec (.inServiceSlice d k (some x)) s = .next t ∧ OnlyModule s t ∧ t.m.rel.faults = s.m.rel.faults ++ [(tile, true)]
      ∧ t.m.fld .BC_TILE_STATUS_NEXT ph = s.m.fld .BC_TILE_STATUS_NEXT ph ∧ t.m.bit .BC_FIRST_FAIL_VALID (ph / 52) = true
      ∧ t.m.stg = s.m.stg ++ [⟨tile, none, none, .count .BC_SLICES_DONE d 1⟩, ⟨tile, none, none, .count .BC_SLICES_FAILED d 1⟩]

/-- A pass that has run past its deadline is reported once: STARVED rises and BC_STARVED counts at the sluice. A round of spare tests puts every spare of its die under test, in
order (R408, R409). -/
def StarvedPassesAndSpareRounds : Prop :=
  (∀ (d : Fin 4) (k : Fin 52) (s : State), let ph := d.val * 52 + k.val
    s.m.starved ph = true → ∃ m : Mod, exec (.passStarved d k) s = .next { s with m := m.resume } ∧ m.rf = { s.m.rf with flags := s.m.rf.flags ++ [⟨.BC_TILE_STATUS, ph, Fld.mask .BC_TILE_STATUS_STARVED⟩] }
      ∧ m.stg = s.m.stg ++ [⟨0, none, none, .count .BC_STARVED d 1⟩] ∧ m.starved ph = false)
  ∧ ∀ (d : Fin 4) (s : State), s.m.roundDue d = true → exec (.spareTestRound d) s = .next { s with m := ({ s.m with rel := { s.m.rel with
      spareTest := s.m.rel.spareTest ++ (s.m.spares d).map fun ph => (ph, none) } } : Mod).resume }

/-- The test of a spare ends: one that fails is marked failed and serves no number; one that passes takes the number of a tile that waits for it, is a spare no longer, and the tile's release waits
for the frame's sluice (R392, R409). -/
def SpareTestsEnd : Prop :=
  ∀ (d : Fin 4) (k : Fin 52) (pass : Bool) (s : State) (wait : Option Nat), let ph := d.val * 52 + k.val
    s.m.inFrame = true → s.m.underTest d = some (ph, wait) → ∃ t, exec (.spareTestEnd d k pass) s = .next t ∧ OnlyModule s t ∧ (∀ x ∈ t.m.rel.spareTest, x.1 ≠ ph)
      ∧ (pass = false → ph ∈ t.m.rel.tileBad)
      ∧ (wait = none → pass = true → t.m = { s.m with rel := { s.m.rel with spareTest := t.m.rel.spareTest } })
      ∧ ∀ tile, wait = some tile → pass = true → t.m.rel.tileMap.get tile = some k.val ∧ t.m.bit .BC_TILE_STATUS_SPARE ph = false
          ∧ t.m.rel.releases = s.m.rel.releases ++ [(0, tile / 48 * 64 + tile % 48, [])] ∧ t.m.rel.resets = s.m.rel.resets

/-- Background self-test: slices, starved passes, rounds of spares and their ends. -/
def Obligations.BackgroundTestsAdvance : Prop := SlicesAdvanceTheirPass ∧ StarvedPassesAndSpareRounds ∧ SpareTestsEnd

/-! ## Links and messages (02_frames_and_commit.md R39, R48, 12_links_and_board.md) -/

/-- One link of the module changes, and with it only registers and what hardware flags in the frame. -/
def OneLink (s t : State) (l : Nat) : Prop :=
  OnlyModule s t ∧ t.m = { s.m with zl := { s.m.zl with links := t.m.zl.links }, rf := t.m.rf, io := { s.m.io with out := t.m.io.out } } ∧ ∀ k, k ≠ l → t.m.link k = s.m.link k

/-- Training ends for a link whose training is under way: with lanes missing the link is DOWN, cause LANES; with a peer of another slot than the topology names, DOWN, cause WIRING; with the
right peer it rises at the sluice with fresh sequence numbers and credits; while the peer has not been heard it trains on. With its lanes locked the link sends its own training flits. LANES_OK shows the lanes, and ZL_PEER the peer (R347, R348, R362). -/
def LinkTrainingEndsAsItsLanesAndPeerSay : Prop :=
  ∀ (l : Fin 32) (lanes : BitVec 8) (peer : Option PeerId) (s : State), s.m.training l = true →
    ∃ t, exec (.linkTraining l lanes peer) s = .next t ∧ OneLink s t l ∧ t.m.fld .ZL_STATUS_LANES_OK l = lanes.toNat ∧ t.m.rf.flags = s.m.rf.flags
      ∧ t.m.io.out = (if lanes = 0xFF#8 then s.m.io.out ++ [.training l (s.m.ownId l)] else s.m.io.out)
      ∧ (lanes ≠ 0xFF#8 → t.m.link l = { s.m.link l with st := .down, cause := 2, wasDown := true })
      ∧ (lanes = 0xFF#8 → peer = none → t.m.link l = s.m.link l)
      ∧ ∀ q, lanes = 0xFF#8 → peer = some q → (t.m.rd .ZL_PEER l).toNat = q.slot.toNat * 2 ^ 20 + q.node.toNat * 2 ^ 16 + q.link.toNat * 2 ^ 8 + q.log2.toNat * 2 ^ 3
          ∧ t.m.link l = if s.m.slotOfLink l = some q.slot.toNat
              then { s.m.link l with rising := true, sent := 0, acked := 0, expect := 0, tx := .none, credits := [16, 32, 448, 128], partials := [] }
              else { s.m.link l with st := .down, cause := 6, wasDown := true }

/-- A link in training for 120 ms is DOWN, cause TIMEOUT; a DOWN link with ENABLE set trains again (R348). -/
def TrainingTimesOutAndIsTriedAgain : Prop :=
  (∀ (l : Fin 32) (s : State), s.m.training l = true → ∃ t, exec (.trainTimeout l) s = .next t ∧ OneLink s t l ∧ t.m.rf = s.m.rf ∧ t.m.io = s.m.io
    ∧ t.m.link l = { s.m.link l with st := .down, cause := 3, wasDown := true })
  ∧ ∀ (l : Fin 32) (s : State), (s.m.link l).st = .down → s.m.bit .ZL_CTRL_ENABLE l = true →
    ∃ t, exec (.retrainInterval l) s = .next t ∧ OneLink s t l ∧ t.m.rf = s.m.rf ∧ t.m.io = s.m.io ∧ t.m.link l = { s.m.link l with st := .training }

/-- A link that is UP leaves UP when a lane loses lock (RETRAIN, or DOWN with every lane lost) or an acknowledgement fails to come (RETRAIN): what it has not had acknowledged, its partial messages and its credits are
gone, and DOWN_EVENT and every polder's LINK alert are flagged for the sluice (R349). -/
def LinksLeaveUpWithTheirFlitsDiscarded : Prop :=
  ∀ (i : Instr) (l : Fin 32) (s : State) (st : LinkSt) (cause : Nat), (s.m.link l).st = .up →
    ((i = .laneLockLoss l false ∧ st = .retrain ∧ cause = 2) ∨ (i = .laneLockLoss l true ∧ st = .down ∧ cause = 1)
      ∨ (i = .ackTimeout l ∧ (s.m.link l).sent ≠ (s.m.link l).acked ∧ st = .retrain ∧ cause = 4)) →
    ∃ t, exec i s = .next t ∧ OneLink s t l ∧ t.m.rf.vals = s.m.rf.vals ∧ t.m.io = s.m.io
      ∧ t.m.link l = { s.m.link l with st := st, cause := cause, rising := false, wasDown := true, sent := 0, acked := 0, expect := 0, tx := .none, partials := [], credits := [0, 0, 0, 0],
                                       leftAt := s.m.fc.num + 1 }
      ∧ t.m.rf.flags = s.m.rf.flags ++ ⟨.ZL_STATUS, l, Fld.mask .ZL_STATUS_DOWN_EVENT⟩ :: (List.range s.m.polders).map fun p => ⟨.CQ_ALERT_CAUSE, p, Fld.mask .CQ_ALERT_CAUSE_LINK⟩

/-- Links train, time out, are tried again, and leave UP. -/
def Obligations.LinksTrainAndLeaveUp : Prop := LinkTrainingEndsAsItsLanesAndPeerSay ∧ TrainingTimesOutAndIsTriedAgain ∧ LinksLeaveUpWithTheirFlitsDiscarded

/-- A flit as R350 and R351 lay it out: 256 bytes whose check holds, with its sequence number, the last flit received in sequence, and whether it is a NAK. -/
def FlitSays (bytes : List Byte) (seq ack : Nat) (nak : Bool) : Prop :=
  let h := leNat (bytes.take 8)
  bytes.length = 256 ∧ crc32c (bytes.take 240) = leNat ((bytes.drop 240).take 4) ∧ h / 2 ^ 29 % 4096 = seq ∧ h / 2 ^ 41 % 4096 = ack ∧ h.testBit 53 = nak

/-- A flit of 256 bytes on a link that is UP, after its parity: one whose check fails, or that is not the next in sequence, is counted and answered with a NAK of the last in sequence, as far as the replay
buffer has a place for the flit that carries it; one with a reserved header bit set is counted and discarded; after the next in sequence the link expects the one after, and acknowledges it in the next flit that
it sends, at once where there is a place. A corrected flit counts its corrections (R350 to R352, R358). That a NAK or an acknowledgement goes out in a flit of padding is the model's choice (log entry 29). -/
def Obligations.FlitsAreAcknowledgedInSequence : Prop :=
  ∀ (l : Fin 32) (flit : List Byte) (c : Nat) (s : State), (s.m.link l).st = .up → flit.length = 256 → (s.m.link l).expect < 4096 → (s.m.link l).sent < 4096 →
    let k := s.m.link l
    let h := leNat (flit.take 8)
    let good := crc32c (flit.take 240) = leNat ((flit.drop 240).take 4)
    let fixed : List Staged := if c = 0 then [] else [⟨0, none, none, .count .ZL_FEC_CORR l c⟩]
    let count (r : RegName) : List Staged := s.m.stg ++ fixed ++ [⟨0, none, none, .count r l 1⟩]
    ((¬ good ∨ (h / 2 ^ 18 % 2 ^ 11 = 0 ∧ h / 2 ^ 29 % 4096 ≠ k.expect)) → ∃ t, exec (.flitReceive l flit c) s = .next t ∧ OnlyModule s t
        ∧ t.m = { s.m with stg := count .ZL_CRC_ERR, zl := { s.m.zl with links := t.m.zl.links }, io := { s.m.io with out := t.m.io.out } } ∧ (t.m.link l).expect = k.expect ∧ (t.m.link l).inbox = k.inbox
        ∧ (k.tx.replay.length < 128 → (∃ bytes, FlitSays bytes k.sent ((k.expect + 4095) % 4096) true ∧ t.m.io.out = s.m.io.out ++ [.flit l bytes]) ∧ (t.m.link l).tx.nak = false
            ∧ (t.m.link l).tx.replay.length = k.tx.replay.length + 1 ∧ (t.m.link l).sent = (k.sent + 1) % 4096)
        ∧ (128 ≤ k.tx.replay.length → t.m.io.out = s.m.io.out ∧ t.m.link l = { k with tx := { k.tx with nak := true, owes := true } }))
    ∧ (good → h / 2 ^ 18 % 2 ^ 11 ≠ 0 → exec (.flitReceive l flit c) s = .next { s with m := { s.m with stg := count .ZL_PROTO_ERR } })
    ∧ (good → h / 2 ^ 18 % 2 ^ 11 = 0 → h.testBit 53 = false → h / 2 ^ 29 % 4096 = k.expect → ∃ t rest, exec (.flitReceive l flit c) s = .next t ∧ OnlyModule s t
        ∧ (t.m.link l).expect = (k.expect + 1) % 4096 ∧ (t.m.link l).st = .up ∧ t.m.io.out = s.m.io.out ++ rest ∧ ((t.m.link l).tx.owes = true → 128 ≤ (t.m.link l).tx.replay.length)
        ∧ ((t.m.link l).tx.owes = false → ∃ bytes seq nak, .flit l bytes ∈ rest ∧ FlitSays bytes seq k.expect nak))

/-- The message that a row takes from a link's inbox, with the module without it: the first of its kind that its sluice makes visible, held for the endpoint's hops where the kind is one of the step's (R48, R254, R354). -/
def tookMsg (m : Mod) : Instr → Option (Fin 32 × Msg × Mod)
  | .shard l => (m.popHeld l 0).map fun x => (l, x)
  | .result l => (m.popHeld l 1).map fun x => (l, x)
  | .ballot l => (m.popHeld l 2).map fun x => (l, x)
  | .close l => (m.popHeld l 3).map fun x => (l, x)
  | .rowadd l => (m.popMsg l 4).map fun x => (l, x)
  | .xfer l => (m.popMsg l 5).map fun x => (l, x)
  | _ => none

/-- A message reaches its polder: the polder exists, is not in reset, and its rank map names the source (R354, R364). -/
def Delivered (u : Mod) (g : Msg) : Prop := u.polderReset (g.dst % 4) = false ∧ g.dst % 4 < u.polders ∧ u.rankNames (g.dst % 4) g.src = true

/-- A message for a polder in reset, or for one that does not exist, is discarded; one from a source that the polder's rank map does not name is counted in SP_DIKE_DENIED at the sluice and has no other effect
(R354, R364, R418). -/
def ForeignMessagesHaveNoEffect : Prop :=
  ∀ (i : Instr) (l : Fin 32) (g : Msg) (u : Mod) (s : State), tookMsg s.m i = some (l, g, u) →
    ((u.polderReset (g.dst % 4) = true ∨ u.polders ≤ g.dst % 4) → exec i s = .next { s with m := u })
    ∧ (u.polderReset (g.dst % 4) = false → g.dst % 4 < u.polders → u.rankNames (g.dst % 4) g.src = false →
        exec i s = .next { s with m := refusal u (g.dst % 4) })

/-- The ballot of a member for the open step, at V at the latest and the member's first, is held with the sluice; one for another step, a late one or a second one counts nowhere. A close word is held likewise (R254, R255, R269). -/
def BallotsAndCloseWordsAreHeld : Prop :=
  (∀ (l : Fin 32) (g : Msg) (u : Mod) (s : State) (st : Step) (r : Nat), tookMsg s.m (.ballot l) = some (l, g, u) → Delivered u g →
    let p := g.dst % 4
    u.ue.steps.get p = some st → u.rankOf p g.src = some r →
    let good := g.b = st.num ∧ u.fc.num ≤ st.opened + (u.rd .UE_VOTE_AT p).toNat ∧ (st.phase = .executing ∨ st.phase = .balloted) ∧ ∀ h ∈ st.ballots, h.rank ≠ r
    ∃ t, exec (.ballot l) s = .next t ∧ OnlyModule s t ∧ t.m = { u with ue := { u.ue with steps := t.m.ue.steps } } ∧ (∀ q, q ≠ p → t.m.ue.steps.get q = u.ue.steps.get q)
      ∧ (good → t.m.ue.steps.get p = some { st with ballots := st.ballots ++ [⟨r, g.a, u.fc.num⟩] }) ∧ (¬ good → t.m = u))
  ∧ ∀ (l : Fin 32) (g : Msg) (u : Mod) (s : State) (st : Step) (r : Nat), tookMsg s.m (.close l) = some (l, g, u) → Delivered u g →
    let p := g.dst % 4
    u.ue.steps.get p = some st → u.rankOf p g.src = some r →
    let good := g.b = st.num ∧ ∀ h ∈ st.closes, h.rank ≠ r
    ∃ t, exec (.close l) s = .next t ∧ OnlyModule s t ∧ t.m = { u with ue := { u.ue with steps := t.m.ue.steps } } ∧ (∀ q, q ≠ p → t.m.ue.steps.get q = u.ue.steps.get q)
      ∧ (good → t.m.ue.steps.get p = some { st with closes := st.closes ++ [⟨r, g.a, u.fc.num⟩] }) ∧ (¬ good → t.m = u)

/-- Messages of other modules: foreign ones have no effect, ballots and close words are held. -/
def Obligations.MessagesOfPeersAreHeldOrIgnored : Prop := ForeignMessagesHaveNoEffect ∧ BallotsAndCloseWordsAreHeld

/-- A SHARD message of a member for the shard that the polder owns adds its codes to the bucket, with the member's bit in CONTRIB and its NONFINITE and SAT ORed in; a RESULT message of the shard's owner stages the codes for
the result buffer, and the bucket is FINAL at this sluice if every element is now present, or of a bucket without elements every member's result header, and its own stage 1 is complete (R248, R252, R253). -/
def Obligations.ShardsAndResultsEnterTheirBucket : Prop :=
  (∀ (l : Fin 32) (g : Msg) (u : Mod) (s : State) (b : Bucket) (r : Nat), tookMsg s.m (.shard l) = some (l, g, u) → Delivered u g →
    let p := g.dst % 4
    u.msgBkt p g = some b → u.rankOf p g.src = some r → g.a / 2 ^ 14 % 64 = u.rank p → u.fc.window = none →
    let len := (u.rank p + 1) * b.elems / u.members p - u.rank p * b.elems / u.members p
    ∃ t b', exec (.shard l) s = .next t ∧ OnlyModule s t ∧ t.m.bkts p = (u.bkts p).map (fun x => if x.num = b.num then b' else x)
      ∧ b' = { b with got := b.got ++ [⟨r, g.b % 2 ^ 40, msgCodes b g len, u.fc.num⟩], contrib := b.contrib ||| 2 ^ r, nonfinite := b.nonfinite || g.a.testBit 13, sat := b.sat || g.a.testBit 12 }
      ∧ t.m.stg = u.stg ++ [⟨rankBucket, none, none, .mem p b'.cells⟩] ∧ t.m.cq = u.cq ∧ t.m.rf = u.rf)
  ∧ ∀ (l : Fin 32) (g : Msg) (u : Mod) (s : State) (b : Bucket) (r : Nat), tookMsg s.m (.result l) = some (l, g, u) → Delivered u g →
    let p := g.dst % 4
    u.msgBkt p g = some b → u.rankOf p g.src = some r → g.a / 2 ^ 14 % 64 = r → b.owner = none →
    let a := r * b.elems / u.members p
    let codes := msgCodes b g ((r + 1) * b.elems / u.members p - a)
    let first := if b.elems = 0 then r else a + g.b % 2 ^ 40
    ∃ t b' rest, exec (.result l) s = .next t ∧ OnlyModule s t ∧ t.m.bkts p = (u.bkts p).map (fun x => if x.num = b.num then b' else x)
      ∧ (u.fc.window = none → t.m.stg = u.stg ++ ⟨2 ^ 81 + l, none, none, .mem p (wcells (b.addr + 64 + first * b.fmt.unitBytes) (b.payload codes))⟩ :: rest)
      ∧ b'.present = (if (codes = [] ∧ b.elems ≠ 0) ∨ (∃ x ∈ b.present, x.1 = first) then b.present else b.present ++ [(first, codes.length)])
      ∧ (b'.final = true ↔ b.s1done = true ∧ b.elems ≤ (b'.present.map (·.2)).sum ∧ (b.elems = 0 → u.members p ≤ b'.present.length + 1 ∧ (1 < u.members p → b.ownDone = true)))
      ∧ (b'.final = true → b'.finalAt = some u.fc.num) ∧ t.m.cq = u.cq

/-- An XFER message whose bytes lie in writable objects of its polder is staged for step 4 of the sluice under its link's rank; one that does not is counted in SP_DIKE_DENIED and writes nothing. An IDLE message stages the peer's
frame; a MGMT message is taken (R46, R354, R418). -/
def TransfersStageTheirBytes : Prop :=
  (∀ (l : Fin 32) (g : Msg) (u : Mod) (s : State), tookMsg s.m (.xfer l) = some (l, g, u) → Delivered u g →
    let p := g.dst % 4
    let ok := u.mapped p g.b g.body.length = true ∧ u.readonly p g.b g.body.length = false
    (ok → exec (.xfer l) s = .next { s with m := { u with stg := u.stg ++ [⟨2 ^ 81 + l, none, none, .mem p (wcells g.b g.body)⟩] } })
    ∧ (¬ ok → exec (.xfer l) s = .next { s with m := refusal u p }))
  ∧ (∀ (l : Fin 32) (g : Msg) (u : Mod) (s : State), s.m.popMsg l 6 = some (g, u) → u.zl.rejoin = none →
    exec (.idle l) s = .next { s with m := { u.setFld .ZL_PEER_NODE l (g.a / 2 ^ 12 % 16) with
      stg := u.stg ++ [⟨2 ^ 81 + l, none, none, .reg .ZL_PEER_FRAME_LO l (BitVec.ofNat 32 g.b)⟩, ⟨2 ^ 81 + l, none, none, .reg .ZL_PEER_FRAME_HI l (BitVec.ofNat 32 (g.b / 2 ^ 32))⟩] } })
  ∧ ∀ (l : Fin 32) (g : Msg) (u : Mod) (s : State), s.m.popMsg l 7 = some (g, u) → exec (.mgmt l) s = .next { s with m := u }

/-- A ROWADD message whose group is an enabled row group of the polder, with a body of the group's width and a row of its table, becomes contributions of the next frame, each of a value of its body in order; where no staging object of the loaded program is
bound to the group they go to the table row itself, as W16. Any other is counted in SP_DIKE_DENIED and adds nothing (R267, R354, R355). The choice of the target is the model's where the spec is silent (log entry 33). -/
def RowaddsContributeInTheNextFrame : Prop :=
  ∀ (l : Fin 32) (g : Msg) (u : Mod) (s : State), tookMsg s.m (.rowadd l) = some (l, g, u) → Delivered u g →
    let p := g.dst % 4
    let r := u.group (g.a % 4096)
    let row := g.b % 2 ^ 40
    let good := u.groupUsable p (g.a % 4096) = true ∧ r.isRow = true ∧ g.body.length = 4 * r.width ∧ row < r.count
    (good → u.ue.progs.get p = none → ∃ t cs, exec (.rowadd l) s = .next t ∧ OnlyModule s t ∧ t.m.ue = { u.ue with later := u.ue.later ++ [(u.fc.num + 1, ⟨2 ^ 81 + l, none, none, .reduce p cs⟩)] }
      ∧ cs.length = r.width ∧ t.m.stg = u.stg ∧ t.m.rf = u.rf ∧ ∀ j < r.width, ∃ c, cs[j]? = some c ∧ c.addr = r.base + row * r.width * 2 + 2 * j ∧ c.kind = 1
        ∧ c.val = (Contrib.of 0 1 (f32Val (leNat ((g.body.drop (4 * j)).take 4)))).val)
    ∧ (¬ good → ∃ t, exec (.rowadd l) s = .next t ∧ OnlyModule s t ∧ t.m.ue = u.ue ∧ t.m.rf = u.rf ∧ t.m.stg = (refusal u p).stg)

/-- Transfers, idle and management messages, and row contributions. -/
def Obligations.TransfersAndRowaddsArrive : Prop := TransfersStageTheirBytes ∧ RowaddsContributeInTheNextFrame

/-- A frame length whose target frame follows the sluice that is being taken becomes the active one (R39). A rejoin that has heard no usable IDLE message for 64 frames fails with reason 1 and is disarmed, and the module keeps its count (R368). -/
def FrameLengthAndRejoinTakeEffect : Prop :=
  (∀ (s : State) (f g n : Nat), s.m.sluiceA = some g → s.m.fc.change = some (f, n) → f ≤ g + 1 →
    exec .frameLenChange s = .next { s with m := ({ s.m with fc := { s.m.fc with log2 := n, change := none } } : Mod).resume })
  ∧ ∀ (s : State) (k f g : Nat), s.m.sluiceB = some g → s.m.zl.rejoin = some (k, f, none) → f + 64 ≤ g + 1 →
    ∃ m : Mod, exec .rejoinNoPeer s = .next { s with m := m.resume } ∧ m = { s.m with zl := { s.m.zl with rejoin := none }, fc := { s.m.fc with astray := true }, rf := m.rf }
      ∧ m.fld .ZL_REJOIN_ARM 0 = 0 ∧ m.fld .ZL_REJOIN_STATUS_REASON 0 = 1 ∧ m.rf.flags = s.m.rf.flags ++ [⟨.ZL_REJOIN_STATUS, 0, Fld.mask .ZL_REJOIN_STATUS_FAIL⟩]

/-- A substitution at its sluice is over whatever it finds: with a step or a loop in a polder it fails with CONFIG_CONFLICT and moves nothing; else the standby takes the node's number, and a working module turns every route to it to slot 8 (R370, R371). -/
def SubstitutionsTurnTheRoutes : Prop :=
  ∀ (s : State) (f : Nat), s.m.zl.subst = true → s.m.sluiceA = some f → f + 1 = s.m.pair .ZL_SUBST_AT_LO .ZL_SUBST_AT_HI 0 →
    let old := s.m.fld .ZL_SUBST_OLD 0
    let busy := ∃ p < s.m.polders, s.m.stepping p = true
    ∃ m : Mod, exec .substitution s = .next { s with m := m.resume } ∧ m.zl.subst = false ∧ m.cq = s.m.cq ∧ m.ue = s.m.ue ∧ m.mem = s.m.mem
      ∧ (busy → m.fld .ZL_SUBST_STATUS_LAST_ERR 0 = 0x22 ∧ m.fld .ZL_NODE_NODE 0 = s.m.fld .ZL_NODE_NODE 0 ∧ ∀ e, m.fld .ZL_ROUTE_SLOT e = s.m.fld .ZL_ROUTE_SLOT e)
      ∧ (¬ busy → m.bit .ZL_SUBST_STATUS_DONE 0 = true
        ∧ (s.m.fld .ZL_NODE_SLOT 0 = 8 → m.fld .ZL_NODE_NODE 0 = old)
        ∧ (s.m.fld .ZL_NODE_SLOT 0 ≠ 8 → ∀ e < 64, s.m.bit .ZL_ROUTE_VALID e = true → m.fld .ZL_ROUTE_SLOT e = if s.m.fld .ZL_ROUTE_SLOT e = old then 8 else s.m.fld .ZL_ROUTE_SLOT e))

/-- Changes of the frame length, rejoin and substitution. -/
def Obligations.FrameLengthRejoinAndSubstitution : Prop := FrameLengthAndRejoinTakeEffect ∧ SubstitutionsTurnTheRoutes

/-! ## Buckets, steps and votes (09_gradient_exchange_and_update.md, 06_scaling_and_error_control.md R169 to R174) -/

/-- A bucket of a polder became another; the polder's others are as they were. -/
def OneBucket (m t : Mod) (p : Nat) (b b' : Bucket) : Prop := t.bkts p = (m.bkts p).map (fun x => if x.num = b.num then b' else x) ∧ b'.num = b.num

/-- Of the memory system only bytes, their poison and the checkpoints' progress may differ: a bucket's header was written, or nothing was. -/
def OnlyBytes (m t : Mod) : Prop := t.mem = { m.mem with cells := t.mem.cells, poison := t.mem.poison, ckpts := t.mem.ckpts, pages := t.mem.pages }

/-- A bucket of the step whose fill weir released closes at that sluice: in flight, with its stage 1 complete within the bound of R250; with 256 buckets of the polder in flight it fails with cause 2 instead, the first failure recorded
if none was (R248, R249, R276). -/
def BucketsCloseUnlessTooManyAreInFlight : Prop :=
  ∀ (p : Fin 4) (n : BitVec 12) (s : State) (b : Bucket) (f : Nat), s.m.sluiceB = some f → s.m.bkt p n.toNat = some b → b.state = 1 → b.filled = true → b.failed = false → b.owner = none →
    ∃ (m : Mod) (b' : Bucket), exec (.bucketClose p n) s = .next { s with m := m.resume } ∧ OneBucket s.m m p b b' ∧ m.cq = s.m.cq ∧ OnlyBytes s.m m
      ∧ (s.m.inFlight p < 256 → b'.state = 2 ∧ b'.closed = some f ∧ f < b'.s1at ∧ b'.s1at ≤ f + (2 + ceilDiv b.bytes (1600 * s.m.budget)) ∧ b'.failed = false)
      ∧ (256 ≤ s.m.inFlight p → b'.failed = true ∧ b'.cause = 2 ∧ m.bit .UE_BKT_FIRST_FAIL_VALID p = true)

/-- Stage 1 of a bucket in flight completes at its sluice. In a group of one the sum of the polder's partial buffers is the result: every element is present, and the bucket is FINAL there. In a larger group the polder holds its
sum, and its own part of its own shard counts as its contribution (R250, R252). -/
def StageOneMakesThePoldersSum : Prop :=
  ∀ (p : Fin 4) (n : BitVec 12) (s : State) (b : Bucket) (f : Nat), s.m.inFrame = true → s.m.fc.num = f → s.m.bkt p n.toNat = some b → b.state = 2 → b.failed = false → b.s1done = false → b.s1at ≤ f → b.owner = none → b.final = false →
    let v := s.m.stageOne p b
    let me := s.m.rank p
    ∃ t b', exec (.stage1Complete p n) s = .next t ∧ OnlyModule s t ∧ OneBucket s.m t.m p b b' ∧ b'.s1done = true ∧ t.m.cq = s.m.cq ∧ v.length = b.elems
      ∧ b'.nonfinite = (b.nonfinite || v.any (·.2.1)) ∧ b'.sat = (b.sat || v.any (·.2.2))
      ∧ (s.m.members p = 1 → b'.final = true ∧ b'.finalAt = some f ∧ b'.contrib = b.contrib ||| 1
        ∧ t.m.stg = s.m.stg ++ [⟨rankBucket, none, none, .mem p (wcells (b.addr + 64) (b.payload (v.map (·.1))))⟩, ⟨rankBucket, none, none, .mem p b'.cells⟩])
      ∧ (s.m.members p ≠ 1 → b'.contrib = b.contrib ||| 2 ^ me ∧ (b'.final = false → b'.sum = v.map (·.1)
          ∧ b'.got = b.got ++ [⟨me, 0, ((v.map (·.1)).drop (me * b.elems / s.m.members p)).take ((me + 1) * b.elems / s.m.members p - me * b.elems / s.m.members p), f⟩]))

/-- REDUCE declares its bucket; buckets close, and stage one sums. -/
def Obligations.BucketsAreDeclaredAndClose : Prop := ReduceDeclaresAndClosesItsBucket ∧ BucketsCloseUnlessTooManyAreInFlight ∧ StageOneMakesThePoldersSum

/-- The owner of a shard sums the contributions of every rank once they are all there: the sum is present in its own result buffer, and goes to every other member (R252). -/
def ShardOwnersSumAndSend : Prop :=
  ∀ (p : Fin 4) (n : BitVec 12) (s : State) (b : Bucket) (ls : List (List Nat)) (f : Nat), s.m.inFrame = true → s.m.fc.num = f → s.m.bkt p n.toNat = some b → s.m.ownSum p b = some ls → b.owner = none → b.final = false →
    let a := s.m.rank p * b.elems / s.m.members p
    let len := (s.m.rank p + 1) * b.elems / s.m.members p - a
    ∃ t b' msgs, exec (.shardOwnerSum p n) s = .next t ∧ OnlyModule s t ∧ OneBucket s.m t.m p b b' ∧ b'.ownDone = true ∧ t.m.cq = s.m.cq
      ∧ b'.present = (if len = 0 then b.present else b.present ++ [(a, len)]) ∧ t.m.zl.sendq = s.m.zl.sendq ++ msgs ∧ (∀ g ∈ msgs, g.kind = 1 ∧ g.vc = 2 ∧ g.at_ = f + 1 ∧ g.body.length ≤ 32768 ∧ ∃ r ∈ s.m.peers p, g.dst = s.m.endpoint p r)
      ∧ (b'.final = true ↔ b.elems ≤ (b'.present.map (·.2)).sum ∧ (b.elems = 0 → s.m.members p ≤ b'.present.length + 1))

/-- A bucket that is not FINAL at sluice O + DUE fails with cause 1, and the first failure is recorded if none was. Pass one of a FINAL bucket adds its elements to the step's norms, and the bucket is DONE (R253, R261, R276). -/
def LateBucketsFailAndFinalOnesAreDone : Prop :=
  (∀ (p : Fin 4) (n : BitVec 12) (s : State) (b : Bucket) (f : Nat), s.m.sluiceA = some f → s.m.bkt p n.toNat = some b → b.final = false → b.failed = false → b.state ≠ 0 → b.due ≤ f → b.owner = none →
    ∃ (m : Mod) (b' : Bucket), exec (.bucketLate p n) s = .next { s with m := m.resume } ∧ OneBucket s.m m p b b' ∧ b'.failed = true ∧ b'.cause = 1 ∧ m.cq = s.m.cq ∧ m.bit .UE_BKT_FIRST_FAIL_VALID p = true
      ∧ (s.m.bit .UE_BKT_FIRST_FAIL_VALID p = true → m.rd .UE_BKT_FIRST_FAIL p = s.m.rd .UE_BKT_FIRST_FAIL p))
  ∧ ∀ (p : Fin 4) (n : BitVec 12) (s : State) (b : Bucket) (st : Step), s.m.bkt p n.toNat = some b → s.m.passOneDue p n.toNat = true → s.m.ue.steps.get p = some st →
    ∃ (m : Mod) (b' : Bucket), exec (.passOne p n) s = .next { s with m := m.resume } ∧ OneBucket s.m m p b b' ∧ b' = { b with passOne := true, state := 3 }
      ∧ m.ue.steps.get p = some { st with norms := s.m.passNorms p b st.norms } ∧ m.rf.vals = s.m.rf.vals ∧ m.cq = s.m.cq ∧ OnlyBytes s.m m

/-- Shard owners sum and send; late buckets fail, and final ones are done. -/
def Obligations.ShardsAreSummedAndBucketsEnd : Prop := ShardOwnersSumAndSend ∧ LateBucketsFailAndFinalOnesAreDone

/-- A step opens in the frame after its sluice with the next step number, the program's seed for it, and every bucket of the program filling, due at O + DUE. A step that replays a record for diagnosis opens with the record's number and seed, and UE_STEP stays (R49, R87,
R248, R336, R338). -/
def StepsOpenWithTheirNumberAndSeed : Prop :=
  ∀ (p : Fin 4) (s : State) (f batch : Nat) (by_ : StepBy) (sp : StepProg), s.m.sluiceB = some f → s.m.stepDue p = true → s.m.ue.progs.get p = some sp → s.m.opener p f = some (by_, batch) →
    s.m.pair .UE_STEP_LO .UE_STEP_HI p + 1 < 2 ^ 64 →
    let num := s.m.pair .UE_STEP_LO .UE_STEP_HI p + 1
    ∃ (m : Mod) (st : Step), exec (.stepOpen p) s = .next { s with m := m.resume } ∧ m.ue.steps.get p = some st ∧ st.by_ = by_ ∧ st.batch = batch ∧ st.opened = f + 1 ∧ st.attempt = 0 ∧ st.phase = .executing ∧ st.reasons = 0
      ∧ (s.m.diagRecord by_ = none → st.num = num ∧ st.seed = (sp.seed + num % 2 ^ 32 * 0x9E3779B9) % 2 ^ 32 ∧ m.pair .UE_STEP_LO .UE_STEP_HI p = num
        ∧ ∀ a ∈ sp.buckets, ∃ b ∈ m.bkts p, b.addr = a ∧ b.state = 1 ∧ b.owner = none ∧ b.due = f + 1 + s.m.getN p (a + 0xC) 4)
      ∧ ∀ a, s.m.diagRecord by_ = some a → st.num = s.m.getN p a 8 ∧ st.seed = s.m.getN p (a + 0x10) 4 ∧ m.pair .UE_STEP_LO .UE_STEP_HI p = s.m.pair .UE_STEP_LO .UE_STEP_HI p

/-- At its ballot sluice a polder casts the step's number and its reasons, the buckets' among them, into UE_VOTE_LOCAL, and sends the same word to every other member for the next frame (R255, R256). -/
def BallotsCarryTheStepAndItsReasons : Prop :=
  ∀ (p : Fin 4) (s : State) (f : Nat) (st : Step), s.m.fc.num = f → s.m.ballotDue p = true → s.m.ue.steps.get p = some st →
    ∃ (m : Mod) (st' : Step), exec (.ballotSluice p) s = .next { s with m := m.resume } ∧ m.ue.steps.get p = some st' ∧ st'.phase = .balloted ∧ st'.ballotAt = some f
      ∧ (m.rd .UE_VOTE_LOCAL p).toNat = st'.ballot ∧ st'.ballot / 65536 = st.num % 65536
      ∧ (st'.ballot.testBit 0 = true ↔ st.reasons.testBit 0 = true ∨ ∃ b ∈ s.m.bkts p, b.owner = none ∧ b.nonfinite = true)
      ∧ (st'.ballot.testBit 8 = true ↔ st.reasons.testBit 8 = true ∨ ∃ b ∈ s.m.bkts p, b.owner = none ∧ b.failed = true)
      ∧ (∀ i, i ∉ [0, 1, 5, 8] → i < 11 → st'.ballot.testBit i = st.reasons.testBit i)
      ∧ m.zl.sendq = s.m.zl.sendq ++ (s.m.peers p).map fun r => ⟨1, 2, s.m.self p, s.m.endpoint p r, st'.ballot, st.num, [], f + 1, 0⟩

/-- The outcome that the reasons of a vote name: 2 SKIP where any but REPLAY is set, else 3 REPLAY, else 1 COMMIT (R257). -/
def outcomeFor (reasons : Nat) : Nat := if reasons &&& 0x7FD ≠ 0 then 2 else if reasons.testBit 1 then 3 else 1

/-- At V the group word is the step's number, the outcome, and the union of the reasons of the ballots held, with bit 9 where a member's is missing; it is written to UE_VOTE_WORD. With HOST_HOLD set the outcome is provisional until the host's verdict; else a commit goes to pass two,
and a skip or a replay to its maintenance, or to its closing where it has none (R171, R257, R258, R259). -/
def VotesUniteTheBallotsHeld : Prop :=
  ∀ (p : Fin 4) (s : State) (f : Nat) (st : Step), s.m.fc.num = f → s.m.voteDue p = true → s.m.ue.steps.get p = some st → s.m.ue.progs.get p ≠ none →
    let held := st.ballots.filter fun h => decide (h.at_ ≤ f)
    let all : Prop := ∀ r < s.m.members p, ∃ h ∈ held, h.rank = r
    ∃ (m : Mod) (st' : Step) (reasons : Nat), exec (.voteSluice p) s = .next { s with m := m.resume } ∧ m.ue.steps.get p = some st' ∧ (∀ i, reasons.testBit i = true ↔ (i < 11 ∧ ∃ h ∈ held, h.word.testBit i = true) ∨ (i = 9 ∧ ¬ all))
      ∧ st'.word = st.num % 65536 * 65536 + outcomeFor reasons * 16384 + reasons ∧ (m.rd .UE_VOTE_WORD p).toNat = st'.word ∧ st'.outcome = outcomeFor reasons ∧ st'.voteAt = some f ∧ st'.ballots = held
      ∧ (s.m.bit .UE_VOTE_CTRL_HOST_HOLD p = true → st'.phase = .provisional)
      ∧ (s.m.bit .UE_VOTE_CTRL_HOST_HOLD p = false → st'.decidedAt = f ∧ st'.phase = if st'.outcome = 1 ∧ st.isDiag = false ∧ st.abandoned = false then .passTwo else if st.plain = true ∨ st.isDiag = true then .closing else .maintenance)

/-- The host's verdict on a provisional outcome, or its timeout, makes the outcome final: SKIP if either says SKIP, else REPLAY if either does, else COMMIT; a timeout is a SKIP. The word shows the final outcome, with bit 10 where the host skipped (R259). -/
def HostVerdictsSettleProvisionalOutcomes : Prop :=
  ∀ (p : Fin 4) (s : State) (f : Nat) (st : Step), s.m.sluiceA = some f → s.m.ue.steps.get p = some st → s.m.ue.progs.get p ≠ none → st.phase = .provisional →
    let final (m : Mod) (outcome : Nat) (host : Bool) : Prop := ∃ st', m.ue.steps.get p = some st' ∧ st'.outcome = outcome ∧ st'.decidedAt = f ∧ m.rd .UE_VOTE_WORD p = BitVec.ofNat 32 st'.word
      ∧ st'.word / 65536 = st.word / 65536 ∧ st'.word / 16384 % 4 = outcome ∧ (st'.word.testBit 10 = true ↔ st.word.testBit 10 = true ∨ host = true) ∧ st'.phase ≠ .provisional
    (∀ v, s.m.verdict p = some v → ∃ m : Mod, exec (.hostVerdict p) s = .next { s with m := m.resume } ∧ final m (if st.outcome = 2 ∨ v = 2 then 2 else if st.outcome = 3 ∨ v = 3 then 3 else 1) (decide (v = 2)))
    ∧ (s.m.verdict p = none → st.voteAt.getD 0 + s.m.fld .UE_VOTE_TIMEOUTS_HOST p ≤ f → ∃ m : Mod, exec (.hostTimeout p) s = .next { s with m := m.resume } ∧ final m 2 true)

/-- The maintenance pass selects the scale of every delayed slot, for the closing sluice, and changes nothing before it. Pass two of a committed step ends with its close word, for every other member whose ballot counted (R169, R171, R264, R269). -/
def MaintenanceAndPassTwoLeadToTheClosing : Prop :=
  (∀ (p : Fin 4) (s : State) (st : Step), s.m.maintenanceDue p = true → s.m.ue.steps.get p = some st → ∃ m : Mod, exec (.maintenancePass p) s = .next { s with m := m.resume }
    ∧ m = { s.m with ue := { s.m.ue with steps := m.ue.steps } } ∧ (∀ q, q ≠ p.val → m.ue.steps.get q = s.m.ue.steps.get q)
    ∧ m.ue.steps.get p = some { st with select := (s.m.delayedSlots p).map (s.m.selectSlot (st.outcome == 3)), selected := true, phase := if st.phase = .maintenance then .closing else st.phase })
  ∧ ∀ (p : Fin 4) (s : State) (st : Step) (f : Nat), s.m.fc.num = f → s.m.passTwoDue p = true → s.m.ue.steps.get p = some st → ∃ m : Mod, exec (.passTwo p) s = .next { s with m := m.resume }
    ∧ m = { s.m with ue := { s.m.ue with steps := m.ue.steps }, zl := { s.m.zl with sendq := m.zl.sendq } }
    ∧ m.ue.steps.get p = some { st with phase := .closing, passTwoAt := some f, closes := st.closes ++ [⟨s.m.rank p, st.word, f + 1 + s.m.hops p⟩] }
    ∧ m.zl.sendq = s.m.zl.sendq ++ ((s.m.peers p).filter fun r => decide (r ∈ st.ballots.map (·.rank))).map fun r => ⟨1, 3, s.m.self p, s.m.endpoint p r, st.word, st.num, [], f + 1, 0⟩

/-- A step that may close does: the polder has no step any more and none of the step's buckets, whatever its outcome but a replay, which waits to open again. With close words missing past CLOSE_TIMEOUT the member closes without them, and MEMBER_LOST and the missing ranks say so
(R258, R269). -/
def StepsCloseWithOrWithoutEveryMember : Prop :=
  ∀ (p : Fin 4) (s : State) (st : Step), s.m.ue.steps.get p = some st → s.m.ue.progs.get p ≠ none →
    (s.m.closeDue p = true → (st.outcome ≠ 3 ∨ st.isDiag = true) → ∃ m : Mod, exec (.closingSluice p) s = .next { s with m := m.resume } ∧ m.ue.steps.get p = none ∧ ∀ b ∈ m.bkts p, b.owner ≠ none)
    ∧ (s.m.closeDue p = true → st.outcome = 3 → st.isDiag = false → ∃ (m : Mod) (st' : Step), exec (.closingSluice p) s = .next { s with m := m.resume } ∧ m.ue.steps.get p = some st' ∧ st'.phase = .replayWait
        ∧ st'.num = st.num ∧ st'.seed = st.seed ∧ st'.batch = st.batch ∧ ∀ b ∈ m.bkts p, b.owner ≠ none)
    ∧ (s.m.closeLate p = true → st.outcome = 1 → st.isDiag = false → ∃ m : Mod, exec (.closeTimeout p) s = .next { s with m := m.resume } ∧ m.ue.steps.get p = none ∧ m.bit .UE_STATUS_MEMBER_LOST p = true)

/-- Votes, host verdicts, maintenance, pass two and the close of a step. -/
def Obligations.StepsAreDecidedAndClose : Prop := VotesUniteTheBallotsHeld ∧ HostVerdictsSettleProvisionalOutcomes ∧ MaintenanceAndPassTwoLeadToTheClosing ∧ StepsCloseWithOrWithoutEveryMember

/-- A replay opens the step again in the frame after the sluice, with the same number, batch, seed and attempt count, nothing voted, and every command that the step held to be executed again, which its reply is to show: it waits once more for what its header names (R174). -/
def ReplaysOpenTheSameStepAgain : Prop :=
  ∀ (p : Fin 4) (s : State) (st : Step) (sp : StepProg) (f : Nat), s.m.sluiceB = some f → s.m.ue.steps.get p = some st → st.phase = .replayWait → s.m.ue.progs.get p = some sp →
    ∃ (m : Mod) (st' : Step), exec (.replayOpen p) s = .next { s with m := m.resume } ∧ m.ue.steps.get p = some st' ∧ st'.phase = .executing ∧ st'.opened = f + 1 ∧ st'.num = st.num ∧ st'.seed = st.seed ∧ st'.batch = st.batch
      ∧ st'.attempt = st.attempt ∧ st'.abandoned = false ∧ st'.reasons = 0 ∧ st'.ballots = [] ∧ st'.closes = [] ∧ st'.todo = List.range sp.progs.length
      ∧ (∀ c ∈ s.m.cq.cmds, c.phase = .held → c.pol = p → ∃ y ∈ m.cq.cmds, y = { c with replayed := true, phase := .ready, waits := c.headerWaits, accepted := f, relAt := f, first := 0, fin := 0, caps := [], land := [], sigs := [], told := false })
      ∧ ∀ a ∈ sp.buckets, ∃ b ∈ m.bkts p, b.addr = a ∧ b.state = 1 ∧ b.owner = none

/-- Steps open, or open again, and their ballots carry their reasons. -/
def Obligations.StepsOpenAndVote : Prop := StepsOpenWithTheirNumberAndSeed ∧ BallotsCarryTheStepAndItsReasons ∧ ReplaysOpenTheSameStepAgain

/-! ## Supplies, pins, power and heat (17_clocks_power_thermal.md, 18_pins_and_electrical.md, 13_reliability_and_recovery.md R389 to R391) -/

/-- The rails may rise: auxiliary power is up, PWR_EN is asserted, P48V is in range, no rail fault holds the module, and PWR_GOOD is low (R479, R480). -/
def MayRise (p : Pins) : Prop := p.aux = true ∧ p.pwrEn = true ∧ p.volt = .inRange ∧ p.railFault = false ∧ p.pwrGood = false

/-- AUX_POWER_UP reads the straps and begins the I3C target and the test port anew; PWR_EN and P48V are taken as they change. With all of them as R479 asks, PWR_GOOD rises with every rail; else nothing more happens. The module itself
does not change (R474, R479). -/
def PowerGoodRisesWhenAllIsThere : Prop :=
  ∀ (i : Instr) (s : State) (pins : Pins), ((∃ st, i = .auxPowerUp st ∧ s.pins.aux = false ∧ pins = { s.pins with aux := true, straps := st.toNat })
      ∨ (i = .pwrEnAssert ∧ pins = { s.pins with pwrEn := true }) ∨ (i = .p48vReaching40V ∧ pins = { s.pins with volt := .inRange })) →
    ∃ t, exec i s = .next t ∧ t.m = s.m ∧ (MayRise pins → t.pins = { pins with pwrGood := true, rails := 0x1FF }) ∧ (¬ MayRise pins → t.pins = pins)
      ∧ (if s.pins.aux = false ∧ (∃ st, i = .auxPowerUp st) then t.i3c = ⟨none, false, 32, 32, 0, 0⟩ ∧ t.tap = ⟨1, s.tap.boundary⟩ else t.i3c = s.i3c ∧ t.tap = s.tap)

/-- The rails are gone: device memory, tile memories, descriptors, queues, configuration slots, weirs, links and keys are as after reset, and the module is in reset (R482, R483). -/
def RailsGone (t : Mod) : Prop :=
  t.mem = Mod.reset.mem ∧ t.tile = Mod.reset.tile ∧ t.td = .empty ∧ t.cq.queues = .empty ∧ t.cq.cmds = [] ∧ t.ct = ⟨.empty, [], 0⟩ ∧ t.wr = ⟨[], [], [], .empty⟩ ∧ t.zl = Mod.reset.zl
    ∧ t.ue = Mod.reset.ue ∧ t.sec = Mod.reset.sec ∧ t.pci = Mod.reset.pci ∧ t.stg = [] ∧ t.rel.resets.any (·.kind == 5) = true

/-- PWR_EN falling, P48V lost and a failing rail take PWR_GOOD and every rail away, and what the rails hold; a failing rail shows in the rail word, and with P48V lost or a rail failed the module stays off until PWR_EN is deasserted, and the alert
byte says so. Without PWR_GOOD only the pin changes (R480, R482, R483, R502). -/
def LossOfTheRailsLosesWhatTheyHold : Prop :=
  ∀ (s : State),
    (s.pins.pwrGood = true → (∃ t, exec .pwrEnDeassert s = .next t ∧ RailsGone t.m ∧ t.pins = { s.pins with pwrGood := false, rails := 0, memKept := false, resetDue := false, pwrEn := false, railFault := false })
      ∧ (∃ t, exec .p48vBelow36V s = .next t ∧ RailsGone t.m ∧ t.i3c.alert = s.i3c.alert ||| 0x08
        ∧ t.pins = { s.pins with volt := .absent, pwrGood := false, rails := 0, memKept := false, resetDue := false, railFault := true })
      ∧ ∀ rail : Fin 9, ∃ t, exec (.railFault rail) s = .next t ∧ RailsGone t.m ∧ t.i3c.alert = s.i3c.alert ||| 0x08
        ∧ t.pins = { s.pins with pwrGood := false, rails := 2 ^ rail.val, memKept := false, resetDue := false, railFault := true })
    ∧ (s.pins.pwrGood = false → exec .pwrEnDeassert s = .next { s with pins := { s.pins with pwrEn := false, railFault := false } }
      ∧ exec .p48vBelow36V s = .next { s with pins := { s.pins with volt := .absent } } ∧ ∀ rail, exec (.railFault rail) s = .refused .notEnabled)

/-- With the auxiliary supply lost everything but flash, fuses and pins that others drive is lost: of the registers the ledger alone is as its last copy in flash has it (R483, R390, R503). -/
def AuxLossLeavesTheFlashCopyOfTheLedger : Prop :=
  ∀ (s : State), s.pins.aux = true → ∃ t, exec .auxUndervoltage s = .next t ∧ RailsGone t.m ∧ t.pins.aux = false ∧ t.pins.pwrGood = false ∧ t.pins.rails = 0 ∧ t.pins.pwrEn = s.pins.pwrEn
    ∧ t.pins.volt = s.pins.volt ∧ t.i3c = ⟨none, false, 32, 32, 0, 0⟩ ∧ t.fuse = s.fuse ∧ t.m.rel.flash = s.m.rel.flash ∧ t.m.rel.ledgerPos = s.m.rel.flash.pos ∧ t.m.pwr.readings = .empty ∧ t.m.pwr.capBus = 3200
    ∧ (∀ k < 256, t.m.rd .MC_LEDGER k = s.m.rel.flash.words.getD k 0) ∧ ∀ r k, r ≠ .MC_LEDGER → t.m.rd r k = r.desc.reset

/-- An input voltage out of its range shuts the module down once: THERMTRIP# is low, device memory is kept, MC_TH_STATUS.SHUTDOWN and the alert byte say so, and the module is reset with cause 3: at the next sluice while it runs, else now. PERST# stops the port and
resets the module in the same way, but in a shutdown has no other effect (R466, R481, R483, R502). -/
def ShutdownsAndPerstResetTheModule : Prop :=
  ∀ (s : State),
    let due (t : State) : Prop := (s.m.running = true → t.m.rel.asked = s.m.rel.asked ++ [⟨5, 0, 0, 3, []⟩] ∧ t.m.mem = s.m.mem ∧ t.m.cq = s.m.cq) ∧ (s.m.running = false → t.m.rel.resets.any (·.kind == 5) = true)
    (∀ over_, s.pins.pwrGood = true → ∃ t, exec (.inputVoltageFault over_) s = .next t ∧ t.i3c.alert = s.i3c.alert ||| (if over_ then 0x42 else 0x02) ∧ t.pins.volt = (if over_ then s.pins.volt else .low)
      ∧ (s.pins.shutdown = false → t.pins.shutdown = true ∧ t.pins.thermTrip = true ∧ t.pins.memKept = true ∧ t.m.bit .MC_TH_STATUS_SHUTDOWN 0 = true ∧ due t)
      ∧ (s.pins.shutdown = true → t.pins.thermTrip = s.pins.thermTrip ∧ t.m.rel = s.m.rel ∧ t.m.mem = s.m.mem))
    ∧ ∃ t, exec .perstAssert s = .next t ∧ t.pins.perst = true ∧ t.m.pci.up = false ∧ (s.pins.pwrGood = true → s.pins.shutdown = false → t.pins.memKept = true ∧ due t)
      ∧ ((s.pins.pwrGood = false ∨ s.pins.shutdown = true) → t = { s with pins := { s.pins with perst := true }, m := { s.m with pci := { s.m.pci with up := false } } })

/-- Power comes and goes; shutdowns and PERST# reset the module. -/
def Obligations.PowerComesAndGoes : Prop := PowerGoodRisesWhenAllIsThere ∧ LossOfTheRailsLosesWhatTheyHold ∧ AuxLossLeavesTheFlashCopyOfTheLedger ∧ ShutdownsAndPerstResetTheModule

/-- The ledger is in flash as the controller holds it (R390). -/
def InFlash (m : Mod) : Prop := m.rel.flash.pos = m.rel.ledgerPos ∧ m.rel.flash.alts = m.rel.alts ∧ ∀ k < 256, m.rel.flash.words.getD k 0 = m.rd .MC_LEDGER k

/-- A start that may run, after one that did not fail, reaches READY where no step fails: DONE and the attempt show in MC_START_STATUS and in the ledger, the reset of the module is over, the port is up with every function's configuration at reset, and PERST# is high. It halts at its first
failing step, which both name, and is not READY; one that PERST# cuts off at a step names it with RESULT 1, is neither READY nor halted, and leaves the module in reset. At READY and at a halt the ledger is copied to flash, at a cut-off it is not (R389, R390, R391, R400, R483, R492). -/
def Obligations.StartsReachReadyOrHaltAtTheirStep : Prop :=
  ∀ (r : StartResult) (s : State), s.mayStart = true → s.m.prevFail = 0 → s.pins.shutdown = false → s.m.rel.ledgerPos + 1 < 2 ^ 32 →
    let n := s.m.rel.ledgerPos
    (r.fails = [] → r.cut = none → ∃ t, exec (.moduleStart r) s = .next t ∧ t.m.bit .MC_START_STATUS_DONE 0 = true ∧ t.m.rel.ledgerPos = n + 1 ∧ (t.m.rd .MC_LEDGER (n % 64 * 4)).toNat = n + 1
      ∧ (t.m.rd .MC_LEDGER (n % 64 * 4 + 1)).toNat % 65536 = 8 ∧ t.m.rd .MC_LEDGER (n % 64 * 4 + 3) = r.ms ∧ t.m.pci = { Mod.reset.pci with up := true } ∧ t.pins.perst = false
      ∧ InFlash t.m
      ∧ t.pins.straps = r.straps.toNat ∧ t.i3c.alert = s.i3c.alert ||| 0x20)
    ∧ (∀ k, r.cut = some k → 1 ≤ k.val → k.val ≤ 8 → (∀ j ∈ r.fails, 1 ≤ j.val → k.val ≤ j.val) → ∃ t, exec (.moduleStart r) s = .next t ∧ t.m.bit .MC_START_STATUS_DONE 0 = false
      ∧ t.m.bit .MC_START_STATUS_HALT 0 = false ∧ t.m.fld .MC_START_STATUS_STEP 0 = k.val ∧ t.m.rel.ledgerPos = n + 1 ∧ (t.m.rd .MC_LEDGER (n % 64 * 4 + 1)).toNat % 65536 = k.val + 256 ∧ t.pins.perst = true
      ∧ t.m.pci.up = false ∧ t.m.rel.resets = s.m.rel.resets ∧ t.m.rel.flash = s.m.rel.flash ∧ t.m.mem = s.m.mem ∧ t.i3c = s.i3c)
    ∧ ∀ k ∈ r.fails, 1 ≤ k.val → k.val ≤ 8 → (∀ j ∈ r.fails, 1 ≤ j.val → k.val ≤ j.val) → (∀ j, r.cut = some j → 1 ≤ j.val → k.val < j.val) → ∃ t, exec (.moduleStart r) s = .next t ∧ t.m.bit .MC_START_STATUS_DONE 0 = false
      ∧ t.m.fld .MC_START_STATUS_STEP 0 = k.val ∧ t.m.rel.ledgerPos = n + 1 ∧ (t.m.rd .MC_LEDGER (n % 64 * 4 + 1)).toNat % 65536 = k.val + 512 ∧ InFlash t.m ∧ t.pins.perst = false ∧ t.m.mem = s.m.mem
      ∧ t.i3c.alert = s.i3c.alert ||| 0x10

/-- The readings of the power manager wait for the next sluice: a window's mean, a fast limit, temperatures. A fast limit latches its alert at once, and so does a temperature that crosses its alert threshold, which alerts every polder; one at its shutdown threshold shuts the module down. A refresh shows the power
readings to the nearest 5 W (R423, R461, R462, R464 to R466, R502). -/
def Obligations.PowerAndHeatWaitForTheSluice : Prop :=
  (∀ (mean : Nat) (r : List (BitVec 16 × DWord)) (s : State), s.pins.pwrGood = true → ∃ t, exec (.powerWindow mean r) s = .next t ∧ OnlyModule s t
    ∧ t.m = { s.m with pwr := { s.m.pwr with pendMean := s.m.pwr.pendMean ++ [mean], readings := t.m.pwr.readings } })
  ∧ (∀ (s : State), s.pins.pwrGood = true → ∃ t, exec .fastPowerLimit s = .next t ∧ t.m.pwr = { s.m.pwr with pendFast := true } ∧ t.i3c = { s.i3c with alert := s.i3c.alert ||| 0x04 } ∧ t.pins = s.pins
    ∧ t.m = { s.m with pwr := t.m.pwr, io := t.m.io })
  ∧ (∀ (r : List (BitVec 16 × Int)) (s : State), s.pins.pwrGood = true → (∀ x ∈ r, ∀ y, thresholds x.1.toNat = some y → x.2 < y.2.2) →
    let crossed := ∃ x ∈ r, ∃ y, thresholds x.1.toNat = some y ∧ y.2.1 < x.2 ∧ ∀ v, s.m.temp x.1.toNat = some v → v ≤ y.2.1
    ∃ t, exec (.thermalReading r) s = .next t ∧ t.pins = s.pins ∧ t.m.pwr.pendTherm = s.m.pwr.pendTherm ++ [r.map fun x => (x.1.toNat, x.2)]
      ∧ t.m.pwr = { s.m.pwr with pendTherm := t.m.pwr.pendTherm, readings := t.m.pwr.readings } ∧ t.m.mem = s.m.mem ∧ t.m.cq = s.m.cq
      ∧ ((∀ x ∈ r, ∀ y, thresholds x.1.toNat = some y → x.2 ≤ y.2.1) → t.i3c = s.i3c ∧ t.m.rf.flags = s.m.rf.flags ∧ t.m.io = s.m.io)
      ∧ (∀ x, r = [x] → crossed → t.i3c.alert = s.i3c.alert ||| 0x01
        ∧ t.m.rf.flags = s.m.rf.flags ++ ((List.range s.m.polders).map fun p => ⟨.CQ_ALERT_CAUSE, p, Fld.mask .CQ_ALERT_CAUSE_THERMAL⟩) ++ [⟨.MC_TH_STATUS, 0, Fld.mask .MC_TH_STATUS_ALERT⟩]))
  ∧ (∀ (x : BitVec 16 × Int) (y : Option Int × Int × Int) (s : State), s.pins.pwrGood = true → s.pins.shutdown = false → thresholds x.1.toNat = some y → y.2.2 ≤ x.2 →
    ∃ t, exec (.thermalReading [x]) s = .next t ∧ t.pins.shutdown = true ∧ t.pins.thermTrip = true ∧ t.pins.memKept = true ∧ t.m.bit .MC_TH_STATUS_SHUTDOWN 0 = true)
  ∧ ∀ (s : State), s.m.anyConf = true → ∃ t, exec .coarsePowerRefresh s = .next t ∧ OnlyModule s t ∧ t.m = { s.m with pwr := { s.m.pwr with coarse := t.m.pwr.coarse } }
    ∧ ∀ k v, sensorPower k = true → s.m.pwr.readings.get k = some v → t.m.pwr.coarse.get k = some (if v = 0x8000000000000000#64 then v else BitVec.ofNat 64 ((v.toNat + 2500) / 5000 * 5000))

/-! ## The sluice and the management controller's frames (02_frames_and_commit.md R45, R59 to R61, 10_command_interface.md R306) -/

/-- A module that is aligned and holds FRAME_SYNC_OUT low, or that a rejoin waits with, ends its frame's cycles without taking the sluice: what the frame still owes is done, it lets the net rise and waits for the edge, with the engines it found late; no frame's work runs while it waits.
Without a wait an edge has no effect (R59, R368). -/
def AlignedSluicesWaitForTheEdge : Prop :=
  (∀ (late : List Engine) (s : State), s.m.running = true → s.m.fc.window = none → s.m.fc.waiting = none → s.m.awaitsEdge = true →
    let m := s.m.settle s.fuse
    ∃ t, exec (.sluice late) s = .next t ∧ t = { s with m := { m with fc := { m.fc with waiting := some late, syncLow := false } } } ∧ t.m.inFrame = false)
  ∧ ∀ (s : State), s.m.fc.waiting = none → exec .frameSyncRise s = .next s

/-- A sluice has ended its frame: the next frame's number is one more, unless a rejoin gives the peer's, and no edge is awaited; unless the hub or the module is in reset. -/
def FrameEnded (m t : Mod) : Prop :=
  t.fc.window = none ∧ (t.running = true → t.fc.waiting = none ∧ t.fc.stuck = [] ∧ (∃ b, t.fc.last = some b ∧ t.fc.num = b + 1) ∧ (m.zl.rejoin = none → t.fc.num = m.fc.num + 1 ∧ t.fc.last = some m.fc.num))

/-- A sluice has stopped at an event that is due in its part, for a row to name it; the frame's number stands until the sluice has ended (log entry 5). -/
def AtAnEvent (m t : Mod) : Prop :=
  t.fc.num = m.fc.num ∧ ∃ w, t.fc.window = some w ∧ ((w.part = .commits ∧ t.dueA = true) ∨ (w.part = .events ∧ t.dueB = true) ∨ (w.part = .posted ∧ t.cq.cmds.any t.waitLate = true))

/-- A sluice that is taken, on its own count, on the edge or alone after the timeout, ends the frame, or stops at an event that is due. One that has stopped is completed by the next SLUICE, whatever is due in it. A sluice of a timeout that ends sets LOST (R45, R59, R61, R65, R368). That a sluice stops
at its events is the model's, which gives each its row (log entry 5). -/
def SluicesBeginTheNextFrame : Prop :=
  (∀ (i : Instr) (late : List Engine) (s : State), s.m.running = true → s.m.fc.window = none →
    ((i = .sluice late ∧ s.m.fc.waiting = none ∧ s.m.awaitsEdge = false) ∨ (i = .frameSyncRise ∧ s.m.fc.waiting = some late) ∨ (i = .syncLost ∧ s.m.fc.waiting = some late)) →
    ∃ t, exec i s = .next t ∧ OnlyModule s t ∧ (AtAnEvent s.m t.m ∨ (FrameEnded s.m t.m ∧ (i = .syncLost → t.m.running = true → t.m.bit .FC_SYNC_STATUS_LOST 0 = true))))
  ∧ ∀ (late : List Engine) (s : State), s.m.running = true → s.m.fc.window ≠ none → s.m.fc.waiting = none → ∃ t, exec (.sluice late) s = .next t ∧ OnlyModule s t ∧ FrameEnded s.m t.m

/-- While no sluice is taken, the management controller counts frames of its own: each moves its count on, and the hub's frame does not move (R306). -/
def ManagementFramesCountOnTheirOwn : Prop :=
  ∀ (s : State), s.pins.aux = true → s.m.running = false → ∃ t, exec .managementFrame s = .next t ∧ OnlyModule s t ∧ t.m.fc.mgmt = s.m.fc.mgmt + 1 ∧ (t.m.fc.num = s.m.fc.num ∨ t.m.rel.resets.any (fun r => r.kind == 2 || r.kind == 5) = true)

/-- Sluices end frames, aligned or alone, and the management controller counts its own frames while none is taken. -/
def Obligations.FramesEndAtTheirSluice : Prop := AlignedSluicesWaitForTheEdge ∧ SluicesBeginTheNextFrame ∧ ManagementFramesCountOnTheirOwn

/-! ## The host port's own events (10_command_interface.md R300 to R302, 18_pins_and_electrical.md R496) -/

/-- A vector of a function whose memory space is enabled is unmasked: where MSI-X is enabled in the function and the function is not masked, its pending message is sent, once, and no other (R301, R302). -/
def UnmaskedVectorsSendTheirPendingMessage : Prop :=
  ∀ (f : Fin 8) (v : Fin 2048) (s : State), s.m.pci.up = true → f.val ∈ s.m.pci.memEn → let k := f.val * 2048 + v.val
    let sends := k ∈ s.m.pci.pend ∧ f.val ∈ s.m.pci.msixEn ∧ f.val ∉ s.m.pci.fmask
    ∃ t e, exec (.vectorUnmask f v) s = .next t ∧ OnlyModule s t ∧ t.m = { s.m with pci := { s.m.pci with vecs := t.m.pci.vecs, pend := t.m.pci.pend }, io := { s.m.io with out := t.m.io.out } } ∧ t.m.pci.vecs.get k = some e
      ∧ e = { s.m.pci.vecs.getD k .zero with masked := false } ∧ (k ∈ t.m.pci.pend ↔ k ∈ s.m.pci.pend ∧ ¬ sends) ∧ (∀ j, j ≠ k → (j ∈ t.m.pci.pend ↔ j ∈ s.m.pci.pend) ∧ t.m.pci.vecs.get j = s.m.pci.vecs.get j)
      ∧ t.m.io.out = (if sends then s.m.io.out ++ [.msix f v e.addr e.data] else s.m.io.out)

/-- A Function Level Reset takes the function's vectors, pending messages, held accesses and enables back to reset at once, and a reset of F0 ends its sessions; each of its queues is written RESET, and at the sluice what its queues have in flight is dropped with no reply, and its configuration slots are
abandoned. Other functions' vectors and enables stay (R54, R281, R300, R496). -/
def FunctionLevelResetsClearTheirFunction : Prop :=
  (∀ (f : Fin 8) (s : State), s.m.pci.up = true → ∃ t, exec (.functionLevelReset f) s = .next t ∧ OnlyModule s t ∧ f.val ∈ t.m.pci.flr ∧ t.m.cq = s.m.cq ∧ t.m.ct = s.m.ct
    ∧ f.val ∉ t.m.pci.memEn ∧ f.val ∉ t.m.pci.msixEn ∧ (∀ v < 2048, t.m.pci.vecs.get (f.val * 2048 + v) = none ∧ f.val * 2048 + v ∉ t.m.pci.pend)
    ∧ (∀ g, g ≠ f.val → (g ∈ t.m.pci.memEn ↔ g ∈ s.m.pci.memEn) ∧ ∀ v < 2048, t.m.pci.vecs.get (g * 2048 + v) = s.m.pci.vecs.get (g * 2048 + v))
    ∧ (∀ a ∈ t.m.pci.held, a.fn ≠ f.val) ∧ (∀ q x, (q, x) ∈ s.m.cq.queues.cells → s.m.queueOwner q = some f.val → ⟨f.val, .CQ_CMD, q, 4#32⟩ ∈ t.m.rf.stage)
    ∧ (f = 0 → ∀ x ∈ t.m.sec.sessions, x.fn ≠ 0))
  ∧ (∀ (m : Mod) (f fn : Nat), ∀ c ∈ (m.flrQueues f fn).cq.cmds, c.mgmt = false → m.queueOwner c.qn ≠ some fn)
  ∧ ∀ (m : Mod) (fn k : Nat) (c : CtSlot), fn ∈ m.pci.flr → (m.abandonSlots).ct.slots.get k = some c → k / 16 = fn → c.st = .free

/-- Unmasked vectors send what is pending, and a function level reset clears its function. -/
def Obligations.PortEventsOfAFunction : Prop := UnmaskedVectorsSendTheirPendingMessage ∧ FunctionLevelResetsClearTheirFunction

/-! ## The management bus and the test access port (18_pins_and_electrical.md R498 to R505, 14_self_test.md R412, R413) -/

/-- The private commands with the argument bytes that each has, the state that it leaves and what it answers after its status of 0 (R500). -/
def privateRows (s : State) (args : List Byte) : List (Instr × Nat × State × List Byte) :=
  [(.readSensor args, 2, s, leBytes (s.busSensor (leNat args)).toNat 8),
   (.readStatus args, 0, s, leBytes (s.m.rd .MC_START_STATUS 0).toNat 4 ++ leBytes (s.m.rd .MC_TH_STATUS 0).toNat 4 ++ leBytes s.m.pwrStatus.toNat 4
      ++ leBytes (s.m.rd .MC_RESET_STATUS 0).toNat 4 ++ leBytes s.pins.railWord 4),
   (.setCap args, 2, { s with m := { s.m with pwr := { s.m.pwr with askBus := some (clampCap (leNat args)) } } }, []),
   (.readCap args, 0, s, leBytes (s.m.pwr.askBus.getD s.m.pwr.capBus) 2 ++ leBytes s.m.pwr.cap 2),
   (.readId args, 0, s, leBytes (s.m.rd .HC_ID 0).toNat 4 ++ leBytes (s.m.rd .HC_CONTRACT 0).toNat 4 ++ leBytes s.fuse.serial.toNat 16),
   (.alertRead args, 0, s, [BitVec.ofNat 8 s.i3c.alert]),
   (.alertClear args, 1, { s with i3c := { s.i3c with alert := s.i3c.alert &&& (255 - leNat args) } }, []),
   (.alertMask args, 1, { s with i3c := { s.i3c with mask := leNat args } }, [])]

/-- A response on the bus, cut at the maximum read length, and nothing else. -/
def RespondsOn (s t : State) (data : List Byte) : Prop :=
  t = { s with m := { s.m with io := { s.m.io with out := s.m.io.out ++ [.i3c (data.take s.i3c.mrl)] } } }

/-- A private command reaches a target that has auxiliary power and a dynamic address. One with the wrong number of argument bytes answers LENGTH and has no effect; else
it answers a status of 0 and what it reads, and SET_CAP, ALERT_CLEAR and ALERT_MASK write what they name. READ_LEDGER answers RANGE above entry 63 (R499 to R503). -/
def Obligations.PrivateCommandsAnswerWithTheirStatus : Prop :=
  ∀ (args : List Byte) (s : State),
    ((s.pins.aux = false ∨ s.i3c.addr = none) → exec (.readLedger args) s = .next s ∧ ∀ r ∈ privateRows s args, exec r.1 s = .next s)
    ∧ (s.pins.aux = true → s.i3c.addr.isSome = true →
      (∀ r ∈ privateRows s args, ∃ t, exec r.1 s = .next t ∧
        (if args.length = r.2.1 then RespondsOn r.2.2.1 t (0 :: r.2.2.2) else RespondsOn s t [2]))
      ∧ (args.length ≠ 1 → ∃ t, exec (.readLedger args) s = .next t ∧ RespondsOn s t [2])
      ∧ ∀ e : Byte, args = [e] → ∃ t, exec (.readLedger args) s = .next t ∧
        RespondsOn s t (if 63 < e.toNat then [3] else 0 :: [0, 1, 2, 3].flatMap fun w => leBytes (s.m.rd .MC_LEDGER (e.toNat * 4 + w)).toNat 4))

/-- The common command codes that write the target: each with whether it reaches the target and what the target then holds (R498, R499, R502). -/
def codeRows (c : I3c) (slot : Nat) (dst : Option (BitVec 7)) (old new : BitVec 7) (bits : Byte) (len : BitVec 16) : List (Instr × Prop × I3c) :=
  let heard : Prop := ∀ a, dst = some a → c.addr = some a.toNat
  [(.setdasa old new, c.addr = none ∧ slot ≤ 8 ∧ old.toNat = 0x30 + slot, { c with addr := some new.toNat }),
   (.rstdaa, True, { c with addr := none }),
   (.setnewda old new, c.addr = some old.toNat, { c with addr := some new.toNat }),
   (.enec dst bits, heard ∧ bits.toNat % 2 = 1, { c with ibi := true }),
   (.disec dst bits, heard ∧ bits.toNat % 2 = 1, { c with ibi := false }),
   (.setmrl dst len, heard, { c with mrl := min 32 len.toNat }),
   (.setmwl dst len, heard, { c with mwl := min 32 len.toNat }),
   (.rstact dst bits, heard ∧ bits = 1, { c with addr := none, ibi := false, mwl := 32, mrl := 32 })]

/-- The codes that read the target, with what they answer, most significant byte first; the identity's open fields, the status and the speed are the model's coding (R498; log entry 48). -/
def codeReads (s : State) (a : BitVec 7) : List (Instr × List Byte) :=
  [(.getpid a, s.pid), (.getbcr a, [i3cBcr]), (.getdcr a, [i3cDcr]), (.getstatus a, [0, 0]), (.getmrl a, (leBytes s.i3c.mrl 2).reverse ++ [1]),
   (.getmwl a, (leBytes s.i3c.mwl 2).reverse), (.getmxds a, [0, 0])]

/-- A common command code that reaches a target with auxiliary power writes what it names or answers; one that does not leaves everything as it is. ENTDAA gives an address to
a target that has none, which answers with its identity and characteristics (R498, R499, R502; log entry 48). -/
def Obligations.CommonCommandCodesAct : Prop :=
  ∀ (dst : Option (BitVec 7)) (old new : BitVec 7) (bits : Byte) (len : BitVec 16) (s : State),
    (∀ r ∈ codeRows s.i3c s.pins.straps dst old new bits len,
      (s.pins.aux = true → r.2.1 → exec r.1 s = .next { s with i3c := r.2.2 }) ∧ (s.pins.aux = false ∨ ¬ r.2.1 → exec r.1 s = .next s))
    ∧ (∀ r ∈ codeReads s old,
      (s.pins.aux = true → s.i3c.addr = some old.toNat → exec r.1 s = .next { s with m := { s.m with io := { s.m.io with out := s.m.io.out ++ [.i3c r.2] } } })
      ∧ (s.pins.aux = false ∨ s.i3c.addr ≠ some old.toNat → exec r.1 s = .next s))
    ∧ (s.pins.aux = true → s.i3c.addr = none → exec (.entdaa new) s = .next { s with
        i3c := { s.i3c with addr := some new.toNat }, m := { s.m with io := { s.m.io with out := s.m.io.out ++ [.i3c (s.pid ++ [i3cBcr, i3cDcr])] } } })
    ∧ (s.pins.aux = false ∨ s.i3c.addr ≠ none → exec (.entdaa new) s = .next s)

/-- The instructions of the test port with the code that each loads: those that act on the pins load BYPASS unless PERST# is asserted (R504, R505). -/
def tapRows (perst : Bool) : List (Instr × Nat) :=
  let pin (n : Nat) : Nat := if perst then n else 0xFF
  [(.extest, pin 3), (.clamp, pin 4), (.highz, pin 5), (.ijtag, 0x10), (.bypass, 0xFF)]

/-- With auxiliary power an instruction of the test port is loaded while 0b00000001 is shifted out; IDCODE and a TAP reset select IDCODE, and SAMPLE/PRELOAD shifts out the pins' levels as it takes in the boundary register. Without auxiliary power nothing
happens. What the module drives at an output pin under CLAMP and EXTEST is the boundary register's data, and nothing under HIGHZ; an open-drain output is never driven high (R504, R505). -/
def Obligations.TapInstructionsAreLoaded : Prop :=
  (∀ s : State, s.pins.aux = true →
    (∀ r ∈ tapRows s.pins.perst, ∃ t, exec r.1 s = .next t ∧ t.m.io.out = s.m.io.out ++ [.tdo 1 8] ∧ t = { s with tap := { s.tap with ir := r.2 }, m := { s.m with io := t.m.io } })
    ∧ (∃ t, exec .idcode s = .next t ∧ (∃ w, t.m.io.out = s.m.io.out ++ [.tdo 1 8, .tdo w 32] ∧ w % 2 = 1 ∧ w / 2 ^ 12 = 0x14801) ∧ t = { s with tap := { s.tap with ir := 1 }, m := { s.m with io := t.m.io } })
    ∧ exec .tapReset s = .next { s with tap := { s.tap with ir := 1 } }
    ∧ ∀ load, ∃ t w, exec (.samplePreload load) s = .next t ∧ t.m.io.out = s.m.io.out ++ [.tdo 1 8, .tdo w 39] ∧ t = { s with tap := ⟨2, load⟩, m := { s.m with io := t.m.io } }
      ∧ w < 2 ^ 39 ∧ ∀ i v, i < 13 → s.level i = some v → w.testBit (3 * i) = v)
  ∧ (∀ s : State, s.pins.aux = false → (∀ i ∈ [Instr.extest, .clamp, .highz, .ijtag, .bypass, .idcode, .tapReset], exec i s = .next s) ∧ ∀ load, exec (.samplePreload load) s = .next s)
  ∧ (∀ (s : State) (i : Nat), s.pins.aux = true → s.pins.perst = true → pinOutput i = true →
    (s.tap.ir = 5 → s.drives i = none)
    ∧ ((s.tap.ir = 3 ∨ s.tap.ir = 4) → s.tap.boundary.getLsbD (3 * i + 2) = true → pinOpenDrain i = false → s.drives i = some (s.tap.boundary.getLsbD (3 * i + 1))))
  ∧ ∀ (s : State) (i : Nat), pinOpenDrain i = true → s.drives i ≠ some true

/-- An instrument answers nothing unless IJTAG is selected, and zeros where its die's clock or the rails are down. BC_RESULT and PPR_STATUS answer at any time; MISR_READ and a scan request set JTAG_OPEN and answer zeros while any polder is confidential. A scan request
withdraws every key, ends the sessions and sets SCAN_USED, and ends the module's operation, unless the fuse is blown (R412, R413, R505; log entry 49). -/
def Obligations.InstrumentsAnswerAsTheyAreLocked : Prop :=
  (∀ (d : Fin 4) (s : State),
    let rows : List (Instr × Nat × Bool) := [(.bcResult d, 1920, false), (.pprStatus d, 32, false), (.misrRead d, 1664, true)]
    ∀ r ∈ rows,
      ((s.pins.aux = false ∨ s.tap.ir ≠ 0x10) → exec r.1 s = .next s)
      ∧ (s.pins.aux = true → s.tap.ir = 0x10 → ∃ t w, exec r.1 s = .next t ∧ OnlyModule s t ∧ t.m.io.out = s.m.io.out ++ [.tdo w r.2.1] ∧ w < 2 ^ r.2.1
        ∧ t.m = { s.m with io := t.m.io, rf := t.m.rf }
        ∧ ((s.pins.pwrGood = false ∨ s.m.dieDown d = true) → w = 0 ∧ t.m.rf = s.m.rf)
        ∧ (s.pins.pwrGood = true → s.m.dieDown d = false →
          (r.2.2 = false → t.m.rf = s.m.rf) ∧ (r.2.2 = true → t.m.bit .SP_DEBUG_JTAG_OPEN 0 = true ∧ (s.m.anyConf = true → w = 0)) ∧ (r.1 = .bcResult d → ∀ i < 60, (BitVec.ofNat 32 (w / 2 ^ (32 * i))) = (s.m.selfTestWords d).getD i 0))))
  ∧ (∀ s : State, (s.pins.aux = false ∨ s.tap.ir ≠ 0x10) → exec .scanEn s = .next s)
  ∧ (∀ s : State, s.pins.aux = true → s.tap.ir = 0x10 → ∃ t, exec .scanEn s = .next t ∧ OnlyModule s t ∧
    (s.pins.pwrGood = false → t.m = { s.m with io := t.m.io })
    ∧ (s.pins.pwrGood = true → (s.m.anyConf = true ∨ s.fuse.scanBlown = true) → t.m = { s.m with io := t.m.io, rf := t.m.rf } ∧ t.m.bit .SP_DEBUG_JTAG_OPEN 0 = true)
    ∧ (s.pins.pwrGood = true → s.m.anyConf = false → s.fuse.scanBlown = false →
      t.m.sec.scan = true ∧ t.m.pci.up = false ∧ t.m.sec.sessions = [] ∧ t.m.sec.ide = [] ∧ t.m.sec.stage = [] ∧ (∀ c ∈ t.m.sec.keys.cells, 64 ≤ c.1) ∧ t.m.bit .SP_DEBUG_SCAN_USED 0 = true))

/-! ## Security (15_security_and_polders.md R419 to R431) -/

/-- What SPDM's own standard lets a responder answer to a request of a code: the bytes are open (R424; log entry 9). -/
def AnswersTo (s t : State) (f : Fin 8) (code : Nat) (msg : List Byte) (sec : Sec) : Prop :=
  t.m.io.out = s.m.io.out ++ [.spdm f (Config.spdmResponse code msg s.m.io.free)] ∧ t = { s with m := { s.m with sec := sec, io := t.m.io } }

/-- The requests of a function's mailbox answer while the port is up. GET_VERSION begins the connection again and NEGOTIATE_ALGORITHMS makes it; without one, digests, certificates and a challenge are answered by an error, and so is a key exchange, which else begins a session under
the lowest number that the function does not use, of four. FINISH establishes it where the message verifies and drops it where not; a request in a session that is not established is answered by an error, KEY_UPDATE puts the session's next keys in force, and END_SESSION ends its own and no other (R424; log entries 9 and 50). -/
def ResponderRequestsAnswer : Prop :=
  ∀ (f : Fin 8) (n : Fin 4) (msg : List Byte) (s : State), s.m.pci.up = true →
    (∃ t, exec (.getVersion f msg) s = .next t ∧ AnswersTo s t f 0x84 msg { s.m.sec with negotiated := s.m.sec.negotiated.filter (· != f.val) })
    ∧ (∃ t, exec (.getCapabilities f msg) s = .next t ∧ AnswersTo s t f 0xE1 msg s.m.sec)
    ∧ (∃ t, exec (.negotiateAlgorithms f msg) s = .next t ∧ AnswersTo s t f 0xE3 msg { s.m.sec with negotiated := addOnce s.m.sec.negotiated f.val })
    ∧ (∀ r ∈ [(Instr.getDigests f msg, 0x81), (Instr.getCertificate f msg, 0x82), (Instr.challenge f msg, 0x83)],
      ∃ t, exec r.1 s = .next t ∧ AnswersTo s t f (if f.val ∈ s.m.sec.negotiated then r.2 else 0x7F) msg s.m.sec)
    ∧ (∃ t, exec (.keyExchange f msg) s = .next t ∧
      ((f.val ∉ s.m.sec.negotiated ∨ ∀ k < 4, (s.m.session f k).isSome = true) → AnswersTo s t f 0x7F msg s.m.sec)
      ∧ ∀ k < 4, f.val ∈ s.m.sec.negotiated → s.m.session f k = none → (∀ j < k, (s.m.session f j).isSome = true) →
        AnswersTo s t f 0x64 msg { s.m.sec with sessions := s.m.sec.sessions ++ [⟨f, k, false, false, 0⟩] })
    ∧ (∃ t, exec (.finish f n msg) s = .next t ∧
      (s.m.session f n = none → AnswersTo s t f 0x7F msg s.m.sec)
      ∧ ∀ x, s.m.session f n = some x →
        (x.established = true → AnswersTo s t f 0x7F msg s.m.sec)
        ∧ (x.established = false → Config.spdmVerifies 0xE5 msg s.m.io.free = true → AnswersTo s t f 0x65 msg t.m.sec ∧ t.m.inSession f n = true)
        ∧ (x.established = false → Config.spdmVerifies 0xE5 msg s.m.io.free = false → AnswersTo s t f 0x7F msg t.m.sec ∧ t.m.session f n = none))
    ∧ (∃ t, exec (.heartbeat f n msg) s = .next t ∧ AnswersTo s t f (if s.m.inSession f n = true then 0x68 else 0x7F) msg s.m.sec)
    ∧ (∃ t, exec (.keyUpdate f n msg) s = .next t ∧ (s.m.inSession f n = false → AnswersTo s t f 0x7F msg s.m.sec)
      ∧ (s.m.inSession f n = true → AnswersTo s t f 0x69 msg { s.m.sec with sessions := s.m.sec.sessions.map fun x => if x.fn = f.val ∧ x.num = n.val then { x with keys := x.keys + 1 } else x }))
    ∧ ∃ t, exec (.endSession f n msg) s = .next t ∧ (s.m.inSession f n = false → AnswersTo s t f 0x7F msg s.m.sec)
      ∧ (s.m.inSession f n = true → AnswersTo s t f 0x6C msg t.m.sec ∧ t.m.session f n = none ∧ ∀ g k, (g ≠ f.val ∨ k ≠ n.val) → t.m.session g k = s.m.session g k)

/-- GET_MEASUREMENTS answers indexes 1 to 4 with the digests of the firmware and 0xF0 with the report's body, in an established session or outside any on a negotiated connection; anything else is an error. The report read in a session marks that session measured, and no other
(R424 to R426; log entry 9). -/
def MeasurementsAnswerAndMarkTheSession : Prop :=
  ∀ (f : Fin 8) (n : Option (Fin 4)) (index : Byte) (nonce : List Byte) (s : State), s.m.pci.up = true →
    let open_ := match n with
      | some k => s.m.inSession f k = true
      | none => f.val ∈ s.m.sec.negotiated
    ∃ t, exec (.getMeasurements f n index nonce) s = .next t ∧ OnlyModule s t ∧ t.m = { s.m with sec := t.m.sec, io := t.m.io } ∧ t.m.sec = { s.m.sec with sessions := t.m.sec.sessions }
      ∧ ((¬ open_ ∨ (index.toNat ∉ [1, 2, 3, 4, 0xF0])) → AnswersTo s t f 0x7F nonce s.m.sec)
      ∧ (open_ → ∀ body, ((1 ≤ index.toNat ∧ index.toNat ≤ 4 ∧ body = digestBytes (Config.firmware index.toNat)) ∨ (index = 0xF0 ∧ body = s.m.reportBody s.fuse nonce s.m.fc.num)) →
        t.m.io.out = s.m.io.out ++ [.spdm f (body ++ Config.spdmResponse 0x60 body s.m.io.free)]
        ∧ t.m.sec.sessions = s.m.sec.sessions.map fun x => if index = 0xF0 ∧ x.fn = f.val ∧ n.map (·.val) = some x.num then { x with measured := true } else x)

/-- SPDM requests of a mailbox, and measurements. -/
def Obligations.ResponderRequestsAndMeasurements : Prop := ResponderRequestsAnswer ∧ MeasurementsAnswerAndMarkTheSession

/-- A vendor-defined request in a session that is not established is answered by an error; a malformed one has result 6. RELEASE is accepted where the function owns the polder, the session read the report, the polder is confidential and stays so, no scan was made and the digest
is the report's, and the first condition that fails gives its result; it then stages the key for the sluice, as REVOKE stages an empty slot. QUERY changes nothing (R426, R427; log entries 50 and 51). -/
def KeyRequestsStageKeysOrSayWhyNot : Prop :=
  ∀ (f : Fin 8) (n : Fin 4) (body : List Byte) (s : State), s.m.pci.up = true →
    ∀ r ∈ [(Instr.release f n body, 1), (Instr.revoke f n body, 2), (Instr.query f n body, 3)],
    ∃ t, exec r.1 s = .next t ∧ OnlyModule s t ∧ t.m = { s.m with sec := { s.m.sec with stage := t.m.sec.stage }, io := t.m.io } ∧
      (s.m.inSession f n = false → AnswersTo s t f 0x7F body s.m.sec)
      ∧ (s.m.inSession f n = true → keyRequest r.2 body = none → t.m.io.out = s.m.io.out ++ [.spdm f [6, 0, 0, 0]] ∧ t.m.sec.stage = s.m.sec.stage)
      ∧ ∀ p k id key digest, s.m.inSession f n = true → keyRequest r.2 body = some (p, k, id, key, digest) →
        let owns := s.m.polderOf f = p
        let read := (s.m.session f n).any (·.measured) = true
        let sealed := s.m.conf p = true ∧ s.m.bit .SP_CONF_OFF_PENDING p = false
        let scanned := s.m.bit .SP_DEBUG_SCAN_USED 0 = true
        let same := digest = digestBytes (s.m.reportDigest s.fuse)
        ∃ b mask, t.m.io.out = s.m.io.out ++ [.spdm f (BitVec.ofNat 8 b :: leBytes mask 3)] ∧ mask = (if p < 4 then s.m.heldKeys p else 0)
          ∧ (b = 0 ↔ owns ∧ (r.2 = 1 → read ∧ sealed ∧ ¬ scanned ∧ same)) ∧ (¬ owns → b = 1)
          ∧ (r.2 = 1 → owns → (¬ read → b = 2) ∧ (read → ¬ sealed → b = 3) ∧ (read → sealed → scanned → b = 5) ∧ (read → sealed → ¬ scanned → ¬ same → b = 4))
          ∧ t.m.sec.stage = s.m.sec.stage ++ (if b = 0 ∧ r.2 = 1 then [(p * 16 + k, some ⟨id, key⟩)] else if b = 0 ∧ r.2 = 2 then [(p * 16 + k, none)] else [])

/-- K_SET_GO and K_SET_STOP in an established session of F0 start and stop one stream's protection of the host path; in any other session or function they are answered by an error (R431). -/
def StreamKeysStartAndStop : Prop :=
  ∀ (f : Fin 8) (n : Fin 4) (k : Fin 9) (s : State), s.m.pci.up = true →
    ∀ r ∈ [(Instr.kSetGo f n k, 0x7E, true), (Instr.kSetStop f n k, 0x7E, false)],
    ∃ t, exec r.1 s = .next t ∧ OnlyModule s t ∧ t.m = { s.m with sec := { s.m.sec with ide := t.m.sec.ide }, io := t.m.io }
      ∧ (f = 0 ∧ s.m.inSession 0 n = true → t.m.io.out = s.m.io.out ++ [.spdm f (Config.spdmResponse r.2.1 [BitVec.ofNat 8 k.val] s.m.io.free)] ∧ (k.val ∈ t.m.sec.ide ↔ r.2.2 = true) ∧ ∀ j, j ≠ k.val → (j ∈ t.m.sec.ide ↔ j ∈ s.m.sec.ide))
      ∧ (¬ (f = 0 ∧ s.m.inSession 0 n = true) → AnswersTo s t f 0x7F [BitVec.ofNat 8 k.val] s.m.sec)

/-- Weight keys and stream keys, requested in sessions. -/
def Obligations.KeysAreRequestedInSessions : Prop := KeyRequestsStageKeysOrSayWhyNot ∧ StreamKeysStartAndStop

/-! ## Rules of the whole block -/

/-- All signals staged in a frame, and those of the commands that complete in it, are summed and added to their weir's count at the sluice, after the clears; their order does not affect the counts, and a sum above 2^32 - 1 saturates and sets OVF (R55). A count that waiters are released
by is R56's, so the sum is read at a weir on which nothing waits. -/
def Obligations.WeirSignalsAreSummedAndSaturate : Prop :=
  ∀ (s : Mod) (f n : Nat),
    let c := s.wr.clears.foldl (Mod.clearWeir f) s
    let sigs := c.wr.sigs ++ (c.cq.cmds.filter fun x => x.done f && !x.told).flatMap c.signalsOf
    let sum := (c.rd .WEIR_COUNT n).toNat + ((sigs.filter fun g => g.weir == n).map (·.add)).sum
    (n ∉ c.waitedWeirs → ((s.weirStep f).rd .WEIR_COUNT n).toNat = min sum 0xFFFFFFFF
      ∧ ((s.weirStep f).bit .WEIR_CTRL_OVF n = true ↔ 0xFFFFFFFF < sum ∨ c.bit .WEIR_CTRL_OVF n = true))
    ∧ ∀ order : List Sig, order.Perm sigs →
      ((order.foldl (Mod.addSignal f) c).rd .WEIR_COUNT n).toNat = min sum 0xFFFFFFFF
      ∧ ((order.foldl (Mod.addSignal f) c).bit .WEIR_CTRL_OVF n = true ↔ 0xFFFFFFFF < sum ∨ c.bit .WEIR_CTRL_OVF n = true)

/-- A frame has a length of R37, and so has a change that is on its way. -/
def FrameLenLegal (c : Frames) : Prop := (10 ≤ c.log2 ∧ c.log2 ≤ 16) ∧ ∀ x, c.change = some x → 10 ≤ x.2 ∧ x.2 ≤ 16

/-- The frame length is 2^k array cycles with k from 10 to 16: 12 after a hub reset, and every step keeps it among the seven, whatever is requested. A transaction that asks for another length, or for a length of zero, is rejected at the sluice with FRAME_LEN_INVALID, and neither the active length nor a change on its way is touched (R37). -/
def Obligations.FrameLengthIsOneOfSeven : Prop :=
  (FrameLenLegal State.reset.m.fc ∧ State.reset.m.fc.log2 = 12 ∧ ∀ (s : Mod) (f : Nat), (s.dropHub f).log2 = 12)
  ∧ (∀ s t : State, FrameLenLegal s.m.fc → step s = .next t → FrameLenLegal t.m.fc)
  ∧ (∀ s : Mod, FrameLenLegal s.fc → s.log2 ∈ [10, 11, 12, 13, 14, 15, 16] ∧ s.budget + 128 = 2 ^ s.log2)
  ∧ ∀ (s : Mod) (taken : List (RegName × Nat)) (f k : Nat) (c : CtSlot) (w : TxWr), c.failed = false → c.writes = [w] ∨ (∃ x y, c.writes = [w, x, y] ∧ x.reg = .FC_FRAME_LEN_AT_LO ∧ y.reg = .FC_FRAME_LEN_AT_HI
      ∧ x.refused = false ∧ y.refused = false) → w.reg = .FC_FRAME_LEN → w.idx = 0 → w.refused = false → bits w.val.toNat 20 16 ∉ [10, 11, 12, 13, 14, 15, 16] →
    let r := Mod.resolveTx f (s, taken) (k, c)
    r.1.ctSlot (k / 16) (k % 16) = ⟨.free, [], false, 0x25⟩ ∧ r.1.fc = s.fc ∧ r.2 = taken

/-- The target takes a dynamic address by ENTDAA, or by SETDASA from its static address 0x30 + slot in slots 0 to 8; it answers while auxiliary power is there, and keeps its address through everything but the bus's own codes and the loss of auxiliary power: resets, PERST#, a shutdown, and the loss of
PWR_GOOD and P48V (R499). -/
def Obligations.BusTargetStaysWhileAuxiliaryPowerDoes : Prop :=
  (∀ (a old : BitVec 7) (s : State), s.pins.aux = true → s.i3c.addr = none →
    (∃ t, exec (.entdaa a) s = .next t ∧ t.i3c.addr = some a.toNat)
    ∧ ∃ t, exec (.setdasa old a) s = .next t ∧ t.i3c.addr = if s.pins.straps ≤ 8 ∧ old.toNat = 0x30 + s.pins.straps then some a.toNat else none)
  ∧ (∀ (s : State), s.pins.aux = true → s.i3c.addr ≠ none → 2 ≤ s.i3c.mrl → ∃ t, exec (.alertRead []) s = .next t ∧ t.m.io.out = s.m.io.out ++ [.i3c [0, BitVec.ofNat 8 s.i3c.alert]])
  ∧ ∀ (i : Instr) (s t : State), exec i s = .next t → s.pins.aux = true → i ≠ .auxUndervoltage →
    t.pins.aux = true ∧ ((∀ a b, i ≠ .setdasa a b ∧ i ≠ .setnewda a b) → (∀ a, i ≠ .entdaa a) → (∀ d k, i ≠ .rstact d k) → i ≠ .rstdaa → t.i3c.addr = s.i3c.addr)

/-- THERMTRIP# is driven low when a shutdown starts, by nothing else, and is held low until a start passes step HUB, the fourth, or auxiliary power is lost (R491). -/
def Obligations.ThermtripIsHeldThroughStepHub : Prop :=
  (∀ s : State, s.level 8 = some (!s.pins.thermTrip))
  ∧ (∀ (i : Instr) (s t : State), exec i s = .next t →
    (s.pins.shutdown = false → t.pins.shutdown = true → t.pins.thermTrip = true)
    ∧ (s.pins.thermTrip = false → t.pins.thermTrip = true → s.pins.shutdown = false ∧ t.pins.shutdown = true)
    ∧ (s.pins.thermTrip = true → t.pins.thermTrip = true ∨ i = .auxUndervoltage ∨ ∃ r, i = .moduleStart r ∧ 4 < (s.startRun r).step))
  ∧ (∀ (s : State), s.pins.aux = true → ∃ t, exec .auxUndervoltage s = .next t ∧ t.pins.thermTrip = false)
  ∧ ∀ (r : StartResult) (s : State), s.mayStart = true → 4 < (s.startRun r).step → ∃ t, exec (.moduleStart r) s = .next t ∧ t.pins.thermTrip = false
end

