-- ==== Sys2Proof/Laws/Table.lean ====
section
/-! SUPPORT. Laws of sparse tables and of memory lists: reads after writes, and that every operation keeps the canonical form. -/

namespace Sys2Proof.Machine

section Keys
variable {α : Type}

/-- Every key of a list is above a bound. -/
def keysAbove (k : Nat) (l : List (Nat × α)) : Prop := ∀ c ∈ l, k < c.1

theorem keysRise_cons (c : Nat × α) (l : List (Nat × α)) : keysRise (c :: l) = true ↔ keysAbove c.1 l ∧ keysRise l = true := by
  induction l generalizing c with
  | nil => simp [keysRise, keysAbove]
  | cons d l ih =>
    simp only [keysRise, Bool.and_eq_true, decide_eq_true_eq, ih d]
    constructor
    · rintro ⟨h, ha, hr⟩
      refine ⟨?_, ha, hr⟩
      intro x hx
      rcases List.mem_cons.1 hx with rfl | hx
      · exact h
      · exact Nat.lt_trans h (ha x hx)
    · rintro ⟨ha, hr⟩
      exact ⟨ha d (by simp), hr⟩

theorem keysAbove_insertKey {k b : Nat} {v : α} {l : List (Nat × α)} (hb : b < k) (h : keysAbove b l) : keysAbove b (insertKey k v l) := by
  induction l with
  | nil => simpa [insertKey, keysAbove] using hb
  | cons d l ih =>
    have hd : b < d.1 := h d (by simp)
    have hl : keysAbove b l := fun x hx => h x (by simp [hx])
    simp only [insertKey]
    split
    · intro x hx
      rcases List.mem_cons.1 hx with rfl | hx
      · exact hb
      · exact h x hx
    · split
      · intro x hx
        rcases List.mem_cons.1 hx with rfl | hx
        · exact hb
        · exact hl x hx
      · intro x hx
        rcases List.mem_cons.1 hx with rfl | hx
        · exact hd
        · exact ih hl x hx

/-- Setting a key keeps keys strictly rising. -/
theorem keysRise_insertKey {k : Nat} {v : α} {l : List (Nat × α)} (h : keysRise l = true) : keysRise (insertKey k v l) = true := by
  induction l with
  | nil => simp [insertKey, keysRise]
  | cons d l ih =>
    obtain ⟨ha, hr⟩ := (keysRise_cons d l).1 h
    simp only [insertKey]
    split
    · exact (keysRise_cons _ _).2 ⟨fun x hx => by
        rcases List.mem_cons.1 hx with rfl | hx
        · assumption
        · exact Nat.lt_trans (by assumption) (ha x hx), h⟩
    · split
      · next hk => exact (keysRise_cons _ _).2 ⟨by simpa [hk] using ha, hr⟩
      · exact (keysRise_cons _ _).2 ⟨keysAbove_insertKey (by omega) ha, ih hr⟩

/-- Keeping the entries that pass a test keeps keys strictly rising. -/
theorem keysRise_filter {p : Nat × α → Bool} {l : List (Nat × α)} (h : keysRise l = true) : keysRise (l.filter p) = true := by
  induction l with
  | nil => simp [keysRise]
  | cons d l ih =>
    obtain ⟨ha, hr⟩ := (keysRise_cons d l).1 h
    simp only [List.filter_cons]
    split
    · exact (keysRise_cons _ _).2 ⟨fun x hx => ha x (List.mem_filter.1 hx).1, ih hr⟩
    · exact ih hr

/-- Removing a key keeps keys strictly rising. -/
theorem keysRise_removeKey {k : Nat} {l : List (Nat × α)} (h : keysRise l = true) : keysRise (removeKey k l) = true := keysRise_filter h

theorem mem_of_mem_removeKey {k : Nat} {l : List (Nat × α)} {c : Nat × α} (h : c ∈ removeKey k l) : c ∈ l := (List.mem_filter.1 h).1

@[simp] theorem lookupKey_insertKey_same (k : Nat) (v : α) (l : List (Nat × α)) : lookupKey k (insertKey k v l) = some v := by
  induction l with
  | nil => simp [insertKey, lookupKey]
  | cons d l ih =>
    simp only [insertKey]
    split
    · simp [lookupKey]
    · split
      · simp [lookupKey]
      · next h1 h2 => simp [lookupKey, Ne.symm h2, ih]

theorem lookupKey_insertKey_ne {k j : Nat} (v : α) (l : List (Nat × α)) (h : j ≠ k) : lookupKey j (insertKey k v l) = lookupKey j l := by
  induction l with
  | nil => simp [insertKey, lookupKey, Ne.symm h]
  | cons d l ih =>
    simp only [insertKey]
    split
    · simp [lookupKey, Ne.symm h]
    · split
      · next hk => simp [lookupKey, Ne.symm h, hk ▸ Ne.symm h]
      · simp only [lookupKey, ih]

theorem lookupKey_removeKey_same (k : Nat) (l : List (Nat × α)) : lookupKey k (removeKey k l) = none := by
  induction l with
  | nil => rfl
  | cons d l ih =>
    by_cases hk : d.1 = k
    · simpa [removeKey, hk] using ih
    · simpa [removeKey, hk, lookupKey] using ih

theorem lookupKey_removeKey_ne {k j : Nat} {l : List (Nat × α)} (h : j ≠ k) : lookupKey j (removeKey k l) = lookupKey j l := by
  induction l with
  | nil => rfl
  | cons d l ih =>
    by_cases hk : d.1 = k
    · simpa [removeKey, hk, lookupKey, Ne.symm h] using ih
    · simp only [removeKey] at ih
      simp [removeKey, hk, lookupKey, ih]

end Keys

/-! ## Tables -/

section Tables
variable {α : Type}

@[simp] theorem Tbl.get_set_same (t : Tbl α) (k : Nat) (v : α) : (t.set k v).get k = some v := by simp [Tbl.get, Tbl.set]

theorem Tbl.get_set_ne (t : Tbl α) {k j : Nat} (v : α) (h : j ≠ k) : (t.set k v).get j = t.get j := lookupKey_insertKey_ne v t.cells h

@[simp] theorem Tbl.getD_set_same (t : Tbl α) (k : Nat) (v d : α) : (t.set k v).getD k d = v := by simp [Tbl.getD]

theorem Tbl.getD_set_ne (t : Tbl α) {k j : Nat} (v d : α) (h : j ≠ k) : (t.set k v).getD j d = t.getD j d := by simp [Tbl.getD, Tbl.get_set_ne t v h]

theorem Tbl.getD_del_ne (t : Tbl α) {k j : Nat} (d : α) (h : j ≠ k) : (t.del k).getD j d = t.getD j d := by
  simp [Tbl.getD, Tbl.get, Tbl.del, lookupKey_removeKey_ne h]

@[simp] theorem Tbl.get_del_same (t : Tbl α) (k : Nat) : (t.del k).get k = none := lookupKey_removeKey_same k t.cells

@[simp] theorem Tbl.getD_del_same (t : Tbl α) (k : Nat) (d : α) : (t.del k).getD k d = d := by simp [Tbl.getD]

/-- Setting an entry keeps a table's canonical form. -/
theorem Tbl.wf_set {t : Tbl α} (k : Nat) (v : α) (h : t.wf = true) : (t.set k v).wf = true := keysRise_insertKey h

/-- Removing an entry keeps a table's canonical form. -/
theorem Tbl.wf_del {t : Tbl α} (k : Nat) (h : t.wf = true) : (t.del k).wf = true := keysRise_removeKey h

/-- Filtering keeps a table's canonical form. -/
theorem Tbl.wf_filter {t : Tbl α} (f : Nat → α → Bool) (h : t.wf = true) : (t.filter f).wf = true := keysRise_filter h

@[simp] theorem Tbl.get_empty (k : Nat) : (Tbl.empty : Tbl α).get k = none := rfl

@[simp] theorem Tbl.getD_empty (k : Nat) (d : α) : (Tbl.empty : Tbl α).getD k d = d := rfl

end Tables

/-! ## Memory lists -/

theorem Memory.wf_iff (l : List Host.Cell) : Memory.wf l = true ↔ keysRise l = true ∧ ∀ c ∈ l, c.2 ≠ 0 := by
  simp [Memory.wf]

theorem mem_insertKey {α : Type} {k : Nat} {v : α} {l : List (Nat × α)} {c : Nat × α} (h : c ∈ insertKey k v l) : c = (k, v) ∨ c ∈ l := by
  induction l with
  | nil => simpa [insertKey] using h
  | cons d l ih =>
    simp only [insertKey] at h
    split at h
    · rcases List.mem_cons.1 h with h | h
      · exact .inl h
      · exact .inr h
    · split at h
      · rcases List.mem_cons.1 h with h | h
        · exact .inl h
        · exact .inr (List.mem_cons_of_mem _ h)
      · rcases List.mem_cons.1 h with h | h
        · exact .inr (by simp [h])
        · rcases ih h with h | h
          · exact .inl h
          · exact .inr (List.mem_cons_of_mem _ h)

/-- Writing a byte keeps a memory list's canonical form. -/
theorem Memory.wf_putByte {l : List Host.Cell} (a : Nat) (b : Byte) (h : Memory.wf l = true) : Memory.wf (putByte l a b) = true := by
  obtain ⟨hr, hz⟩ := (Memory.wf_iff l).1 h
  unfold putByte
  split
  · exact (Memory.wf_iff _).2 ⟨keysRise_removeKey hr, fun c hc => hz c (mem_of_mem_removeKey hc)⟩
  · refine (Memory.wf_iff _).2 ⟨keysRise_insertKey hr, fun c hc => ?_⟩
    rcases mem_insertKey hc with rfl | hc
    · assumption
    · exact hz c hc

/-- A masked write keeps a memory list's canonical form. -/
theorem Memory.wf_putCell {l : List Host.Cell} (w : WCell) (h : Memory.wf l = true) : Memory.wf (putCell l w) = true := Memory.wf_putByte _ _ h

/-- Filtering keeps a memory list's canonical form. -/
theorem Memory.wf_filter {l : List Host.Cell} (p : Host.Cell → Bool) (h : Memory.wf l = true) : Memory.wf (l.filter p) = true := by
  obtain ⟨hr, hz⟩ := (Memory.wf_iff l).1 h
  exact (Memory.wf_iff _).2 ⟨keysRise_filter hr, fun c hc => hz c (List.mem_filter.1 hc).1⟩

/-- A fold of steps that each keep a property keeps it. -/
theorem foldl_keeps {α β : Type} {P : β → Prop} {f : β → α → β} (h : ∀ b a, P b → P (f b a)) (l : List α) {b : β} (hb : P b) : P (l.foldl f b) := by
  induction l generalizing b with
  | nil => exact hb
  | cons a l ih => exact ih (h b a hb)

/-- A byte that was written reads back. -/
theorem getByte_putByte_same (l : List Host.Cell) (a : Nat) (b : Byte) : getByte (putByte l a b) a = b := by
  unfold getByte putByte
  split
  · next hb => simp [lookupKey_removeKey_same, hb]
  · simp

/-- A write of one byte leaves every other byte. -/
theorem getByte_putByte_ne {l : List Host.Cell} {a x : Nat} (b : Byte) (h : x ≠ a) : getByte (putByte l a b) x = getByte l x := by
  unfold getByte putByte
  split
  · rw [lookupKey_removeKey_ne h]
  · rw [lookupKey_insertKey_ne _ _ h]

/-- A masked write leaves every other byte. -/
theorem getByte_putCell_ne {l : List Host.Cell} {w : WCell} {x : Nat} (h : x ≠ w.addr) : getByte (putCell l w) x = getByte l x := getByte_putByte_ne _ h

/-- An unmasked write of one byte reads back. -/
theorem getByte_putCell_full (l : List Host.Cell) (a : Nat) (b : Byte) : getByte (putCell l ⟨a, b, 0xFF#8⟩) a = b := by
  have e : (getByte l a &&& ~~~0xFF#8) ||| (b &&& 0xFF#8) = b := by
    rw [show (0xFF#8 : BitVec 8) = BitVec.allOnes 8 from rfl, BitVec.and_allOnes, BitVec.not_allOnes, BitVec.and_zero, BitVec.zero_or]
  simp only [putCell, e, getByte_putByte_same]

end Sys2Proof.Machine
end

