-- ==== Sys2Proof/Laws/State.lean ====
section
/-! SUPPORT. What the basic updates of the state leave as it was, a lemma for each update and field, and what the answers of rows say. -/

namespace Sys2Proof.Machine

@[simp] theorem Mod.put_io (s : Mod) (r : RegName) (idx : Nat) (v : Word) : (s.put r idx v).io = s.io := rfl
@[simp] theorem Mod.put_fc (s : Mod) (r : RegName) (idx : Nat) (v : Word) : (s.put r idx v).fc = s.fc := rfl
@[simp] theorem Mod.put_ct (s : Mod) (r : RegName) (idx : Nat) (v : Word) : (s.put r idx v).ct = s.ct := rfl
@[simp] theorem Mod.put_wr (s : Mod) (r : RegName) (idx : Nat) (v : Word) : (s.put r idx v).wr = s.wr := rfl
@[simp] theorem Mod.put_cq (s : Mod) (r : RegName) (idx : Nat) (v : Word) : (s.put r idx v).cq = s.cq := rfl
@[simp] theorem Mod.put_pci (s : Mod) (r : RegName) (idx : Nat) (v : Word) : (s.put r idx v).pci = s.pci := rfl
@[simp] theorem Mod.put_mem (s : Mod) (r : RegName) (idx : Nat) (v : Word) : (s.put r idx v).mem = s.mem := rfl
@[simp] theorem Mod.put_tile (s : Mod) (r : RegName) (idx : Nat) (v : Word) : (s.put r idx v).tile = s.tile := rfl
@[simp] theorem Mod.put_td (s : Mod) (r : RegName) (idx : Nat) (v : Word) : (s.put r idx v).td = s.td := rfl
@[simp] theorem Mod.put_stg (s : Mod) (r : RegName) (idx : Nat) (v : Word) : (s.put r idx v).stg = s.stg := rfl
@[simp] theorem Mod.put_ue (s : Mod) (r : RegName) (idx : Nat) (v : Word) : (s.put r idx v).ue = s.ue := rfl
@[simp] theorem Mod.put_zl (s : Mod) (r : RegName) (idx : Nat) (v : Word) : (s.put r idx v).zl = s.zl := rfl
@[simp] theorem Mod.put_rel (s : Mod) (r : RegName) (idx : Nat) (v : Word) : (s.put r idx v).rel = s.rel := rfl
@[simp] theorem Mod.put_sec (s : Mod) (r : RegName) (idx : Nat) (v : Word) : (s.put r idx v).sec = s.sec := rfl
@[simp] theorem Mod.put_ob (s : Mod) (r : RegName) (idx : Nat) (v : Word) : (s.put r idx v).ob = s.ob := rfl
@[simp] theorem Mod.put_pwr (s : Mod) (r : RegName) (idx : Nat) (v : Word) : (s.put r idx v).pwr = s.pwr := rfl

@[simp] theorem Mod.setFld_io (s : Mod) (f : Fld) (idx v : Nat) : (s.setFld f idx v).io = s.io := rfl
@[simp] theorem Mod.setFld_fc (s : Mod) (f : Fld) (idx v : Nat) : (s.setFld f idx v).fc = s.fc := rfl
@[simp] theorem Mod.setFld_ct (s : Mod) (f : Fld) (idx v : Nat) : (s.setFld f idx v).ct = s.ct := rfl
@[simp] theorem Mod.setFld_wr (s : Mod) (f : Fld) (idx v : Nat) : (s.setFld f idx v).wr = s.wr := rfl
@[simp] theorem Mod.setFld_cq (s : Mod) (f : Fld) (idx v : Nat) : (s.setFld f idx v).cq = s.cq := rfl
@[simp] theorem Mod.setFld_pci (s : Mod) (f : Fld) (idx v : Nat) : (s.setFld f idx v).pci = s.pci := rfl
@[simp] theorem Mod.setFld_mem (s : Mod) (f : Fld) (idx v : Nat) : (s.setFld f idx v).mem = s.mem := rfl
@[simp] theorem Mod.setFld_tile (s : Mod) (f : Fld) (idx v : Nat) : (s.setFld f idx v).tile = s.tile := rfl
@[simp] theorem Mod.setFld_td (s : Mod) (f : Fld) (idx v : Nat) : (s.setFld f idx v).td = s.td := rfl
@[simp] theorem Mod.setFld_stg (s : Mod) (f : Fld) (idx v : Nat) : (s.setFld f idx v).stg = s.stg := rfl
@[simp] theorem Mod.setFld_ue (s : Mod) (f : Fld) (idx v : Nat) : (s.setFld f idx v).ue = s.ue := rfl
@[simp] theorem Mod.setFld_zl (s : Mod) (f : Fld) (idx v : Nat) : (s.setFld f idx v).zl = s.zl := rfl
@[simp] theorem Mod.setFld_rel (s : Mod) (f : Fld) (idx v : Nat) : (s.setFld f idx v).rel = s.rel := rfl
@[simp] theorem Mod.setFld_sec (s : Mod) (f : Fld) (idx v : Nat) : (s.setFld f idx v).sec = s.sec := rfl
@[simp] theorem Mod.setFld_ob (s : Mod) (f : Fld) (idx v : Nat) : (s.setFld f idx v).ob = s.ob := rfl
@[simp] theorem Mod.setFld_pwr (s : Mod) (f : Fld) (idx v : Nat) : (s.setFld f idx v).pwr = s.pwr := rfl

@[simp] theorem Mod.raiseNow_io (s : Mod) (f : Fld) (idx : Nat) : (s.raiseNow f idx).io = s.io := rfl
@[simp] theorem Mod.raiseNow_fc (s : Mod) (f : Fld) (idx : Nat) : (s.raiseNow f idx).fc = s.fc := rfl
@[simp] theorem Mod.raiseNow_ct (s : Mod) (f : Fld) (idx : Nat) : (s.raiseNow f idx).ct = s.ct := rfl
@[simp] theorem Mod.raiseNow_wr (s : Mod) (f : Fld) (idx : Nat) : (s.raiseNow f idx).wr = s.wr := rfl
@[simp] theorem Mod.raiseNow_cq (s : Mod) (f : Fld) (idx : Nat) : (s.raiseNow f idx).cq = s.cq := rfl
@[simp] theorem Mod.raiseNow_pci (s : Mod) (f : Fld) (idx : Nat) : (s.raiseNow f idx).pci = s.pci := rfl
@[simp] theorem Mod.raiseNow_mem (s : Mod) (f : Fld) (idx : Nat) : (s.raiseNow f idx).mem = s.mem := rfl
@[simp] theorem Mod.raiseNow_tile (s : Mod) (f : Fld) (idx : Nat) : (s.raiseNow f idx).tile = s.tile := rfl
@[simp] theorem Mod.raiseNow_td (s : Mod) (f : Fld) (idx : Nat) : (s.raiseNow f idx).td = s.td := rfl
@[simp] theorem Mod.raiseNow_stg (s : Mod) (f : Fld) (idx : Nat) : (s.raiseNow f idx).stg = s.stg := rfl
@[simp] theorem Mod.raiseNow_ue (s : Mod) (f : Fld) (idx : Nat) : (s.raiseNow f idx).ue = s.ue := rfl
@[simp] theorem Mod.raiseNow_zl (s : Mod) (f : Fld) (idx : Nat) : (s.raiseNow f idx).zl = s.zl := rfl
@[simp] theorem Mod.raiseNow_rel (s : Mod) (f : Fld) (idx : Nat) : (s.raiseNow f idx).rel = s.rel := rfl
@[simp] theorem Mod.raiseNow_sec (s : Mod) (f : Fld) (idx : Nat) : (s.raiseNow f idx).sec = s.sec := rfl
@[simp] theorem Mod.raiseNow_ob (s : Mod) (f : Fld) (idx : Nat) : (s.raiseNow f idx).ob = s.ob := rfl
@[simp] theorem Mod.raiseNow_pwr (s : Mod) (f : Fld) (idx : Nat) : (s.raiseNow f idx).pwr = s.pwr := rfl

@[simp] theorem Mod.countReg_io (s : Mod) (r : RegName) (idx n : Nat) : (s.countReg r idx n).io = s.io := rfl
@[simp] theorem Mod.countReg_fc (s : Mod) (r : RegName) (idx n : Nat) : (s.countReg r idx n).fc = s.fc := rfl
@[simp] theorem Mod.countReg_ct (s : Mod) (r : RegName) (idx n : Nat) : (s.countReg r idx n).ct = s.ct := rfl
@[simp] theorem Mod.countReg_wr (s : Mod) (r : RegName) (idx n : Nat) : (s.countReg r idx n).wr = s.wr := rfl
@[simp] theorem Mod.countReg_cq (s : Mod) (r : RegName) (idx n : Nat) : (s.countReg r idx n).cq = s.cq := rfl
@[simp] theorem Mod.countReg_pci (s : Mod) (r : RegName) (idx n : Nat) : (s.countReg r idx n).pci = s.pci := rfl
@[simp] theorem Mod.countReg_mem (s : Mod) (r : RegName) (idx n : Nat) : (s.countReg r idx n).mem = s.mem := rfl
@[simp] theorem Mod.countReg_tile (s : Mod) (r : RegName) (idx n : Nat) : (s.countReg r idx n).tile = s.tile := rfl
@[simp] theorem Mod.countReg_td (s : Mod) (r : RegName) (idx n : Nat) : (s.countReg r idx n).td = s.td := rfl
@[simp] theorem Mod.countReg_stg (s : Mod) (r : RegName) (idx n : Nat) : (s.countReg r idx n).stg = s.stg := rfl
@[simp] theorem Mod.countReg_ue (s : Mod) (r : RegName) (idx n : Nat) : (s.countReg r idx n).ue = s.ue := rfl
@[simp] theorem Mod.countReg_zl (s : Mod) (r : RegName) (idx n : Nat) : (s.countReg r idx n).zl = s.zl := rfl
@[simp] theorem Mod.countReg_rel (s : Mod) (r : RegName) (idx n : Nat) : (s.countReg r idx n).rel = s.rel := rfl
@[simp] theorem Mod.countReg_sec (s : Mod) (r : RegName) (idx n : Nat) : (s.countReg r idx n).sec = s.sec := rfl
@[simp] theorem Mod.countReg_ob (s : Mod) (r : RegName) (idx n : Nat) : (s.countReg r idx n).ob = s.ob := rfl
@[simp] theorem Mod.countReg_pwr (s : Mod) (r : RegName) (idx n : Nat) : (s.countReg r idx n).pwr = s.pwr := rfl

@[simp] theorem Mod.putPair_io (s : Mod) (lo hi : RegName) (idx v : Nat) : (s.putPair lo hi idx v).io = s.io := rfl
@[simp] theorem Mod.putPair_fc (s : Mod) (lo hi : RegName) (idx v : Nat) : (s.putPair lo hi idx v).fc = s.fc := rfl
@[simp] theorem Mod.putPair_ct (s : Mod) (lo hi : RegName) (idx v : Nat) : (s.putPair lo hi idx v).ct = s.ct := rfl
@[simp] theorem Mod.putPair_wr (s : Mod) (lo hi : RegName) (idx v : Nat) : (s.putPair lo hi idx v).wr = s.wr := rfl
@[simp] theorem Mod.putPair_cq (s : Mod) (lo hi : RegName) (idx v : Nat) : (s.putPair lo hi idx v).cq = s.cq := rfl
@[simp] theorem Mod.putPair_pci (s : Mod) (lo hi : RegName) (idx v : Nat) : (s.putPair lo hi idx v).pci = s.pci := rfl
@[simp] theorem Mod.putPair_mem (s : Mod) (lo hi : RegName) (idx v : Nat) : (s.putPair lo hi idx v).mem = s.mem := rfl
@[simp] theorem Mod.putPair_tile (s : Mod) (lo hi : RegName) (idx v : Nat) : (s.putPair lo hi idx v).tile = s.tile := rfl
@[simp] theorem Mod.putPair_td (s : Mod) (lo hi : RegName) (idx v : Nat) : (s.putPair lo hi idx v).td = s.td := rfl
@[simp] theorem Mod.putPair_stg (s : Mod) (lo hi : RegName) (idx v : Nat) : (s.putPair lo hi idx v).stg = s.stg := rfl
@[simp] theorem Mod.putPair_ue (s : Mod) (lo hi : RegName) (idx v : Nat) : (s.putPair lo hi idx v).ue = s.ue := rfl
@[simp] theorem Mod.putPair_zl (s : Mod) (lo hi : RegName) (idx v : Nat) : (s.putPair lo hi idx v).zl = s.zl := rfl
@[simp] theorem Mod.putPair_rel (s : Mod) (lo hi : RegName) (idx v : Nat) : (s.putPair lo hi idx v).rel = s.rel := rfl
@[simp] theorem Mod.putPair_sec (s : Mod) (lo hi : RegName) (idx v : Nat) : (s.putPair lo hi idx v).sec = s.sec := rfl
@[simp] theorem Mod.putPair_ob (s : Mod) (lo hi : RegName) (idx v : Nat) : (s.putPair lo hi idx v).ob = s.ob := rfl
@[simp] theorem Mod.putPair_pwr (s : Mod) (lo hi : RegName) (idx v : Nat) : (s.putPair lo hi idx v).pwr = s.pwr := rfl

@[simp] theorem Mod.raiseBits_io (s : Mod) (r : RegName) (idx : Nat) (b : Word) : (s.raiseBits r idx b).io = s.io := by unfold Mod.raiseBits; split <;> rfl
@[simp] theorem Mod.raiseBits_fc (s : Mod) (r : RegName) (idx : Nat) (b : Word) : (s.raiseBits r idx b).fc = s.fc := by unfold Mod.raiseBits; split <;> rfl
@[simp] theorem Mod.raiseBits_ct (s : Mod) (r : RegName) (idx : Nat) (b : Word) : (s.raiseBits r idx b).ct = s.ct := by unfold Mod.raiseBits; split <;> rfl
@[simp] theorem Mod.raiseBits_wr (s : Mod) (r : RegName) (idx : Nat) (b : Word) : (s.raiseBits r idx b).wr = s.wr := by unfold Mod.raiseBits; split <;> rfl
@[simp] theorem Mod.raiseBits_cq (s : Mod) (r : RegName) (idx : Nat) (b : Word) : (s.raiseBits r idx b).cq = s.cq := by unfold Mod.raiseBits; split <;> rfl
@[simp] theorem Mod.raiseBits_pci (s : Mod) (r : RegName) (idx : Nat) (b : Word) : (s.raiseBits r idx b).pci = s.pci := by unfold Mod.raiseBits; split <;> rfl
@[simp] theorem Mod.raiseBits_mem (s : Mod) (r : RegName) (idx : Nat) (b : Word) : (s.raiseBits r idx b).mem = s.mem := by unfold Mod.raiseBits; split <;> rfl
@[simp] theorem Mod.raiseBits_tile (s : Mod) (r : RegName) (idx : Nat) (b : Word) : (s.raiseBits r idx b).tile = s.tile := by unfold Mod.raiseBits; split <;> rfl
@[simp] theorem Mod.raiseBits_td (s : Mod) (r : RegName) (idx : Nat) (b : Word) : (s.raiseBits r idx b).td = s.td := by unfold Mod.raiseBits; split <;> rfl
@[simp] theorem Mod.raiseBits_stg (s : Mod) (r : RegName) (idx : Nat) (b : Word) : (s.raiseBits r idx b).stg = s.stg := by unfold Mod.raiseBits; split <;> rfl
@[simp] theorem Mod.raiseBits_ue (s : Mod) (r : RegName) (idx : Nat) (b : Word) : (s.raiseBits r idx b).ue = s.ue := by unfold Mod.raiseBits; split <;> rfl
@[simp] theorem Mod.raiseBits_zl (s : Mod) (r : RegName) (idx : Nat) (b : Word) : (s.raiseBits r idx b).zl = s.zl := by unfold Mod.raiseBits; split <;> rfl
@[simp] theorem Mod.raiseBits_rel (s : Mod) (r : RegName) (idx : Nat) (b : Word) : (s.raiseBits r idx b).rel = s.rel := by unfold Mod.raiseBits; split <;> rfl
@[simp] theorem Mod.raiseBits_sec (s : Mod) (r : RegName) (idx : Nat) (b : Word) : (s.raiseBits r idx b).sec = s.sec := by unfold Mod.raiseBits; split <;> rfl
@[simp] theorem Mod.raiseBits_ob (s : Mod) (r : RegName) (idx : Nat) (b : Word) : (s.raiseBits r idx b).ob = s.ob := by unfold Mod.raiseBits; split <;> rfl
@[simp] theorem Mod.raiseBits_pwr (s : Mod) (r : RegName) (idx : Nat) (b : Word) : (s.raiseBits r idx b).pwr = s.pwr := by unfold Mod.raiseBits; split <;> rfl

@[simp] theorem Mod.raise_io (s : Mod) (f : Fld) (idx : Nat) : (s.raise f idx).io = s.io := by simp [Mod.raise]
@[simp] theorem Mod.raise_fc (s : Mod) (f : Fld) (idx : Nat) : (s.raise f idx).fc = s.fc := by simp [Mod.raise]
@[simp] theorem Mod.raise_ct (s : Mod) (f : Fld) (idx : Nat) : (s.raise f idx).ct = s.ct := by simp [Mod.raise]
@[simp] theorem Mod.raise_wr (s : Mod) (f : Fld) (idx : Nat) : (s.raise f idx).wr = s.wr := by simp [Mod.raise]
@[simp] theorem Mod.raise_cq (s : Mod) (f : Fld) (idx : Nat) : (s.raise f idx).cq = s.cq := by simp [Mod.raise]
@[simp] theorem Mod.raise_pci (s : Mod) (f : Fld) (idx : Nat) : (s.raise f idx).pci = s.pci := by simp [Mod.raise]
@[simp] theorem Mod.raise_mem (s : Mod) (f : Fld) (idx : Nat) : (s.raise f idx).mem = s.mem := by simp [Mod.raise]
@[simp] theorem Mod.raise_tile (s : Mod) (f : Fld) (idx : Nat) : (s.raise f idx).tile = s.tile := by simp [Mod.raise]
@[simp] theorem Mod.raise_td (s : Mod) (f : Fld) (idx : Nat) : (s.raise f idx).td = s.td := by simp [Mod.raise]
@[simp] theorem Mod.raise_stg (s : Mod) (f : Fld) (idx : Nat) : (s.raise f idx).stg = s.stg := by simp [Mod.raise]
@[simp] theorem Mod.raise_ue (s : Mod) (f : Fld) (idx : Nat) : (s.raise f idx).ue = s.ue := by simp [Mod.raise]
@[simp] theorem Mod.raise_zl (s : Mod) (f : Fld) (idx : Nat) : (s.raise f idx).zl = s.zl := by simp [Mod.raise]
@[simp] theorem Mod.raise_rel (s : Mod) (f : Fld) (idx : Nat) : (s.raise f idx).rel = s.rel := by simp [Mod.raise]
@[simp] theorem Mod.raise_sec (s : Mod) (f : Fld) (idx : Nat) : (s.raise f idx).sec = s.sec := by simp [Mod.raise]
@[simp] theorem Mod.raise_ob (s : Mod) (f : Fld) (idx : Nat) : (s.raise f idx).ob = s.ob := by simp [Mod.raise]
@[simp] theorem Mod.raise_pwr (s : Mod) (f : Fld) (idx : Nat) : (s.raise f idx).pwr = s.pwr := by simp [Mod.raise]

@[simp] theorem Mod.emit_fc (s : Mod) (o : Out) : (s.emit o).fc = s.fc := rfl
@[simp] theorem Mod.emit_rf (s : Mod) (o : Out) : (s.emit o).rf = s.rf := rfl
@[simp] theorem Mod.emit_ct (s : Mod) (o : Out) : (s.emit o).ct = s.ct := rfl
@[simp] theorem Mod.emit_wr (s : Mod) (o : Out) : (s.emit o).wr = s.wr := rfl
@[simp] theorem Mod.emit_cq (s : Mod) (o : Out) : (s.emit o).cq = s.cq := rfl
@[simp] theorem Mod.emit_pci (s : Mod) (o : Out) : (s.emit o).pci = s.pci := rfl
@[simp] theorem Mod.emit_mem (s : Mod) (o : Out) : (s.emit o).mem = s.mem := rfl
@[simp] theorem Mod.emit_tile (s : Mod) (o : Out) : (s.emit o).tile = s.tile := rfl
@[simp] theorem Mod.emit_td (s : Mod) (o : Out) : (s.emit o).td = s.td := rfl
@[simp] theorem Mod.emit_stg (s : Mod) (o : Out) : (s.emit o).stg = s.stg := rfl
@[simp] theorem Mod.emit_ue (s : Mod) (o : Out) : (s.emit o).ue = s.ue := rfl
@[simp] theorem Mod.emit_zl (s : Mod) (o : Out) : (s.emit o).zl = s.zl := rfl
@[simp] theorem Mod.emit_rel (s : Mod) (o : Out) : (s.emit o).rel = s.rel := rfl
@[simp] theorem Mod.emit_sec (s : Mod) (o : Out) : (s.emit o).sec = s.sec := rfl
@[simp] theorem Mod.emit_ob (s : Mod) (o : Out) : (s.emit o).ob = s.ob := rfl
@[simp] theorem Mod.emit_pwr (s : Mod) (o : Out) : (s.emit o).pwr = s.pwr := rfl

@[simp] theorem Mod.bump_fc (s : Mod) : (s.bump).fc = s.fc := rfl
@[simp] theorem Mod.bump_rf (s : Mod) : (s.bump).rf = s.rf := rfl
@[simp] theorem Mod.bump_ct (s : Mod) : (s.bump).ct = s.ct := rfl
@[simp] theorem Mod.bump_wr (s : Mod) : (s.bump).wr = s.wr := rfl
@[simp] theorem Mod.bump_cq (s : Mod) : (s.bump).cq = s.cq := rfl
@[simp] theorem Mod.bump_pci (s : Mod) : (s.bump).pci = s.pci := rfl
@[simp] theorem Mod.bump_mem (s : Mod) : (s.bump).mem = s.mem := rfl
@[simp] theorem Mod.bump_tile (s : Mod) : (s.bump).tile = s.tile := rfl
@[simp] theorem Mod.bump_td (s : Mod) : (s.bump).td = s.td := rfl
@[simp] theorem Mod.bump_stg (s : Mod) : (s.bump).stg = s.stg := rfl
@[simp] theorem Mod.bump_ue (s : Mod) : (s.bump).ue = s.ue := rfl
@[simp] theorem Mod.bump_zl (s : Mod) : (s.bump).zl = s.zl := rfl
@[simp] theorem Mod.bump_rel (s : Mod) : (s.bump).rel = s.rel := rfl
@[simp] theorem Mod.bump_sec (s : Mod) : (s.bump).sec = s.sec := rfl
@[simp] theorem Mod.bump_ob (s : Mod) : (s.bump).ob = s.ob := rfl
@[simp] theorem Mod.bump_pwr (s : Mod) : (s.bump).pwr = s.pwr := rfl

@[simp] theorem Mod.setQueue_io (s : Mod) (q : Nat) (v : Queue) : (s.setQueue q v).io = s.io := rfl
@[simp] theorem Mod.setQueue_fc (s : Mod) (q : Nat) (v : Queue) : (s.setQueue q v).fc = s.fc := rfl
@[simp] theorem Mod.setQueue_rf (s : Mod) (q : Nat) (v : Queue) : (s.setQueue q v).rf = s.rf := rfl
@[simp] theorem Mod.setQueue_ct (s : Mod) (q : Nat) (v : Queue) : (s.setQueue q v).ct = s.ct := rfl
@[simp] theorem Mod.setQueue_wr (s : Mod) (q : Nat) (v : Queue) : (s.setQueue q v).wr = s.wr := rfl
@[simp] theorem Mod.setQueue_pci (s : Mod) (q : Nat) (v : Queue) : (s.setQueue q v).pci = s.pci := rfl
@[simp] theorem Mod.setQueue_mem (s : Mod) (q : Nat) (v : Queue) : (s.setQueue q v).mem = s.mem := rfl
@[simp] theorem Mod.setQueue_tile (s : Mod) (q : Nat) (v : Queue) : (s.setQueue q v).tile = s.tile := rfl
@[simp] theorem Mod.setQueue_td (s : Mod) (q : Nat) (v : Queue) : (s.setQueue q v).td = s.td := rfl
@[simp] theorem Mod.setQueue_stg (s : Mod) (q : Nat) (v : Queue) : (s.setQueue q v).stg = s.stg := rfl
@[simp] theorem Mod.setQueue_ue (s : Mod) (q : Nat) (v : Queue) : (s.setQueue q v).ue = s.ue := rfl
@[simp] theorem Mod.setQueue_zl (s : Mod) (q : Nat) (v : Queue) : (s.setQueue q v).zl = s.zl := rfl
@[simp] theorem Mod.setQueue_rel (s : Mod) (q : Nat) (v : Queue) : (s.setQueue q v).rel = s.rel := rfl
@[simp] theorem Mod.setQueue_sec (s : Mod) (q : Nat) (v : Queue) : (s.setQueue q v).sec = s.sec := rfl
@[simp] theorem Mod.setQueue_ob (s : Mod) (q : Nat) (v : Queue) : (s.setQueue q v).ob = s.ob := rfl
@[simp] theorem Mod.setQueue_pwr (s : Mod) (q : Nat) (v : Queue) : (s.setQueue q v).pwr = s.pwr := rfl

@[simp] theorem Mod.setCmd_io (s : Mod) (c : Cmd) : (s.setCmd c).io = s.io := rfl
@[simp] theorem Mod.setCmd_fc (s : Mod) (c : Cmd) : (s.setCmd c).fc = s.fc := rfl
@[simp] theorem Mod.setCmd_rf (s : Mod) (c : Cmd) : (s.setCmd c).rf = s.rf := rfl
@[simp] theorem Mod.setCmd_ct (s : Mod) (c : Cmd) : (s.setCmd c).ct = s.ct := rfl
@[simp] theorem Mod.setCmd_wr (s : Mod) (c : Cmd) : (s.setCmd c).wr = s.wr := rfl
@[simp] theorem Mod.setCmd_pci (s : Mod) (c : Cmd) : (s.setCmd c).pci = s.pci := rfl
@[simp] theorem Mod.setCmd_mem (s : Mod) (c : Cmd) : (s.setCmd c).mem = s.mem := rfl
@[simp] theorem Mod.setCmd_tile (s : Mod) (c : Cmd) : (s.setCmd c).tile = s.tile := rfl
@[simp] theorem Mod.setCmd_td (s : Mod) (c : Cmd) : (s.setCmd c).td = s.td := rfl
@[simp] theorem Mod.setCmd_stg (s : Mod) (c : Cmd) : (s.setCmd c).stg = s.stg := rfl
@[simp] theorem Mod.setCmd_ue (s : Mod) (c : Cmd) : (s.setCmd c).ue = s.ue := rfl
@[simp] theorem Mod.setCmd_zl (s : Mod) (c : Cmd) : (s.setCmd c).zl = s.zl := rfl
@[simp] theorem Mod.setCmd_rel (s : Mod) (c : Cmd) : (s.setCmd c).rel = s.rel := rfl
@[simp] theorem Mod.setCmd_sec (s : Mod) (c : Cmd) : (s.setCmd c).sec = s.sec := rfl
@[simp] theorem Mod.setCmd_ob (s : Mod) (c : Cmd) : (s.setCmd c).ob = s.ob := rfl
@[simp] theorem Mod.setCmd_pwr (s : Mod) (c : Cmd) : (s.setCmd c).pwr = s.pwr := rfl

@[simp] theorem Mod.finish_io (s : Mod) (c : Cmd) (status detail : Nat) : (s.finish c status detail).io = s.io := rfl
@[simp] theorem Mod.finish_fc (s : Mod) (c : Cmd) (status detail : Nat) : (s.finish c status detail).fc = s.fc := rfl
@[simp] theorem Mod.finish_rf (s : Mod) (c : Cmd) (status detail : Nat) : (s.finish c status detail).rf = s.rf := rfl
@[simp] theorem Mod.finish_ct (s : Mod) (c : Cmd) (status detail : Nat) : (s.finish c status detail).ct = s.ct := rfl
@[simp] theorem Mod.finish_wr (s : Mod) (c : Cmd) (status detail : Nat) : (s.finish c status detail).wr = s.wr := rfl
@[simp] theorem Mod.finish_pci (s : Mod) (c : Cmd) (status detail : Nat) : (s.finish c status detail).pci = s.pci := rfl
@[simp] theorem Mod.finish_mem (s : Mod) (c : Cmd) (status detail : Nat) : (s.finish c status detail).mem = s.mem := rfl
@[simp] theorem Mod.finish_tile (s : Mod) (c : Cmd) (status detail : Nat) : (s.finish c status detail).tile = s.tile := rfl
@[simp] theorem Mod.finish_td (s : Mod) (c : Cmd) (status detail : Nat) : (s.finish c status detail).td = s.td := rfl
@[simp] theorem Mod.finish_stg (s : Mod) (c : Cmd) (status detail : Nat) : (s.finish c status detail).stg = s.stg := rfl
@[simp] theorem Mod.finish_ue (s : Mod) (c : Cmd) (status detail : Nat) : (s.finish c status detail).ue = s.ue := rfl
@[simp] theorem Mod.finish_zl (s : Mod) (c : Cmd) (status detail : Nat) : (s.finish c status detail).zl = s.zl := rfl
@[simp] theorem Mod.finish_rel (s : Mod) (c : Cmd) (status detail : Nat) : (s.finish c status detail).rel = s.rel := rfl
@[simp] theorem Mod.finish_sec (s : Mod) (c : Cmd) (status detail : Nat) : (s.finish c status detail).sec = s.sec := rfl
@[simp] theorem Mod.finish_ob (s : Mod) (c : Cmd) (status detail : Nat) : (s.finish c status detail).ob = s.ob := rfl
@[simp] theorem Mod.finish_pwr (s : Mod) (c : Cmd) (status detail : Nat) : (s.finish c status detail).pwr = s.pwr := rfl

@[simp] theorem Mod.stage_io (s : Mod) (rank : Nat) (e : Eff) : (s.stage rank e).io = s.io := rfl
@[simp] theorem Mod.stage_fc (s : Mod) (rank : Nat) (e : Eff) : (s.stage rank e).fc = s.fc := rfl
@[simp] theorem Mod.stage_rf (s : Mod) (rank : Nat) (e : Eff) : (s.stage rank e).rf = s.rf := rfl
@[simp] theorem Mod.stage_ct (s : Mod) (rank : Nat) (e : Eff) : (s.stage rank e).ct = s.ct := rfl
@[simp] theorem Mod.stage_wr (s : Mod) (rank : Nat) (e : Eff) : (s.stage rank e).wr = s.wr := rfl
@[simp] theorem Mod.stage_cq (s : Mod) (rank : Nat) (e : Eff) : (s.stage rank e).cq = s.cq := rfl
@[simp] theorem Mod.stage_pci (s : Mod) (rank : Nat) (e : Eff) : (s.stage rank e).pci = s.pci := rfl
@[simp] theorem Mod.stage_mem (s : Mod) (rank : Nat) (e : Eff) : (s.stage rank e).mem = s.mem := rfl
@[simp] theorem Mod.stage_tile (s : Mod) (rank : Nat) (e : Eff) : (s.stage rank e).tile = s.tile := rfl
@[simp] theorem Mod.stage_td (s : Mod) (rank : Nat) (e : Eff) : (s.stage rank e).td = s.td := rfl
@[simp] theorem Mod.stage_ue (s : Mod) (rank : Nat) (e : Eff) : (s.stage rank e).ue = s.ue := rfl
@[simp] theorem Mod.stage_zl (s : Mod) (rank : Nat) (e : Eff) : (s.stage rank e).zl = s.zl := rfl
@[simp] theorem Mod.stage_rel (s : Mod) (rank : Nat) (e : Eff) : (s.stage rank e).rel = s.rel := rfl
@[simp] theorem Mod.stage_sec (s : Mod) (rank : Nat) (e : Eff) : (s.stage rank e).sec = s.sec := rfl
@[simp] theorem Mod.stage_ob (s : Mod) (rank : Nat) (e : Eff) : (s.stage rank e).ob = s.ob := rfl
@[simp] theorem Mod.stage_pwr (s : Mod) (rank : Nat) (e : Eff) : (s.stage rank e).pwr = s.pwr := rfl

@[simp] theorem Mod.stageAll_io (s : Mod) (l : List Staged) : (s.stageAll l).io = s.io := rfl
@[simp] theorem Mod.stageAll_fc (s : Mod) (l : List Staged) : (s.stageAll l).fc = s.fc := rfl
@[simp] theorem Mod.stageAll_rf (s : Mod) (l : List Staged) : (s.stageAll l).rf = s.rf := rfl
@[simp] theorem Mod.stageAll_ct (s : Mod) (l : List Staged) : (s.stageAll l).ct = s.ct := rfl
@[simp] theorem Mod.stageAll_wr (s : Mod) (l : List Staged) : (s.stageAll l).wr = s.wr := rfl
@[simp] theorem Mod.stageAll_cq (s : Mod) (l : List Staged) : (s.stageAll l).cq = s.cq := rfl
@[simp] theorem Mod.stageAll_pci (s : Mod) (l : List Staged) : (s.stageAll l).pci = s.pci := rfl
@[simp] theorem Mod.stageAll_mem (s : Mod) (l : List Staged) : (s.stageAll l).mem = s.mem := rfl
@[simp] theorem Mod.stageAll_tile (s : Mod) (l : List Staged) : (s.stageAll l).tile = s.tile := rfl
@[simp] theorem Mod.stageAll_td (s : Mod) (l : List Staged) : (s.stageAll l).td = s.td := rfl
@[simp] theorem Mod.stageAll_ue (s : Mod) (l : List Staged) : (s.stageAll l).ue = s.ue := rfl
@[simp] theorem Mod.stageAll_zl (s : Mod) (l : List Staged) : (s.stageAll l).zl = s.zl := rfl
@[simp] theorem Mod.stageAll_rel (s : Mod) (l : List Staged) : (s.stageAll l).rel = s.rel := rfl
@[simp] theorem Mod.stageAll_sec (s : Mod) (l : List Staged) : (s.stageAll l).sec = s.sec := rfl
@[simp] theorem Mod.stageAll_ob (s : Mod) (l : List Staged) : (s.stageAll l).ob = s.ob := rfl
@[simp] theorem Mod.stageAll_pwr (s : Mod) (l : List Staged) : (s.stageAll l).pwr = s.pwr := rfl

@[simp] theorem Mod.countLater_io (s : Mod) (r : RegName) (idx n : Nat) : (s.countLater r idx n).io = s.io := rfl
@[simp] theorem Mod.countLater_fc (s : Mod) (r : RegName) (idx n : Nat) : (s.countLater r idx n).fc = s.fc := rfl
@[simp] theorem Mod.countLater_rf (s : Mod) (r : RegName) (idx n : Nat) : (s.countLater r idx n).rf = s.rf := rfl
@[simp] theorem Mod.countLater_ct (s : Mod) (r : RegName) (idx n : Nat) : (s.countLater r idx n).ct = s.ct := rfl
@[simp] theorem Mod.countLater_wr (s : Mod) (r : RegName) (idx n : Nat) : (s.countLater r idx n).wr = s.wr := rfl
@[simp] theorem Mod.countLater_cq (s : Mod) (r : RegName) (idx n : Nat) : (s.countLater r idx n).cq = s.cq := rfl
@[simp] theorem Mod.countLater_pci (s : Mod) (r : RegName) (idx n : Nat) : (s.countLater r idx n).pci = s.pci := rfl
@[simp] theorem Mod.countLater_mem (s : Mod) (r : RegName) (idx n : Nat) : (s.countLater r idx n).mem = s.mem := rfl
@[simp] theorem Mod.countLater_tile (s : Mod) (r : RegName) (idx n : Nat) : (s.countLater r idx n).tile = s.tile := rfl
@[simp] theorem Mod.countLater_td (s : Mod) (r : RegName) (idx n : Nat) : (s.countLater r idx n).td = s.td := rfl
@[simp] theorem Mod.countLater_ue (s : Mod) (r : RegName) (idx n : Nat) : (s.countLater r idx n).ue = s.ue := rfl
@[simp] theorem Mod.countLater_zl (s : Mod) (r : RegName) (idx n : Nat) : (s.countLater r idx n).zl = s.zl := rfl
@[simp] theorem Mod.countLater_rel (s : Mod) (r : RegName) (idx n : Nat) : (s.countLater r idx n).rel = s.rel := rfl
@[simp] theorem Mod.countLater_sec (s : Mod) (r : RegName) (idx n : Nat) : (s.countLater r idx n).sec = s.sec := rfl
@[simp] theorem Mod.countLater_ob (s : Mod) (r : RegName) (idx n : Nat) : (s.countLater r idx n).ob = s.ob := rfl
@[simp] theorem Mod.countLater_pwr (s : Mod) (r : RegName) (idx n : Nat) : (s.countLater r idx n).pwr = s.pwr := rfl

@[simp] theorem Mod.putMem_io (s : Mod) (p : Nat) (cells : List WCell) : (s.putMem p cells).io = s.io := rfl
@[simp] theorem Mod.putMem_fc (s : Mod) (p : Nat) (cells : List WCell) : (s.putMem p cells).fc = s.fc := rfl
@[simp] theorem Mod.putMem_rf (s : Mod) (p : Nat) (cells : List WCell) : (s.putMem p cells).rf = s.rf := rfl
@[simp] theorem Mod.putMem_ct (s : Mod) (p : Nat) (cells : List WCell) : (s.putMem p cells).ct = s.ct := rfl
@[simp] theorem Mod.putMem_wr (s : Mod) (p : Nat) (cells : List WCell) : (s.putMem p cells).wr = s.wr := rfl
@[simp] theorem Mod.putMem_cq (s : Mod) (p : Nat) (cells : List WCell) : (s.putMem p cells).cq = s.cq := rfl
@[simp] theorem Mod.putMem_pci (s : Mod) (p : Nat) (cells : List WCell) : (s.putMem p cells).pci = s.pci := rfl
@[simp] theorem Mod.putMem_tile (s : Mod) (p : Nat) (cells : List WCell) : (s.putMem p cells).tile = s.tile := rfl
@[simp] theorem Mod.putMem_td (s : Mod) (p : Nat) (cells : List WCell) : (s.putMem p cells).td = s.td := rfl
@[simp] theorem Mod.putMem_stg (s : Mod) (p : Nat) (cells : List WCell) : (s.putMem p cells).stg = s.stg := rfl
@[simp] theorem Mod.putMem_ue (s : Mod) (p : Nat) (cells : List WCell) : (s.putMem p cells).ue = s.ue := rfl
@[simp] theorem Mod.putMem_zl (s : Mod) (p : Nat) (cells : List WCell) : (s.putMem p cells).zl = s.zl := rfl
@[simp] theorem Mod.putMem_rel (s : Mod) (p : Nat) (cells : List WCell) : (s.putMem p cells).rel = s.rel := rfl
@[simp] theorem Mod.putMem_sec (s : Mod) (p : Nat) (cells : List WCell) : (s.putMem p cells).sec = s.sec := rfl
@[simp] theorem Mod.putMem_ob (s : Mod) (p : Nat) (cells : List WCell) : (s.putMem p cells).ob = s.ob := rfl
@[simp] theorem Mod.putMem_pwr (s : Mod) (p : Nat) (cells : List WCell) : (s.putMem p cells).pwr = s.pwr := rfl

@[simp] theorem Mod.setSlot_io (s : Mod) (fn k : Nat) (c : CtSlot) : (s.setSlot fn k c).io = s.io := rfl
@[simp] theorem Mod.setSlot_fc (s : Mod) (fn k : Nat) (c : CtSlot) : (s.setSlot fn k c).fc = s.fc := rfl
@[simp] theorem Mod.setSlot_rf (s : Mod) (fn k : Nat) (c : CtSlot) : (s.setSlot fn k c).rf = s.rf := rfl
@[simp] theorem Mod.setSlot_wr (s : Mod) (fn k : Nat) (c : CtSlot) : (s.setSlot fn k c).wr = s.wr := rfl
@[simp] theorem Mod.setSlot_cq (s : Mod) (fn k : Nat) (c : CtSlot) : (s.setSlot fn k c).cq = s.cq := rfl
@[simp] theorem Mod.setSlot_pci (s : Mod) (fn k : Nat) (c : CtSlot) : (s.setSlot fn k c).pci = s.pci := rfl
@[simp] theorem Mod.setSlot_mem (s : Mod) (fn k : Nat) (c : CtSlot) : (s.setSlot fn k c).mem = s.mem := rfl
@[simp] theorem Mod.setSlot_tile (s : Mod) (fn k : Nat) (c : CtSlot) : (s.setSlot fn k c).tile = s.tile := rfl
@[simp] theorem Mod.setSlot_td (s : Mod) (fn k : Nat) (c : CtSlot) : (s.setSlot fn k c).td = s.td := rfl
@[simp] theorem Mod.setSlot_stg (s : Mod) (fn k : Nat) (c : CtSlot) : (s.setSlot fn k c).stg = s.stg := rfl
@[simp] theorem Mod.setSlot_ue (s : Mod) (fn k : Nat) (c : CtSlot) : (s.setSlot fn k c).ue = s.ue := rfl
@[simp] theorem Mod.setSlot_zl (s : Mod) (fn k : Nat) (c : CtSlot) : (s.setSlot fn k c).zl = s.zl := rfl
@[simp] theorem Mod.setSlot_rel (s : Mod) (fn k : Nat) (c : CtSlot) : (s.setSlot fn k c).rel = s.rel := rfl
@[simp] theorem Mod.setSlot_sec (s : Mod) (fn k : Nat) (c : CtSlot) : (s.setSlot fn k c).sec = s.sec := rfl
@[simp] theorem Mod.setSlot_ob (s : Mod) (fn k : Nat) (c : CtSlot) : (s.setSlot fn k c).ob = s.ob := rfl
@[simp] theorem Mod.setSlot_pwr (s : Mod) (fn k : Nat) (c : CtSlot) : (s.setSlot fn k c).pwr = s.pwr := rfl

/-! ## Open numbers -/

@[simp] theorem Mod.fresh_fc (s : Mod) (g : Nat → Nat) : (s.fresh g).2.fc = s.fc := rfl
@[simp] theorem Mod.fresh_rf (s : Mod) (g : Nat → Nat) : (s.fresh g).2.rf = s.rf := rfl
@[simp] theorem Mod.fresh_ct (s : Mod) (g : Nat → Nat) : (s.fresh g).2.ct = s.ct := rfl
@[simp] theorem Mod.fresh_wr (s : Mod) (g : Nat → Nat) : (s.fresh g).2.wr = s.wr := rfl
@[simp] theorem Mod.fresh_cq (s : Mod) (g : Nat → Nat) : (s.fresh g).2.cq = s.cq := rfl
@[simp] theorem Mod.fresh_pci (s : Mod) (g : Nat → Nat) : (s.fresh g).2.pci = s.pci := rfl
@[simp] theorem Mod.fresh_mem (s : Mod) (g : Nat → Nat) : (s.fresh g).2.mem = s.mem := rfl
@[simp] theorem Mod.fresh_tile (s : Mod) (g : Nat → Nat) : (s.fresh g).2.tile = s.tile := rfl
@[simp] theorem Mod.fresh_td (s : Mod) (g : Nat → Nat) : (s.fresh g).2.td = s.td := rfl
@[simp] theorem Mod.fresh_stg (s : Mod) (g : Nat → Nat) : (s.fresh g).2.stg = s.stg := rfl
@[simp] theorem Mod.fresh_ue (s : Mod) (g : Nat → Nat) : (s.fresh g).2.ue = s.ue := rfl
@[simp] theorem Mod.fresh_zl (s : Mod) (g : Nat → Nat) : (s.fresh g).2.zl = s.zl := rfl
@[simp] theorem Mod.fresh_rel (s : Mod) (g : Nat → Nat) : (s.fresh g).2.rel = s.rel := rfl
@[simp] theorem Mod.fresh_sec (s : Mod) (g : Nat → Nat) : (s.fresh g).2.sec = s.sec := rfl
@[simp] theorem Mod.fresh_ob (s : Mod) (g : Nat → Nat) : (s.fresh g).2.ob = s.ob := rfl
@[simp] theorem Mod.fresh_pwr (s : Mod) (g : Nat → Nat) : (s.fresh g).2.pwr = s.pwr := rfl

/-- Work within a bound takes at least one frame and at most the bound. -/
theorem spanOf_range (b : Nat) (key : List Nat) : 1 ≤ spanOf b key ∧ spanOf b key ≤ max 1 b := by
  unfold spanOf
  split
  · exact ⟨Nat.le_refl 1, Nat.le_max_left 1 b⟩
  · have := Nat.mod_lt (Config.span (b :: key)) (by omega : 0 < b)
    omega

/-- A plan takes no fewer frames than its rate needs, and no more than its bound where the two agree. -/
theorem Plan.span_range (p : Plan) (key : List Nat) (h : 1 ≤ p.least) (hb : p.least ≤ p.bound) : p.least ≤ p.span key ∧ p.span key ≤ p.bound := by
  have := spanOf_range (p.bound + 1 - p.least) key
  unfold Plan.span
  omega

/-! ## Registers -/



theorem Regs.get_put_ne (rf : Regs) {r q : RegName} {i j : Nat} (v : Word) (h : regKey q j ≠ regKey r i) : (rf.put r i v).get q j = rf.get q j := by
  unfold Regs.put Regs.get
  split
  · exact Tbl.getD_del_ne _ _ h
  · exact Tbl.getD_set_ne _ _ _ h

@[simp] theorem Regs.get_put_same (rf : Regs) (r : RegName) (i : Nat) (v : Word) : (rf.put r i v).get r i = v := by
  unfold Regs.put Regs.get
  split
  · next e => rw [Tbl.getD_del_same, e]
  · exact Tbl.getD_set_same _ _ _ _

/-- A register that is set reads back. -/
@[simp] theorem Mod.rd_put_same (s : Mod) (r : RegName) (i : Nat) (v : Word) : (s.put r i v).rd r i = v := Regs.get_put_same s.rf r i v

/-- Setting a register leaves every other. -/
theorem Mod.rd_put_ne (s : Mod) {r q : RegName} {i j : Nat} (v : Word) (h : regKey q j ≠ regKey r i) : (s.put r i v).rd q j = s.rd q j := Regs.get_put_ne s.rf v h

/-! ## The answers of rows -/

/-- A guarded row answers a next state exactly where its guard holds, and then with its effect on the module alone. -/
theorem State.when_next {s t : State} {b : Bool} {m : Mod} : s.when b m = .next t ↔ b = true ∧ t = { s with m := m } := by
  unfold State.when
  split
  · next h => simp [h, eq_comm]
  · next h => simp [h]

theorem State.when_true {s : State} {b : Bool} (m : Mod) (h : b = true) : s.when b m = .next { s with m := m } := by simp [State.when, h]

/-- A guarded row never faults. -/
theorem State.when_not_fault {s : State} {b : Bool} {m : Mod} {r : Fault} : s.when b m ≠ .fault r := by
  unfold State.when
  split <;> simp

/-- A guarded row that does not answer a next state is refused by name. -/
theorem State.when_refused {s : State} {b : Bool} {m : Mod} {r : Refusal} : s.when b m = .refused r ↔ b = false ∧ r = .notEnabled := by
  unfold State.when
  split
  · next h => simp [h]
  · next h => simp [h, eq_comm]

/-- A host access is a guarded row: the port is up. -/
theorem State.host_next {s t : State} {h : Port} {a : HostAcc} : s.host h a = .next t ↔ s.m.pci.up = true ∧ t = { s with m := s.m.hostAcc h.win a } := State.when_next

end Sys2Proof.Machine
end

