-- ==== Sys2Proof/Laws/Mem.lean ====
section
/-! SUPPORT. The operations on device memory: each keeps the canonical form of its list, and what else each may change. -/

namespace Sys2Proof.Machine

/-! ## Masked writes and reducers -/

theorem Memory.wf_putOne {s : Mod} {p : Nat} {l : List Host.Cell} (w : WCell) (h : Memory.wf l = true) : Memory.wf (s.putOne p l w) = true := by
  unfold Mod.putOne
  split
  · exact Memory.wf_putCell _ h
  · exact h

/-- Masked writes through a page table keep memory canonical. -/
theorem Mod.wf_putMem {s : Mod} (p : Nat) (cells : List WCell) (h : Memory.wf s.mem.cells = true) : Memory.wf (s.putMem p cells).mem.cells = true :=
  foldl_keeps (P := fun l => Memory.wf l = true) (fun _ _ hl => Memory.wf_putOne _ hl) cells h

/-- Masked writes of memory change its bytes alone. -/
theorem Mod.putMem_spec (s : Mod) (p : Nat) (cells : List WCell) :
    s.putMem p cells = { s with mem := { s.mem with cells := (s.putMem p cells).mem.cells } } := rfl

/-- Writes of physical memory keep it canonical. -/
theorem Mod.wf_putPhys {s : Mod} (a : Nat) (bs : List Byte) (h : Memory.wf s.mem.cells = true) : Memory.wf (s.putPhys a bs).mem.cells = true :=
  foldl_keeps (P := fun l => Memory.wf l = true) (fun _ _ hl => Memory.wf_putCell _ hl) _ h

/-- A reducer's write keeps memory canonical. -/
theorem Mod.wf_reduceAt {s : Mod} (p addr : Nat) (cs : List Contrib) (h : Memory.wf s.mem.cells = true) : Memory.wf (s.reduceAt p addr cs).1.mem.cells = true := by
  unfold Mod.reduceAt
  split
  · exact h
  · simpa using Mod.wf_putMem p _ h

/-- The reducers' writes of a frame keep memory canonical. -/
theorem Mod.wf_reduceAll {s : Mod} (p : Nat) (cs : List Contrib) (h : Memory.wf s.mem.cells = true) : Memory.wf (s.reduceAll p cs).1.mem.cells = true :=
  foldl_keeps (P := fun x : Mod × List Nat => Memory.wf x.1.mem.cells = true) (fun _ _ hb => Mod.wf_reduceAt p _ _ hb) _ h

/-! ## Pages -/

/-- Zeroing a page keeps memory canonical. -/
theorem Mem.wf_zeroPage {m : Mem} (id : Nat) (h : Memory.wf m.cells = true) : Memory.wf (m.zeroPage id).cells = true := Memory.wf_filter _ h

/-- A zeroed page reads as zeros, every other page as before. -/
theorem Mem.zeroPage_bytes (m : Mem) (id : Nat) : (∀ c ∈ (m.zeroPage id).cells, c.1 / 2 ^ 21 ≠ id) ∧ ∀ c ∈ m.cells, c.1 / 2 ^ 21 ≠ id → c ∈ (m.zeroPage id).cells := by
  constructor
  · intro c hc
    simpa using (List.mem_filter.1 hc).2
  · intro c hc hn
    exact List.mem_filter.2 ⟨hc, by simpa using hn⟩

/-- A sub-block's copy keeps memory canonical. -/
theorem Mem.wf_copySub {m : Mem} (src dst k : Nat) (h : Memory.wf m.cells = true) : Memory.wf (m.copySub src dst k).cells = true :=
  foldl_keeps (P := fun l => Memory.wf l = true) (fun _ _ hl => Memory.wf_putByte _ _ hl) _ (Memory.wf_filter _ h)

@[simp] theorem Mem.zeroPage_cells (m : Mem) (id : Nat) : (m.zeroPage id).cells = m.cells.filter fun c => c.1 / 2 ^ 21 != id := rfl

/-- A frame that enters zeroing loses its bytes, and no other byte changes. -/
theorem Mod.queueZero_cells (s : Mod) (id : Nat) (retired : Bool) : (s.queueZero id retired).mem.cells = (s.mem.zeroPage id).cells := by
  cases retired <;> simp [Mod.queueZero]

/-- A frame that enters zeroing keeps memory canonical. -/
theorem Mod.wf_queueZero {s : Mod} (id : Nat) (retired : Bool) (h : Memory.wf s.mem.cells = true) : Memory.wf (s.queueZero id retired).mem.cells = true := by
  rw [Mod.queueZero_cells]
  exact Mem.wf_zeroPage id h

/-- Taking pages from their free lists leaves the bytes of memory alone. -/
@[simp] theorem Mem.takePages_cells (m : Mem) (ids : List Nat) : (m.takePages ids).cells = m.cells := by
  unfold Mem.takePages
  exact foldl_keeps (P := fun x : Mem => x.cells = m.cells) (fun _ _ hb => by simpa using hb) ids rfl

/-- An allocation leaves the bytes of memory alone. -/
@[simp] theorem Mod.putObj_cells (s : Mod) (p n : Nat) (o : Obj) (frames : List Nat) (sys : List (Nat × Nat)) : (s.putObj p n o frames sys).mem.cells = s.mem.cells := by
  simp [Mod.putObj]

/-- A migration's start leaves the bytes of memory alone. -/
@[simp] theorem Mod.putMigs_cells (s : Mod) (p : Nat) (l : List Mig) : (s.putMigs p l).mem.cells = s.mem.cells := by
  simp [Mod.putMigs]

/-- A sub-block that becomes AT_DEST keeps memory canonical. -/
theorem Mod.wf_landSub {s : Mod} (p page k : Nat) (h : Memory.wf s.mem.cells = true) : Memory.wf (s.landSub p page k).mem.cells = true := by
  unfold Mod.landSub
  split
  · exact Mem.wf_copySub _ _ _ h
  · exact h

/-- A migration's end keeps memory canonical. -/
theorem Mod.wf_landMig {s : Mod} (p page : Nat) (h : Memory.wf s.mem.cells = true) : Memory.wf (s.landMig p page).mem.cells = true := by
  cases h1 : s.mem.migs.find? (fun g => g.pol == p && g.page == page) with
  | none => simpa [Mod.landMig, h1] using h
  | some g =>
    cases h2 : s.mem.pages.get (pageKey p page) with
    | none => simpa [Mod.landMig, h1, h2] using h
    | some e =>
      by_cases h3 : g.moved < 32
      · simpa [Mod.landMig, h1, h2, h3] using h
      · simp only [Mod.landMig, h1, h2, if_neg h3, Mod.queueZero_cells]
        exact Mem.wf_zeroPage (m := s.mem) _ h

/-- Sub-blocks' copies keep memory canonical. -/
theorem Mem.wf_copySubs (src dst : Nat) (l : List Nat) {m : Mem} (h : Memory.wf m.cells = true) : Memory.wf (l.foldl (fun (m : Mem) k => m.copySub src dst k) m).cells = true :=
  foldl_keeps (P := fun m : Mem => Memory.wf m.cells = true) (fun _ _ hm => Mem.wf_copySub _ _ _ hm) l h

/-- Memory without one of its migrations. -/
theorem Mem.wf_migs {m : Mem} (l : List Mig) (h : Memory.wf m.cells = true) : Memory.wf ({ m with migs := l } : Mem).cells = true := h

/-- Memory put as a whole, with a frame of it zeroed. -/
theorem Mod.wf_putZero (s : Mod) {m : Mem} (id : Nat) (h : Memory.wf m.cells = true) : Memory.wf (({ s with mem := m } : Mod).queueZero id false).mem.cells = true :=
  Mod.wf_queueZero id false h

/-- A page that stays at its source keeps memory canonical. -/
theorem Mem.wf_unmove {m : Mem} (g : Mig) (h : Memory.wf m.cells = true) : Memory.wf (m.unmove g).cells = true := by
  have h' := Mem.wf_migs (m := m) (m.migs.filter (· != g)) h
  cases hp : m.pages.get (pageKey g.pol g.page) with
  | none =>
    simp only [Mem.unmove, hp]
    exact h'
  | some e =>
    simp only [Mem.unmove, hp]
    exact Mem.wf_copySubs _ _ _ h'

/-- A migration that is given up keeps memory canonical. -/
theorem Mod.wf_dropMig {s : Mod} (g : Mig) (h : Memory.wf s.mem.cells = true) : Memory.wf (s.dropMig g).mem.cells = true :=
  Mod.wf_putZero s _ (Mem.wf_unmove g h)

/-! ## Blocks of physical memory -/

theorem rising_wf {l : List Host.Cell} {b : Nat} (hz : ∀ c ∈ l, c.2 ≠ 0) :
    keysRise (rising b l) = true ∧ (∀ c ∈ rising b l, c.2 ≠ 0 ∧ b ≤ c.1 ∧ c ∈ l) := by
  induction l generalizing b with
  | nil => simp [rising, keysRise]
  | cons c l ih =>
    have hz' : ∀ d ∈ l, d.2 ≠ 0 := fun d hd => hz d (by simp [hd])
    simp only [rising]
    split
    · rename_i hb
      obtain ⟨h1, h2⟩ := ih (b := c.1 + 1) hz'
      refine ⟨(keysRise_cons _ _).2 ⟨fun d hd => ?_, h1⟩, fun d hd => ?_⟩
      · have := (h2 d hd).2.1
        omega
      · rcases List.mem_cons.1 hd with rfl | hd
        · exact ⟨hz d (by simp), hb, by simp⟩
        · obtain ⟨g1, g2, g3⟩ := h2 d hd
          exact ⟨g1, by omega, by simp [g3]⟩
    · obtain ⟨h1, h2⟩ := ih (b := b) hz'
      exact ⟨h1, fun d hd => ⟨(h2 d hd).1, (h2 d hd).2.1, by simp [(h2 d hd).2.2]⟩⟩

theorem keysRise_append {α : Type} {l k : List (Nat × α)} (h1 : keysRise l = true) (h2 : keysRise k = true) (h : ∀ x ∈ l, ∀ y ∈ k, x.1 < y.1) :
    keysRise (l ++ k) = true := by
  induction l with
  | nil => simpa using h2
  | cons c l ih =>
    obtain ⟨ha, hr⟩ := (keysRise_cons _ _).1 h1
    refine (keysRise_cons _ _).2 ⟨fun d hd => ?_, ih hr fun x hx => h x (by simp [hx])⟩
    rcases List.mem_append.1 hd with hd | hd
    · exact ha d hd
    · exact h c (by simp) d hd

/-- A block written as a whole keeps a memory list canonical. -/
theorem Memory.wf_putBlock {l : List Host.Cell} (base len : Nat) (bs : List (Nat × List Byte)) (h : Memory.wf l = true) :
    Memory.wf (putBlock l base len bs) = true := by
  obtain ⟨hr, hz⟩ := (Memory.wf_iff l).1 h
  have hnew : ∀ c ∈ (bs.flatMap fun x => x.2.zipIdx.map fun b => (x.1 + b.2, b.1)).filterMap fun c : Nat × Byte =>
      if c.1 < len ∧ c.2 ≠ 0 then some (base + c.1, c.2) else none, c.2 ≠ 0 ∧ base ≤ c.1 ∧ c.1 < base + len := by
    intro c hc
    obtain ⟨d, -, hd⟩ := List.mem_filterMap.1 hc
    split at hd
    · rename_i hh
      cases hd
      exact ⟨hh.2, by simp, by simpa using hh.1⟩
    · cases hd
  obtain ⟨g1, g2⟩ := rising_wf (b := base) fun c hc => (hnew c hc).1
  unfold putBlock
  refine (Memory.wf_iff _).2 ⟨?_, ?_⟩
  · refine keysRise_append (keysRise_append (keysRise_filter hr) g1 ?_) (keysRise_filter hr) ?_
    · intro x hx y hy
      have := (List.mem_filter.1 hx).2
      have := (g2 y hy).2.1
      simp at *
      omega
    · intro x hx y hy
      have hy := (List.mem_filter.1 hy).2
      rcases List.mem_append.1 hx with hx | hx
      · have := (List.mem_filter.1 hx).2
        simp at *
        omega
      · have := (hnew x (g2 x hx).2.2).2.2
        simp at *
        omega
  · intro c hc
    rcases List.mem_append.1 hc with hc | hc
    · rcases List.mem_append.1 hc with hc | hc
      · exact hz c (List.mem_filter.1 hc).1
      · exact (g2 c hc).1
    · exact hz c (List.mem_filter.1 hc).1

/-- A recovery snapshot keeps memory canonical. -/
theorem Mod.wf_snapOne {s : Mod} (reason kind index p : Nat) (h : Memory.wf s.mem.cells = true) : Memory.wf (Mod.snapOne reason kind index s p).mem.cells = true := by
  unfold Mod.snapOne
  split
  · exact h
  · exact Memory.wf_putBlock _ _ _ h

/-- The recovery snapshots of a domain keep memory canonical. -/
theorem Mod.wf_snapshot {s : Mod} (reason kind index : Nat) (h : Memory.wf s.mem.cells = true) : Memory.wf (s.snapshot reason kind index).mem.cells = true :=
  foldl_keeps (P := fun x : Mod => Memory.wf x.mem.cells = true) (fun _ _ hb => Mod.wf_snapOne _ _ _ _ hb) _ h

/-- Memory right after reset is canonical: it lists nothing. -/
theorem State.reset_mem_wf : Memory.wf State.reset.m.mem.cells = true := rfl

end Sys2Proof.Machine
end

