-- ==== Sys2Proof/Laws/Ops.lean ====
section
/-! SUPPORT. What the shared operations of packets, management packets and host accesses can do, said once for each. -/

namespace Sys2Proof.Machine

/-! ## Packets -/

/-- A row of a granted packet may happen in the frame, where its command is there, granted, and of the row's opcode. -/
theorem Mod.granted_iff {s : Mod} {c : CmdId} {op : Nat} : s.granted c op = true ↔ s.inFrame = true ∧ ∃ x, s.cmd c = some x ∧ x.phase = .granted ∧ x.opcode = op := by
  unfold Mod.granted
  cases h : s.cmd c <;> simp

/-- A command that is found is of its queue and number, and no management packet. -/
theorem Mod.cmd_spec {s : Mod} {c : CmdId} {x : Cmd} (h : s.cmd c = some x) : x ∈ s.cq.cmds ∧ x.mgmt = false ∧ x.qn = c.q.val ∧ x.seq = c.seq.toNat := by
  have h1 := List.mem_of_find?_eq_some h
  have h2 := List.find?_some h
  simp at h2
  exact ⟨h1, h2.1.1, h2.1.2, h2.2⟩

/-- A management packet that is found is of its function's queue and index. -/
theorem Mod.mgmtCmd_spec {s : Mod} {f : Fin 8} {k : Fin 16} {x : Cmd} (h : s.mgmtCmd f k = some x) : x ∈ s.cq.cmds ∧ x.mgmt = true ∧ x.qn = f.val ∧ x.seq = k.val := by
  have h1 := List.mem_of_find?_eq_some h
  have h2 := List.find?_some h
  simp at h2
  exact ⟨h1, h2.1.1, h2.1.2, h2.2⟩

/-- What the commands are once one of them is put back. -/
theorem Mod.setCmd_cmds (s : Mod) (c : Cmd) : (s.setCmd c).cq = { s.cq with cmds := s.cq.cmds.map fun x => if x.same c then c else x } := rfl

/-- A command put back is the only one that changes. -/
theorem Mod.setCmd_others {s : Mod} {c x : Cmd} (hx : x ∈ s.cq.cmds) (h : x.same c = false) : x ∈ (s.setCmd c).cq.cmds :=
  List.mem_map.2 ⟨x, hx, by simp [h]⟩

/-- Work that runs for some frames stages what is due in this one, keeps the rest for its own frames with its command, and changes nothing else. -/
theorem Mod.landIn_spec (s : Mod) (c : Cmd) (p : Plan) (m : Nat) :
    ∃ d l, s.landIn c p m = { s with cq := { s.cq with cmds := s.cq.cmds.map fun x => if x.same c then d else x }, stg := s.stg ++ l }
      ∧ d.qn = c.qn ∧ d.seq = c.seq ∧ d.mgmt = c.mgmt ∧ (s.closedTo c = true → d.status = 0x05 ∧ l = [])
      ∧ (s.closedTo c = false → d.phase = .running ∧ d.first = s.fc.num ∧ d.fin = s.fc.num + (m - 1) ∧ d.status = p.status ∧ d.result = BitVec.ofNat 64 p.result) := by
  unfold Mod.landIn
  cases h : s.closedTo c
  · exact ⟨_, _, rfl, rfl, rfl, rfl, by simp, fun _ => ⟨rfl, rfl, rfl, rfl, rfl⟩⟩
  · refine ⟨{ c with phase := .decided, status := 0x05, detail := noDetail, fin := s.fc.num, first := if c.first = 0 then 0 else c.first }, [], ?_, ?_⟩
    · simp only [if_true, Mod.finish, Mod.setCmd, List.append_nil]
      rfl
    · exact ⟨rfl, rfl, rfl, fun _ => ⟨rfl, rfl⟩, by simp⟩

/-- A packet's plan runs, or its failed check completes it with no work done. -/
theorem Mod.runPlan_cases (s : Mod) (c : Cmd) (p : Chk Plan) :
    (s.closedTo c = true ∧ s.runPlan c p = s.finish c 0x05 noDetail)
    ∨ (∃ st d, s.closedTo c = false ∧ p = .error (st, d) ∧ s.runPlan c p = s.finish c st d)
    ∨ ∃ q, s.closedTo c = false ∧ p = .ok q ∧ s.runPlan c p = s.landIn c q (q.span (s.placeOf c.step c.pol ++ c.words.map (·.toNat))) := by
  unfold Mod.runPlan
  cases h : s.closedTo c
  · cases p with
    | error e => exact .inr (.inl ⟨e.1, e.2, rfl, rfl, rfl⟩)
    | ok q => exact .inr (.inr ⟨q, rfl, rfl, rfl⟩)
  · exact .inl ⟨rfl, rfl⟩

/-- A packet-only row: the work of its command is stalled by an access that does not complete, or its plan runs. -/
theorem Mod.runCmd_cases {s : Mod} {c : CmdId} {x : Cmd} (plan : Mod → Ctx → List Word → Chk Plan) (h : s.cmd c = some x) :
    (∃ d, stalls (plan s (s.ctxOf x) x.params) = some d ∧ s.runCmd c plan = s.stall x none d)
    ∨ (stalls (plan s (s.ctxOf x) x.params) = none ∧ s.runCmd c plan = s.bump.runPlan x (plan s (s.ctxOf x) x.params)) := by
  unfold Mod.runCmd
  rw [h]
  cases hd : stalls (plan s (s.ctxOf x) x.params) with
  | some d => exact .inl ⟨d, rfl, by simp only [hd]⟩
  | none => exact .inr ⟨rfl, by simp only [hd]⟩

/-! ## Management packets -/

/-- A management packet's row happens where the packet is there, of the row's opcode, and may execute now; its failed check completes it, else it acts. -/
theorem State.mgmt_next {s t : State} {f : Fin 8} {k : Fin 16} {op : Nat} {act : Mod → Cmd → Mod} (h : s.mgmt f k op act = .next t) :
    ∃ x, s.m.fc.window = none ∧ s.m.mgmtCmd f k = some x ∧ x.opcode = op ∧ s.m.mgmtOpen x = true
      ∧ ((∃ st d, s.m.mgmtChk x = .error (st, d) ∧ t = { s with m := s.m.mgmtEnd x st d 0 }) ∨ (s.m.mgmtChk x = .ok () ∧ t = { s with m := act s.m x })) := by
  obtain ⟨h1, rfl⟩ := State.when_next.1 h
  unfold Mod.mgmtReady at h1
  cases hx : s.m.mgmtCmd f k with
  | none => simp [hx] at h1
  | some x =>
    simp [hx] at h1
    refine ⟨x, h1.1, rfl, h1.2.1, h1.2.2, ?_⟩
    unfold Mod.mgmtRun
    cases hc : s.m.mgmtChk x with
    | error e => exact .inl ⟨e.1, e.2, rfl, by simp only [hc]⟩
    | ok u => exact .inr ⟨rfl, by simp only [hc]⟩

/-- A management packet that is decided changes the commands alone. -/
theorem Mod.mgmtEnd_spec (s : Mod) (c : Cmd) (st d r : Nat) : s.mgmtEnd c st d r = { s with cq := (s.mgmtEnd c st d r).cq } := rfl

/-! ## Host accesses -/

/-- A host access outside a sluice window: turned away, performed, or held for a stopped die. -/
theorem Mod.access_cases (s : Mod) (a : HostAcc) :
    (((a.fn ∉ s.pci.memEn ∨ a.allowed = false) ∧ s.access a = if a.isRead then s.emit (.unsupported a.fn) else s))
    ∨ (a.fn ∈ s.pci.memEn ∧ a.allowed = true ∧ s.reach a = .live ∧ s.access a = s.perform a)
    ∨ (a.fn ∈ s.pci.memEn ∧ a.allowed = true ∧ s.reach a = .inReset ∧ s.access a = if a.isRead then s.emit (.abortCompletion a.fn) else s.dropWrite)
    ∨ ∃ d, a.fn ∈ s.pci.memEn ∧ a.allowed = true ∧ s.reach a = .stopped d ∧ s.access a = s.holdFor d a := by
  unfold Mod.access
  by_cases h1 : a.fn ∈ s.pci.memEn <;> by_cases h2 : a.allowed = true
  · have h3 : has s.pci.memEn a.fn = true := List.any_eq_true.2 ⟨a.fn, h1, by simp⟩
    right
    cases hr : s.reach a with
    | live => exact .inl ⟨h1, h2, rfl, by simp [h3, h2]⟩
    | inReset => exact .inr (.inl ⟨h1, h2, rfl, by simp [h3, h2]⟩)
    | stopped d => exact .inr (.inr ⟨d, h1, h2, rfl, by simp [h3, h2]⟩)
  · exact .inl ⟨.inr (by simpa using h2), by simp [h2]⟩
  all_goals
    have h3 : has s.pci.memEn a.fn = false := by
      rw [has, List.any_eq_false]
      intro x hx hxa
      exact h1 (by simp at hxa; exact hxa ▸ hx)
    exact .inl ⟨.inl h1, by simp [h3]⟩

/-- A host access in a sluice window is held, and changes nothing else. -/
theorem Mod.hostAcc_held {s : Mod} {win : Bool} (a : HostAcc) (h : s.running = true) (hw : win = true ∨ s.inFrame = false) :
    s.hostAcc win a = { s with pci := { s.pci with held := s.pci.held ++ [a] } } := by
  rcases hw with hw | hw <;> simp [Mod.hostAcc, h, hw]

/-- A host access outside a sluice window is an access. -/
theorem Mod.hostAcc_open {s : Mod} {win : Bool} (a : HostAcc) (h : (win = false ∧ s.inFrame = true) ∨ s.running = false) : s.hostAcc win a = s.access a := by
  rcases h with ⟨h, hf⟩ | h
  · simp [Mod.hostAcc, h, hf]
  · simp [Mod.hostAcc, h]

end Sys2Proof.Machine
end

