-- ==== Sys2Proof/Laws/Regs.lean ====
section
/-! SUPPORT. The BAR0 map: the offset of a register that a row of its own writes leads back to the register and its index. -/

namespace Sys2Proof.Machine

/-- A block with one dimension holds its register at every index. -/
theorem RegBlk.at_hit {b : RegBlk} {st ct i o : Nat} {r : RegName} (hd : b.dims = [(st, ct)]) (hi : i < ct) (ho : o < st) (hr : b.regs.lookup o = some r) :
    b.at (b.base + st * i + o) = some (r, i) := by
  have h1 : (st * i + o) / st = i := by
    rw [Nat.mul_add_div (by omega), Nat.div_eq_of_lt ho]; rfl
  have h2 : (st * i + o) % st = o := by
    rw [Nat.mul_add_mod, Nat.mod_eq_of_lt ho]
  have h3 : b.base + st * i + o - b.base = st * i + o := by omega
  have h4 : ¬ (b.base + st * i + o < b.base) := by omega
  simp [RegBlk.at, walkDims, hd, h1, h2, h3, h4, hi, hr]

/-- A block with one dimension has nothing past its last index. -/
theorem RegBlk.at_past {b : RegBlk} {off st ct : Nat} (hd : b.dims = [(st, ct)]) (h0 : 0 < st) (h : b.base + ct * st ≤ off) : b.at off = none := by
  have h1 : ¬ off < b.base := by omega
  have h2 : ct ≤ (off - b.base) / st := (Nat.le_div_iff_mul_le h0).2 (by omega)
  have h3 : ¬ (off - b.base) / st < ct := by omega
  simp [RegBlk.at, hd, walkDims, h1, h3]

/-- A block without dimensions has nothing past its registers. -/
theorem RegBlk.at_past_flat {b : RegBlk} {off top : Nat} (hd : b.dims = []) (hr : ∀ x ∈ b.regs, b.base + x.1 < top) (h : top ≤ off) (hb : b.base ≤ top) : b.at off = none := by
  have h1 : ¬ off < b.base := by omega
  have h2 : b.regs.lookup (off - b.base) = none := by
    have key : ∀ l : List (Nat × RegName), (∀ x ∈ l, b.base + x.1 < top) → l.lookup (off - b.base) = none := by
      intro l
      induction l with
      | nil => intro _; rfl
      | cons x l ih =>
        intro hx
        have hne : (off - b.base == x.1) = false := by
          have := hx x (by simp)
          simp only [beq_eq_false_iff_ne, ne_eq]
          omega
        simp [List.lookup, hne, ih fun y hy => hx y (by simp [hy])]
    exact key _ hr
  simp [RegBlk.at, hd, walkDims, h1, h2]

/-- The register at an offset that the first k blocks do not have and the next one has. -/
theorem regAt_block {off k : Nat} {b : RegBlk} {x : RegName × Nat} (h : ∀ c ∈ regBlks.take k, c.at off = none) (hk : regBlks[k]? = some b)
    (hx : b.at off = some x) : regAt off = some x := by
  have e : regBlks.drop k = b :: regBlks.drop (k + 1) := by
    obtain ⟨hlt, rfl⟩ := List.getElem?_eq_some_iff.1 hk
    exact List.drop_eq_getElem_cons hlt
  rw [regAt]
  conv => lhs; rw [← List.take_append_drop k regBlks]
  rw [List.findSome?_append, List.findSome?_eq_none_iff.2 h, e]
  simp [List.findSome?, hx]

/-- The blocks below the queues' have nothing from 0x10_0000 on. -/
theorem low_blocks {off : Nat} (h : 0x100000 ≤ off) : ∀ c ∈ regBlks.take 3, c.at off = none := by
  intro c hc
  have e : regBlks.take 3 = [regBlks[0], regBlks[1], regBlks[2]] := rfl
  rw [e] at hc
  simp only [List.mem_cons, List.not_mem_nil, or_false] at hc
  rcases hc with rfl | rfl | rfl
  · exact RegBlk.at_past_flat (top := 0x100000) rfl (by decide) h (by decide)
  · exact RegBlk.at_past (st := 0x40) (ct := 4) rfl (by decide) (Nat.le_trans (by decide) h)
  · exact RegBlk.at_past (st := 0x2000) (ct := 8) rfl (by decide) (Nat.le_trans (by decide) h)

/-- The blocks below the weirs' have nothing from 0x20_0000 on. -/
theorem queue_blocks {off : Nat} (h : 0x200000 ≤ off) : ∀ c ∈ regBlks.take 4, c.at off = none := by
  intro c hc
  have e : regBlks.take 4 = regBlks.take 3 ++ [regBlks[3]] := rfl
  rw [e] at hc
  rcases List.mem_append.1 hc with hc | hc
  · exact low_blocks (Nat.le_trans (by decide) h) c hc
  · rw [List.mem_singleton.1 hc]
    exact RegBlk.at_past (st := 0x40) (ct := 16384) rfl (by decide) (Nat.le_trans (by decide) h)

/-- A register of a queue stands at its offset in the queue's block (R310). -/
theorem regAt_queue {q o : Nat} {r : RegName} (hq : q < 16384) (ho : o < 0x40) (hr : regBlks[3].regs.lookup o = some r) :
    regAt (regBlks[3].base + 0x40 * q + o) = some (r, q) :=
  regAt_block (k := 3) (low_blocks (by have : regBlks[3].base = 0x100000 := rfl; omega)) rfl (RegBlk.at_hit (ct := 16384) rfl hq ho hr)

/-- A register of a weir stands at its offset in the weir's block (R65). -/
theorem regAt_weir {n o : Nat} {r : RegName} (hn : n < 16384) (ho : o < 0x10) (hr : regBlks[4].regs.lookup o = some r) :
    regAt (regBlks[4].base + 0x10 * n + o) = some (r, n) :=
  regAt_block (k := 4) (queue_blocks (by have : regBlks[4].base = 0x200000 := rfl; omega)) rfl (RegBlk.at_hit (ct := 16384) rfl hn ho hr)

theorem RegName.addr_of {r : RegName} {b : RegBlk} {o st ct i : Nat} (hb : r.blk = some b) (ho : b.regs.find? (fun x => x.2 = r) = some (o, r))
    (hd : b.dims = [(st, ct)]) (hi : i < ct) : r.addr i = b.base + st * i + o := by
  simp [RegName.addr, hb, ho, hd, unwalk, Nat.mod_eq_of_lt hi]

/-- The registers of a queue that rows of their own write. -/
def queueRows : List RegName := [.CQ_TAIL, .CQ_CPL_HEAD, .CQ_CMD]

/-- The registers of a weir that rows of their own write. -/
def weirRows : List RegName := [.WEIR_SIGNAL, .WEIR_CTRL]

/-- A write at the offset of a queue's register reaches that register of that queue. -/
theorem targetAt_queue {fn q : Nat} {r : RegName} (hr : r ∈ queueRows) (hq : q < 16384) : targetAt fn (r.addr q) = some (.reg r q) := by
  have key : ∀ o, r.blk = some regBlks[3] → regBlks[3].regs.find? (fun x => x.2 = r) = some (o, r) → regBlks[3].regs.lookup o = some r → o < 0x40 →
      r.perFn = false → targetAt fn (r.addr q) = some (.reg r q) := by
    intro o hb hf hl ho hp
    have hbase : regBlks[3].base = 0x100000 := rfl
    have e : r.addr q = regBlks[3].base + 0x40 * q + o := RegName.addr_of hb hf (ct := 16384) rfl hq
    have h1 : ¬ (0x8000 ≤ r.addr q ∧ r.addr q < 0x18000) := by omega
    have h2 : ¬ (0x610000 ≤ r.addr q ∧ r.addr q < 0x618000) := by omega
    rw [targetAt, if_neg h1, if_neg h2, e, regAt_queue hq ho hl]
    simp [hp]
  simp only [queueRows, List.mem_cons, List.not_mem_nil, or_false] at hr
  rcases hr with rfl | rfl | rfl
  · exact key 0x18 rfl rfl rfl (by decide) rfl
  · exact key 0x20 rfl rfl rfl (by decide) rfl
  · exact key 0x2C rfl rfl rfl (by decide) rfl

/-- A write at the offset of a weir's register reaches that register of that weir. -/
theorem targetAt_weir {fn n : Nat} {r : RegName} (hr : r ∈ weirRows) (hn : n < 16384) : targetAt fn (r.addr n) = some (.reg r n) := by
  have key : ∀ o, r.blk = some regBlks[4] → regBlks[4].regs.find? (fun x => x.2 = r) = some (o, r) → regBlks[4].regs.lookup o = some r → o < 0x10 →
      r.perFn = false → targetAt fn (r.addr n) = some (.reg r n) := by
    intro o hb hf hl ho hp
    have hbase : regBlks[4].base = 0x200000 := rfl
    have e : r.addr n = regBlks[4].base + 0x10 * n + o := RegName.addr_of hb hf (ct := 16384) rfl hn
    have h1 : ¬ (0x8000 ≤ r.addr n ∧ r.addr n < 0x18000) := by omega
    have h2 : ¬ (0x610000 ≤ r.addr n ∧ r.addr n < 0x618000) := by omega
    rw [targetAt, if_neg h1, if_neg h2, e, regAt_weir hn ho hl]
    simp [hp]
  simp only [weirRows, List.mem_cons, List.not_mem_nil, or_false] at hr
  rcases hr with rfl | rfl
  · exact key 0x8 rfl rfl rfl (by decide) rfl
  · exact key 0xC rfl rfl rfl (by decide) rfl

/-- The registers with few indices that rows of their own write, each with its number of indices. -/
def fewRows : List (RegName × Nat) :=
  [(.ZL_CTRL, 32), (.ME_CKPT_RESTORE, 4), (.MC_TILE_REMAP, 1), (.ST_STATUS, 192), (.TD_IDX_CTRL, 4), (.MT_ECC_CTRL, 1), (.BC_CTRL, 4), (.OB_BANK_CTRL, 8),
   (.MC_LEDGER_CTRL, 1), (.MC_DIE_CTRL, 1)]

/-- Where their offsets lead: outside the management blocks, to the register itself; in a bank's window, to no counter or sample. -/
theorem few_offsets : ∀ x ∈ fewRows, ∀ i : Fin x.2,
    (regAt (x.1.addr i) = some (x.1, i.val) ∧ x.1.perFn = false) ∧ decide (0x8000 ≤ x.1.addr i ∧ x.1.addr i < 0x18000) = false ∧
      (decide (0x610000 ≤ x.1.addr i ∧ x.1.addr i < 0x618000) = false
        ∨ bankTarget ((x.1.addr i - 0x610000) / 0x1000) ((x.1.addr i - 0x610000) % 0x1000) = none) := by decide +kernel

/-- A write at the offset of one of these registers reaches it. -/
theorem targetAt_few {fn i : Nat} {r : RegName} {n : Nat} (hr : (r, n) ∈ fewRows) (hi : i < n) : targetAt fn (r.addr i) = some (.reg r i) := by
  obtain ⟨⟨h1, h2⟩, h3, h4⟩ := few_offsets (r, n) hr ⟨i, hi⟩
  simp only [decide_eq_false_iff_not] at h3 h4
  rw [targetAt, if_neg h3]
  rcases h4 with h4 | h4
  · rw [if_neg h4, h1]; simp [h2]
  · split
    · rw [h4, h1]; simp [h2]
    · rw [h1]; simp [h2]

/-- A function's FC_CT_CMD stands at one offset for all functions (R50). -/
theorem targetAt_ctCmd (fn : Fin 8) : targetAt fn (RegName.addr .FC_CT_CMD 0) = some (.reg .FC_CT_CMD fn) := by
  have h : regAt (RegName.addr .FC_CT_CMD 0) = some (.FC_CT_CMD, 0) := by decide +kernel
  have e1 : ¬ (0x8000 ≤ RegName.addr .FC_CT_CMD 0 ∧ RegName.addr .FC_CT_CMD 0 < 0x18000) := by decide +kernel
  have e2 : ¬ (0x610000 ≤ RegName.addr .FC_CT_CMD 0 ∧ RegName.addr .FC_CT_CMD 0 < 0x618000) := by decide +kernel
  rw [targetAt, if_neg e1, if_neg e2, h]
  rfl

/-- A function's MQ_TAIL stands in its management block (R304). -/
theorem targetAt_mqTail : ∀ fn : Fin 8, targetAt fn (RegName.addr .MQ_TAIL fn) = some (.reg .MQ_TAIL fn) := by decide +kernel

end Sys2Proof.Machine
end

