-- ==== Sys2Proof/WellFormed.lean ====
section
/-! DEFINITION. Which commands are well formed: operands whose size the types do not fix. -/

namespace Sys2Proof

/-- Engine work is well formed: a program's parameter block is no longer than a packet's, 448 bytes (R287). -/
def Work.wellFormed : Work → Bool
  | .packet _ => true
  | .program _ ps => ps.length ≤ 112

/-- A command is well formed: a flit has 256 bytes (R350), a BAR2 access lies in the 64 GiB aperture (R494), an I3C write is at most 32 bytes with its
command byte (R498), a nonce is 32 bytes (R425), a start's failing steps are the steps 1 to 8 (R389). -/
def Instr.wellFormed : Instr → Bool
  | .flitReceive _ flit _ => flit.length == 256
  | .hostBar2Write _ off data => off.toNat + data.length ≤ 2 ^ 36
  | .hostBar2Read _ off len => off.toNat + len ≤ 2 ^ 36
  | .readSensor a | .readStatus a | .setCap a | .readCap a | .readLedger a | .readId a | .alertRead a | .alertClear a | .alertMask a => a.length ≤ 31
  | .getMeasurements _ _ _ nonce => nonce.length == 32
  | .moduleStart r => r.fails.all (fun k => k ≠ 0) && r.cut != some 0
  | .fwdProduct w | .pcsLoad w | .revProduct w | .lnFwd w | .lnBwd w | .rmsFwd w | .rmsBwd w | .smFwd w | .smBwd w | .expandW w | .quantize w
  | .amax w | .copy w | .transpose w | .convert w | .gather w | .scatterWrite w | .scatterAdd w | .windowFill w | .migrate w | .signal w | .embLookup w
  | .embScatterAdd w => w.wellFormed
  | _ => true

end Sys2Proof
end

