-- ==== Sys2Proof/Tests/Slice0.lean ====
section
/-! SUPPORT. Tests: ill-formed commands are refused, every statement's hypotheses are met by a concrete state, and the spec's worked examples come out. Expected results are the
spec's own, or worked out from its rules by hand. -/

set_option Elab.async false

open Sys2Proof Sys2Proof.Machine

namespace Sys2Proof.Tests

/-! ## Small states -/

/-- The module after a start, with nothing placed in it. -/
def live : Mod := { Mod.reset.put .MC_START_STATUS 0 0x80000008#32 with pci := { Port8.started with memEn := [0, 1, 2, 3, 4, 5, 6, 7] }, fc := { Mod.reset.fc with last := some 4, num := 5 } }

/-- The state around a module, with every supply up. -/
def around (m : Mod) : State := { State.reset with m := m, pins := ⟨true, .inRange, true, true, false, 0, 0x1FF, false, false, false, false, false⟩ }

/-- The command of queue 0 with sequence number 5. -/
def five : CmdId := ⟨0, 5⟩

/-- A granted packet of queue 0 with an opcode word and parameters. -/
def pk (op : Word) (ps : List Word) : Cmd :=
  { mgmt := false, qn := 0, seq := 5, fn := 0, pol := 0, ord := 0, accepted := 1, words := op :: List.replicate 15 0 ++ ps, slots := 1, waits := [], relAt := 1, phase := .granted, first := 0,
    fin := 0, status := 0, detail := 0, result := 0, sr := false, inexact := false, replayed := false, sigs := [], caps := [], land := [], told := false, note := 0 }

/-- A module that takes sluice 4, in a part of its window. -/
def taking (part : WinPart) (m : Mod) : Mod := { m with fc := { m.fc with num := 4, last := some 3, window := some ⟨part, [], [], false, false, false, []⟩ } }

/-- A module with one command in flight. -/
def flying (m : Mod) (x : Cmd) : Mod := { m with cq := { m.cq with cmds := [x] } }

/-! ## Well-formedness refuses what no type excludes -/

/-- A flit of 255 bytes is ill formed (R350). -/
theorem test_wf_flit_length : (Instr.flitReceive 0 (List.replicate 255 0) 0).wellFormed = false := by decide +kernel
/-- A BAR2 write past the aperture of 64 GiB is ill formed (R494). -/
theorem test_wf_bar2_write : (Instr.hostBar2Write ⟨0, false, .bar0⟩ 0xFFFFFFFFF#36 [1, 2]).wellFormed = false := by decide +kernel
/-- So is a BAR2 read (R494). -/
theorem test_wf_bar2_read : (Instr.hostBar2Read ⟨0, false, .bar0⟩ 0xFFFFFFFFF#36 2).wellFormed = false := by decide +kernel
/-- A private write of more than 32 bytes with its command byte is ill formed (R498). -/
theorem test_wf_i3c_write : (Instr.setCap (List.replicate 32 0)).wellFormed = false := by decide +kernel
/-- A nonce of 31 bytes is ill formed (R425). -/
theorem test_wf_nonce : (Instr.getMeasurements 0 none 0xF0 (List.replicate 31 0)).wellFormed = false := by decide +kernel
/-- A start has no step 0 to fail (R389). -/
theorem test_wf_start_step : (Instr.moduleStart ⟨[0], 0, [], [], 0, 0, none⟩).wellFormed = false := by decide +kernel
/-- A program's parameter block of 113 words is ill formed (R287). -/
theorem test_wf_block : (Instr.fwdProduct (.program (.step 0 0) (List.replicate 113 0))).wellFormed = false := by decide +kernel
/-- A command of each kind that is well formed. -/
theorem test_wf_accepts : (Instr.flitReceive 0 (List.replicate 256 0) 0).wellFormed = true ∧ (Instr.moduleStart ⟨[8], 0, [], [], 0, 0, none⟩).wellFormed = true
    ∧ (Instr.hostBar2Write ⟨0, false, .bar0⟩ 0xFFFFFFFFE#36 [1, 2]).wellFormed = true := by decide +kernel

/-! ## The queue and the invariants -/

/-- A queue with a command in front. -/
theorem witness_step_runs_front : ({ State.reset with pending := [Instr.pwrEnAssert, .sluice []] } : State).pending = .pwrEnAssert :: [.sluice []] := rfl
/-- An empty queue. -/
theorem witness_step_idles : State.reset.pending = [] ∧ step State.reset = .next State.reset := ⟨rfl, rfl⟩
/-- A command that answers a next state. -/
theorem witness_keeps : ∃ t, exec .pwrEnAssert State.reset = .next t := ⟨_, rfl⟩
/-- A step in a state of canonical memory. -/
theorem witness_memory : Memory.wf (around live).m.mem.cells = true ∧ ∃ t, step { around live with pending := [.sluice []] } = .next t := ⟨rfl, _, rfl⟩
/-- A step in a state whose bus target and test port are legal, and whose frame length is. -/
theorem witness_legal : I3cLegal State.reset.i3c ∧ TapLegal State.reset.tap ∧ FrameLenLegal State.reset.m.fc ∧ ∃ t, step { State.reset with pending := [.auxPowerUp 3] } = .next t := by
  refine ⟨by unfold I3cLegal; simp [State.reset], by unfold TapLegal; decide, by unfold FrameLenLegal; simp [State.reset, Mod.reset], _, rfl⟩

/-! ## Numbers -/

/-- A code that is no NaN. -/
theorem witness_codes : Fmt.isFloat .n8 = true ∧ 0x38 < 2 ^ Fmt.width .n8 ∧ Fmt.decode .n8 0x38 ≠ .nan := by decide +kernel
/-- A magnitude that is rounded with and without a draw. -/
theorem witness_rounding : Fmt.isFloat .n8 = true ∧ 0 < 1000001 ∧ (∃ n q, Fmt.roundMag .n8 none 1000001 (-3) = (n, q)) ∧ ∃ n q, Fmt.roundMag .n8 (some 65535) 1000001 (-3) = (n, q) :=
  ⟨rfl, by decide, ⟨_, _, rfl⟩, _, _, rfl⟩
/-- Conversions of R88's table, of a finite value, a NaN, an infinity and a zero. -/
theorem witness_exact : exactInto .f32 .f32 = true ∧ 0xFF800000 < 2 ^ Fmt.width .f32 ∧ Fmt.decode .f32 0x7FC00000 = .nan ∧ Fmt.decode .f32 0xFF800000 = .inf true
    ∧ (Fmt.decode .f32 0x3F800000).isFin = true ∧ (Fmt.decode .f32 0x80000000).isZero = true ∧ exactInto .n4 .n6 = true := by decide +kernel
/-- Two orders of the same contributions. -/
theorem witness_orders : [Val.inf true, .nan].Perm [.nan, .inf true] := List.Perm.swap ..

/-! ## Registers, memory and the host port -/

/-- The last index of a block. -/
theorem witness_offsets : ∃ b, RegName.blk .WEIR_COUNT = some b ∧ 16383 < RegBlk.count b := ⟨_, rfl, by decide +kernel⟩
/-- Three pages of polder 0 in an object, with a bucket's header at 0, a frame program's at 0x2000 and a container's at 0x10000. -/
def paged : Mod := { live with mem := { live.mem with
  pages := ⟨[(pageKey 0 0, ⟨0, false, false, false, false, 1, 3⟩), (pageKey 0 1, ⟨0, false, false, false, false, 1, 4⟩), (pageKey 0 2, ⟨0, false, false, false, false, 1, 5⟩)]⟩
  objs := ⟨[(objKey 0 1, ⟨0, 3, 1, 0, false, false, 0, 0⟩)]⟩
  cells := [(3 * 2 ^ 21 + 3, 6), (3 * 2 ^ 21 + 4, 16), (3 * 2 ^ 21 + 26, 0x10), (3 * 2 ^ 21 + 0x2000, 1), (3 * 2 ^ 21 + 0x2003, 0x0C), (3 * 2 ^ 21 + 0x10000, 1), (3 * 2 ^ 21 + 0x10010, 16)] } }
/-- A byte that a page maps, at the last address of the page, and one that none does. -/
theorem witness_memory_byte : Memory.wf paged.mem.cells = true ∧ paged.phys 0 0x1FFFFF = some (3 * 2 ^ 21 + 0x1FFFFF) ∧ paged.phys 0 0x600000 = none := by decide +kernel
/-- A host access in a sluice window. -/
theorem witness_held : hostRow (.enable ⟨0, true, .bar0⟩ 0) = some (⟨0, true, .bar0⟩, .write 0 0x10002C 4 1) ∧ live.pci.up = true ∧ live.running = true := by decide +kernel
/-- A register write of a function whose memory space is off; one of three bytes; one into a domain in reset; one of a stopped die. -/
theorem witness_turned_away :
    0 ∉ { live.pci with memEn := [] }.memEn ∧ (HostAcc.write 0 0x100018 3 0).allowed = false ∧ (HostAcc.write 0 0x100018 4 0).allowed = true
    ∧ ({ live with rel := { live.rel with resets := [⟨2, 0, 1, 1, []⟩] } } : Mod).reach (.write 0 0x100018 4 0) = .inReset
    ∧ ({ live with rel := { live.rel with stopped := [0] } } : Mod).reach (.write 0 0x1600000 4 0) = .stopped 0 := by decide +kernel

/-- Function 0 owns queue 0. -/
def owned : Mod := { live with cq := { live.cq with ranges := ⟨[(0, (0, 4))]⟩ } }
/-- A registered write that reaches a live register of the function's own. -/
theorem witness_staged : hostRow (.doorbell ⟨0, false, .bar0⟩ 3 7) = some (⟨0, false, .bar0⟩, .write 0 0x1000D8 4 7) ∧ stagedRow (.doorbell ⟨0, false, .bar0⟩ 3 7) = some (⟨0, false, .bar0⟩, .CQ_TAIL, 3, 7)
    ∧ Reaches (around owned) ⟨0, false, .bar0⟩ (.write 0 0x1000D8 4 7) ∧ owned.diked 0 (.reg .CQ_TAIL 3) = false ∧ owned.notOwned 0 (.reg .CQ_TAIL 3) = false := by
  unfold Reaches AtOnce; decide +kernel
/-- A queue that the function does not own, and a weir of another polder. -/
theorem witness_foreign : Reaches (around owned) ⟨0, false, .bar0⟩ (.write 0 0x100118 4 7) ∧ owned.diked 0 (.reg .CQ_TAIL 4) = false ∧ owned.notOwned 0 (.reg .CQ_TAIL 4) = true
    ∧ Reaches (around (owned.setFld .WEIR_CTRL_POLDER 2 1)) ⟨0, false, .bar0⟩ (.write 0 0x20002C 4 2) ∧ (owned.setFld .WEIR_CTRL_POLDER 2 1).diked 0 (.reg .WEIR_CTRL 2) = true := by
  unfold Reaches AtOnce; decide +kernel
/-- An operation on a configuration slot. -/
theorem witness_slots : hostRow (.fcCtOpen ⟨0, false, .bar0⟩ 15) = some (⟨0, false, .bar0⟩, .write 0 0x300044 4 0xF01) ∧ Reaches (around live) ⟨0, false, .bar0⟩ (.write 0 0x300044 4 0xF01) := by
  unfold Reaches AtOnce; decide +kernel
/-- A slot of function 0 that is open, with 255 writes in it, and one with none left to take. -/
def opened (n : Nat) : Mod := { live with ct := { live.ct with slots := ⟨[(0, ⟨.opened, List.replicate n ⟨.MC_DIE_CTRL, 0, 0, false⟩, false, 0⟩)]⟩ } }
theorem witness_tx : txRow (.mcDieCtrl ⟨0, false, .bar0⟩ 1) = some (⟨0, false, .bar0⟩, .MC_DIE_CTRL, 0, 1) ∧ Reaches (around (opened 255)) ⟨0, false, .bar0⟩ (.write 0 0x681808 4 1)
    ∧ ((opened 255).ctSlot 0 ((opened 255).ctSel 0)).st = .opened ∧ 256 ≤ ((opened 256).ctSlot 0 ((opened 256).ctSel 0)).writes.length ∧ (live.ctSlot 0 (live.ctSel 0)).st ≠ .opened := by
  unfold Reaches AtOnce; decide +kernel
/-- A weir of the function's polder, and one of another. -/
theorem witness_weir_signal : hostRow (.weirSignal ⟨0, false, .bar0⟩ 16383 1) = some (⟨0, false, .bar0⟩, .write 0 0x23FFF8 4 1) ∧ Reaches (around live) ⟨0, false, .bar0⟩ (.write 0 0x23FFF8 4 1)
    ∧ live.diked 0 (.reg .WEIR_SIGNAL 16383) = false ∧ (live.setFld .WEIR_CTRL_POLDER 16383 1).diked 0 (.reg .WEIR_SIGNAL 16383) = true := by
  unfold Reaches AtOnce; decide +kernel
/-- A register that is no half of a pair, read and written. -/
theorem witness_register : Reaches (around owned) ⟨0, false, .bar0⟩ (.read 0 0x10000C 4) ∧ (targetAt 0 0x10000C).isSome = true ∧ pairAt 0 0x10000C = none
    ∧ Reaches (around owned) ⟨0, false, .bar0⟩ (.write 0 0x1000D8 4 9) ∧ targetAt 0 0x1000D8 = some (.reg .CQ_TAIL 3) ∧ pairAt 0 0x1000D8 = none ∧ (RegName.desc .CQ_TAIL).tx = 0
    ∧ f0Only .CQ_TAIL = false ∧ owned.diked 0 (.reg .CQ_TAIL 3) = false ∧ owned.notOwned 0 (.reg .CQ_TAIL 3) = false := by
  unfold Reaches AtOnce; decide +kernel
/-- Accesses of the port's own structures: the header, and BAR4 inside its table and behind it. -/
theorem witness_port : (around live).m.pci.up = true ∧ (⟨0, false, .cfg .device⟩ : Port).space = .cfg .device ∧ (⟨0, false, .bar4⟩ : Port).space = .bar4 ∧ 0 ∈ live.pci.memEn
    ∧ (0x7FF8#26).toNat % 16 = 8 ∧ (0x7FF8#26).toNat < 0x8000 ∧ 0x8100 < (0x80FE#26).toNat + 4 := by decide +kernel
/-- An aperture over an object: mapped bytes at its last, unmapped ones behind it, a read-only object. -/
theorem witness_bar2 : Reaches (around paged) ⟨0, false, .bar0⟩ (.write2 0 0x5FFFFF [1]) ∧ paged.mapped 0 (apertureOf paged 0 0x5FFFFF) 1 = true ∧ paged.readonly 0 0x5FFFFF 1 = false
    ∧ paged.ue.seals = [] ∧ paged.mapped 0 (apertureOf paged 0 0x600000) 1 = false
    ∧ ({ paged with mem := { paged.mem with objs := ⟨[(objKey 0 1, ⟨0, 1, 0, 0, true, false, 0, 0⟩)]⟩ } } : Mod).readonly 0 0 1 = true := by
  unfold Reaches AtOnce; decide +kernel

/-! ## Commands of queues -/

/-- A packet whose plan passes, and the same with STEP set and no step open. -/
theorem witness_packet : packetRow (around live).fuse (.nop five) = some (five, 0x0000, [], planNop) ∧ Granted (flying live (pk 0 [])) five 0x0000 [] (pk 0 [])
    ∧ DataFits live (.nop five) (pk 0 []) ∧ (∃ p, planNop (flying live (pk 0 [])) ((flying live (pk 0 [])).ctxOf (pk 0 [])) (pk 0 []).params = .ok p)
    ∧ (flying live (pk 0 [])).closedTo (pk 0 []) = false ∧ Granted (flying live (pk 0x20000000 [])) five 0x0000 [] (pk 0x20000000 [])
    ∧ (flying live (pk 0x20000000 [])).closedTo (pk 0x20000000 []) = true := by
  refine ⟨rfl, by unfold Granted; decide +kernel, trivial, ⟨_, rfl⟩, by decide +kernel, by unfold Granted; decide +kernel, by decide +kernel⟩
/-- A packet one of whose checks fails: HIST_READ of a slot that is not enabled. -/
theorem witness_packet_fails : Granted (flying live (pk 0x3002 [0, 0, 0, 0])) five 0x3002 [] (pk 0x3002 [0, 0, 0, 0])
    ∧ planHistRead (flying live (pk 0x3002 [0, 0, 0, 0])) ((flying live (pk 0x3002 [0, 0, 0, 0])).ctxOf (pk 0x3002 [0, 0, 0, 0])) [0, 0, 0, 0] = .error (0x30, 16) := by
  refine ⟨by unfold Granted; decide +kernel, rfl⟩
/-- Engine work of a packet: one whose plan passes, one whose checks fail, and one on a tile marked failed. -/
def zeros : List Word := List.replicate 64 0
theorem witness_engine : workRow live (.windowFill (.packet five)) = some (.packet five, 0x4007, [], fun _ => true, blkWindowFill, planWindowFill, fun _ => none)
    ∧ Granted (flying live (pk 0x4007 zeros)) five 0x4007 [] (pk 0x4007 zeros)
    ∧ (∃ p, planWindowFill (flying live (pk 0x4007 zeros)) ((flying live (pk 0x4007 zeros)).ctxOf (pk 0x4007 zeros)) zeros = .ok p)
    ∧ (∃ st d, planAmax (flying live (pk 0x3001 zeros)) ((flying live (pk 0x3001 zeros)).ctxOf (pk 0x3001 zeros)) zeros = .error (st, d) ∧ st < 256)
    ∧ EngineServes live (some (tsqOf (ctrlTile (pw zeros 0x20)))) ∧ (live.put .MC_TILE_FAILED_LO 0 1).tileMarked 0 = true := by
  refine ⟨rfl, by unfold Granted; decide +kernel, ⟨_, rfl⟩, ⟨_, _, rfl, by decide⟩, ?_, by decide +kernel⟩
  intro d t h
  simp only [Option.some.injEq] at h
  have : (Engine.tsq d t) = .tsq 0 0 := by rw [← h]; decide +kernel
  cases this; decide +kernel
/-- A frame program of polder 0 that runs. -/
def aProg : Prog := ⟨.cmd five, 0, [0], 5, 1, 0x2040, false, some [], 0, [], [], false, .empty, []⟩
def programmed : Mod := { live.put .HC_TILES 0 0x30#32 with ue := { live.ue with running := [aProg] } }
/-- Engine work of a program that runs: one whose block and plan pass, one whose plan does not. -/
theorem witness_program : workRow programmed (.pcsLoad (.program (.cmd five) (List.replicate 4 0))) =
      some (.program (.cmd five) (List.replicate 4 0), 0x1001, [], fun _ => true, blkPcsLoad, planPcsLoad, fun ps => some (tsqOf (ctrlTile (pw ps 0))))
    ∧ Issues programmed (.cmd five) aProg ∧ blkPcsLoad programmed 0 (List.replicate 4 0) = .ok () ∧ (∃ p, planPcsLoad programmed (programmed.progCtx aProg) (List.replicate 4 0) = .ok p)
    ∧ ∃ st d, blkAmax programmed 0 [1] = .error (st, d) := by
  refine ⟨rfl, by unfold Issues; decide +kernel, by decide +kernel, ⟨_, rfl⟩, _, _, rfl⟩
/-- DELAY and FRAME_MARK, granted. -/
theorem witness_plain : Granted (flying live (pk 4 [])) five 0x0004 [] (pk 4 []) ∧ Granted (flying live (pk 1 [3])) five 0x0001 [] (pk 1 [3]) ∧ (flying live (pk 1 [3])).closedTo (pk 1 [3]) = false := by
  unfold Granted; decide +kernel
/-- SIGNAL of a packet, of a program, of a program to another polder's weir, and WEIR_CLEAR. -/
theorem witness_signal : Granted (flying live (pk 2 [0x10001])) five 0x0002 [] (pk 2 [0x10001]) ∧ Granted (flying live (pk 3 [1])) five 0x0003 [] (pk 3 [1]) ∧ Issues programmed (.cmd five) aProg
    ∧ blkSignal programmed 0 [0x10001] = .ok () ∧ ∃ e, blkSignal (programmed.setFld .WEIR_CTRL_POLDER 1 1) 0 [0x10001] = .error e := by
  refine ⟨by unfold Granted; decide +kernel, by unfold Granted; decide +kernel, by unfold Issues; decide +kernel, by decide +kernel, _, rfl⟩
/-- RUN_PROGRAM of a header that names the active length, and of one that does not. -/
def runs (head : Word) : Cmd := { pk 5 [] with words := 5 :: 12 :: List.replicate 14 0 ++ [0x2000, 0, 0, head] ++ List.replicate 15 0 }
theorem witness_run_program : Granted (flying live (runs 0x0C000001)) five 0x0005 [] (runs 0x0C000001) ∧ (flying live (runs 0x0C000001)).closedTo (runs 0x0C000001) = false
    ∧ chkRunProgram live (live.ctxOf (runs 0x0C000001)) (runs 0x0C000001).params (runs 0x0C000001).header = .ok ()
    ∧ ∃ st d, chkRunProgram live (live.ctxOf (runs 0x0D000001)) (runs 0x0D000001).params (runs 0x0D000001).header = .error (st, d) := by
  refine ⟨by unfold Granted; decide +kernel, by decide +kernel, by decide +kernel, 0x24, detailAt 0, by decide +kernel⟩
/-- SLOT_CLEAR of a slot that is usable, and of one that is not. -/
theorem witness_slot_clear : Granted (flying live (pk 0x3003 [2])) five 0x3003 [] (pk 0x3003 [2]) ∧ (live.setFld .GS_CTRL_ENABLE 2 1).slotUsable 0 2 = true ∧ (live.setFld .GS_CTRL_ENABLE 2 1).slotHeld 0 2 = false
    ∧ live.slotUsable 0 2 = false := by
  unfold Granted; decide +kernel
/-- A loaded step program, without programs, buckets, slots or groups. -/
def aSp : StepProg := ⟨[], [], 7, [], [], [], [], 0⟩
def loaded : Mod := { paged with ue := { paged.ue with progs := ⟨[(0, aSp)]⟩ } }
/-- A step of polder 0 that executes. -/
def aStep : Step := ⟨.run 0 5, 1, 9, 3, 0, 2, .executing, 0, false, false, none, 0, 0, none, 0, 0, [], [], 2, false, [], .fresh 0, none, ⟨.empty, .empty, (0, false)⟩, 0, 0, false, [], [], []⟩
/-- A module with a step of polder 0. -/
def inStep (m : Mod) (st : Step) : Mod := { m with ue := { m.ue with steps := ⟨[(0, st)]⟩ } }
/-- STEP_RUN and LOOP_START with and without a step program, REPLAY_DIAG of a record and of none. -/
theorem witness_loop_begins : Granted (flying loaded (pk 0x6001 [0])) five 0x6001 [] (pk 0x6001 [0]) ∧ loaded.ue.progs.get 0 ≠ none ∧ paged.ue.progs.get 0 = none
    ∧ chkReplayDiag loaded 0 [0x20000, 0, 0x30000, 0] = .ok () ∧ ∃ st d, chkReplayDiag paged 0 [0x20000, 0, 0x30000, 0] = .error (st, d) := by
  refine ⟨by unfold Granted; decide +kernel, by decide +kernel, by decide +kernel, by decide +kernel, _, _, rfl⟩
/-- LOOP_STOP without a loop, with one that waits on its weir, and with one whose weir has released. -/
def aLoop (released : Bool) : Loop := ⟨0, 4, 0, 1, 0, 0, 0, 0, 0, released, []⟩
theorem witness_loop_stop : Granted (flying loaded (pk 0x6003 [])) five 0x6003 [] (pk 0x6003 []) ∧ loaded.ue.loops.get 0 = none
    ∧ (⟨[(0, aLoop false)]⟩ : Tbl Loop).get 0 = some (aLoop false) ∧ (aLoop true).released = true ∧ loaded.ue.steps.get 0 = none := by
  unfold Granted; decide +kernel
/-- CKPT_TAKE into an object that serves, and into one that does not. -/
theorem witness_ckpt_take : Granted (flying paged (pk 0x6004 [1, 0])) five 0x6004 [] (pk 0x6004 [1, 0]) ∧ paged.ckptObjOk 0 1 0 = true ∧ takeRanges [1, 0] = [] ∧ paged.ckptObjOk 0 2 0 = false := by
  unfold Granted; decide +kernel
/-- REDUCE of a bucket whose header passes, and of one that is not mapped. -/
theorem witness_reduce : Granted (flying paged (pk 0x5000 [0, 0, 9])) five 0x5000 [] (pk 0x5000 [0, 0, 9]) ∧ chkReduce paged 0 [0, 0, 9] = .ok () ∧ paged.inFlight 0 < 256
    ∧ ∃ st d, chkReduce paged 0 [0x600000, 0, 9] = .error (st, d) := by
  refine ⟨by unfold Granted; decide +kernel, by decide +kernel, by decide +kernel, _, _, rfl⟩
/-- IMPORT of 16 bytes under a key, and without one. -/
def keyed : Mod := { paged with sec := { paged.sec with keys := ⟨[(0, ⟨0, List.replicate 32 0⟩)]⟩ } }
theorem witness_import : Granted (flying keyed (pk 0x400A [0x10000, 0, 0x20000, 0, 16, 0])) five 0x400A [] (pk 0x400A [0x10000, 0, 0x20000, 0, 16, 0])
    ∧ chkImport keyed (keyed.ctxOf (pk 0x400A [])) [0x10000, 0, 0x20000, 0, 16, 0] = .ok () ∧ keyed.poisoned 0 0x10000 64 = false
    ∧ ∃ r st d, chkImport paged (paged.ctxOf (pk 0x400A [])) [0x10000, 0, 0x20000, 0, 16, 0] = .error (r, st, d) := by
  refine ⟨by unfold Granted; decide +kernel, by decide +kernel, by decide +kernel, some 1, 0x53, detailAt 20, by decide +kernel⟩
/-- A region in FLUSHING. -/
theorem witness_flush : (live.setFld .ACB_RGN_CTRL_STATE 15 2).fld .ACB_RGN_CTRL_STATE ((0 * 48 + 0) * 16 + 15) = 2 ∧ (live.setFld .ACB_RGN_CTRL_STATE 15 2).stg = [] := by decide +kernel
/-- A breakpoint on a weir that released, and one on a core that runs. -/
theorem witness_break : let b : Brk := ⟨2, 0, 0, 0, false, true, 9⟩
    let m : Mod := { live with ob := { live.ob with brks := ⟨[(31, b)]⟩ }, wr := { live.wr with released := [9] }, fc := (taking .events live).fc }
    m.ob.brks.get 31 = some b ∧ m.brkReady 3 7 = true ∧ m.brkStep 3 b 4 = false := by decide +kernel
theorem witness_break_missed : let b : Brk := ⟨0, 0, 0, 0, false, true, 9⟩
    let m : Mod := { (flying live { pk 0x20000000 [] with phase := .running }) with ob := { live.ob with brks := ⟨[(0, b)]⟩ }, wr := { live.wr with released := [9] }, fc := (taking .events live).fc }
    m.brkReady 0 0 = true ∧ m.brkStep 0 b 4 = true ∧ b.polder = false := by decide +kernel

/-! ## Management packets -/

/-- A management packet of F0 in index 0. -/
def mk (op : Word) (ps : List Word) : Cmd := { pk op ps with mgmt := true, seq := 0, phase := .accepted, words := op :: BitVec.ofNat 32 (4 * ps.length) :: List.replicate 14 0 ++ ps }
/-- A start has given every die 48 tiles. -/
def tiled : Mod := live.put .HC_TILES 0 0x30303030#32
/-- Each row of the queue with a packet that passes its checks, and one that fails them. -/
theorem witness_mgmt : (∀ r ∈ [(Instr.abort 0 0, mk 0xE000 [1, 0]), (.resetDomain 0 0, mk 0xE001 [1, 3]), (.quotaSet 0 0, mk 0xE002 [0, 1, 1]), (.queueAssign 0 0, mk 0xE003 [7, 0x13FFF]),
      (.powerCap 0 0, mk 0xE004 [1200]), (.telemetry 0 0, mk 0xE005 [0x28]), (.polderSet 0 0, mk 0xE007 [4]), (.confSet 0 0, mk 0xE008 [0])],
      MayExecute (flying tiled r.2) r.1 r.2 ∧ (flying tiled r.2).mgmtChk r.2 = .ok ())
    ∧ (flying tiled (mk 0xE007 [3])).mgmtChk (mk 0xE007 [3]) = .error (0x04, 16) := by
  refine ⟨?_, by decide +kernel⟩
  intro r hr
  simp only [List.mem_cons, List.not_mem_nil, or_false] at hr
  rcases hr with rfl | rfl | rfl | rfl | rfl | rfl | rfl | rfl <;>
    exact ⟨⟨0, 0, _, none, rfl, by decide +kernel⟩, by decide +kernel⟩
/-- SELFTEST of each operation, with a tile's and a spare's failure. -/
def spared : Mod := { tiled.setFld .BC_TILE_STATUS_SPARE 51 1 with rel := { tiled.rel with tileMap := ⟨[(0, 3)]⟩ } }
theorem witness_selftest : (∀ r ∈ [(Instr.offline 0 0 none, mk 0xE006 [0, 0]), (.offline 0 0 (some ⟨0, 1, 2, 3⟩), mk 0xE006 [0, 0]), (.spares 0 0 [51], mk 0xE006 [1, 0]), (.restart 0 0, mk 0xE006 [2, 0])],
      MayExecute (flying spared r.2) r.1 r.2 ∧ AsksFor r.1 r.2 ∧ (flying spared r.2).mgmtChk r.2 = .ok ())
    ∧ spared.physTile 0 = some 3 ∧ 51 ∈ spared.freeSpares 0 := by
  refine ⟨?_, by decide +kernel⟩
  intro r hr
  simp only [List.mem_cons, List.not_mem_nil, or_false] at hr
  rcases hr with rfl | rfl | rfl | rfl <;>
  · refine ⟨⟨0, 0, _, some _, rfl, by decide +kernel⟩, ?_, by decide +kernel⟩
    intro f k op v h
    simp only [mgmtRow, Option.some.injEq, Prod.mk.injEq] at h
    obtain ⟨-, -, -, rfl⟩ := h
    decide +kernel

/-! ## Reliability -/

/-- A command that has waited past its limit. -/
def late : Cmd := { pk 0 [] with phase := .accepted, waits := [⟨3, 4⟩] }
theorem witness_timeout : (taking .posted (flying live late)).cmd five = some late ∧ (taking .posted (flying live late)).waitLate late = true := by decide +kernel
/-- A sequencer of a tile found hung, with ACTION 0 and with ACTION 2. -/
theorem witness_hang : let m : Mod := { live.setFld .MC_HANG_CTRL_ACTION 0 0 with rel := { live.rel with hung := [unitKey 0 1 2] } }
    m.fld .MC_HANG_CTRL_ACTION 0 = 0 ∧ (m.setFld .MC_HANG_CTRL_ACTION 0 2).fld .MC_HANG_CTRL_ACTION 0 = 2 ∧ m.hangTarget (unitKey 0 1 2) = some (0, 66) ∧ (taking .posted m).fc.window ≠ none := by
  decide +kernel
/-- The watchdog with hang detection on. -/
theorem witness_watchdog : (live.setFld .MC_HANG_CTRL_EN 0 1).bit .MC_HANG_CTRL_EN 0 = true ∧ live.rel.resets = [] ∧ live.fc.window = none
    ∧ ((live.setFld .MC_HANG_CTRL_EN 0 1).setFld .MC_HANG_CTRL_ACTION 0 0).fld .MC_HANG_CTRL_ACTION 0 = 0 ∧ live.bit .MC_HANG_FIRST_VALID 0 = false := by
  decide +kernel
/-- A die's reset that may be released, and a tile's that waits for the spare under test. -/
theorem witness_release : let m : Mod := { live with rel := { live.rel with resets := [⟨1, 3, 2, 1, []⟩] } }
    let w : Mod := { live.setFld .MC_SPARE_CTRL_AUTO 0 15 with rel := { live.rel with resets := [⟨0, 5, 2, 1, []⟩], spareTest := [(51, none)] } }
    m.releasable 1 3 = some ⟨1, 3, 2, 1, []⟩ ∧ m.waitsSpare 1 3 = none ∧ w.releasable 0 5 = some ⟨0, 5, 2, 1, []⟩ ∧ w.waitsSpare 0 5 = some (51, 5) := by decide +kernel
/-- A tile that serves. -/
theorem witness_tile_fault : tiled.tileLive 191 = true := by decide +kernel
/-- An uncorrectable read of a mapped address, and the patrol's, with a first error recorded and without. -/
theorem witness_uncorr : (∃ id, paged.physPage 0 0x5FFFFF = some id) ∧ live.fc.window = none ∧ live.running = true ∧ (live.setFld .MT_ECC_CTRL_PATROL_EN 0 1).bit .MT_ECC_CTRL_PATROL_EN 0 = true ∧ live.dieDown 3 = false
    ∧ (live.setFld .MT_ECC_FIRST_VALID 0 1).bit .MT_ECC_FIRST_VALID 0 = true ∧ live.bit .MT_ECC_FIRST_VALID 0 = false := by
  exact ⟨⟨_, rfl⟩, by decide +kernel⟩
/-- A controller whose first frame is zeroed. -/
theorem witness_zeroed : (taking .events { live with mem := { live.mem with ctls := ⟨[(55, ⟨[], [(7, 2)], 5000, false, 0⟩)]⟩ } }).zeroDue 55 = true := by decide +kernel
/-- A checkpoint without ranges, which is whole, and a restore of no sub-block. -/
theorem witness_ckpt : let m : Mod := taking .events { paged with mem := { paged.mem with ckpts := [⟨0, 1, [], 2, [], 1⟩], restores := [⟨0, 1, 0, 2, 1⟩] } }
    m.wholeCkpt 0 = some ⟨0, 1, [], 2, [], 1⟩ ∧ (m.obj 0 1).isSome = true ∧ (m.wholeRestore 0).isSome = true := by decide +kernel
/-- A donated frame on a tile with a physical one. -/
theorem witness_slice : let m : Mod := { (spared.setFld .BC_CTRL_PERIODIC_EN 0 1) with ue := { spared.ue with running := [aProg] } }
    m.inFrame = true ∧ m.mayDonate 1 = true ∧ (m.setFld .BC_CTRL_PERIODIC_EN 0 0).sliceReady 1 = false ∧ m.sliceReady 0 = true ∧ m.physTile 0 = some 3 ∧ m.fld .BC_TILE_STATUS_NEXT 3 ≤ 18 := by decide +kernel
/-- A pass that has starved, and a round of spares that is due. -/
theorem witness_starved : let at_ (n : Nat) (m : Mod) : Mod := { m with fc := { (taking .events m).fc with num := n } }
    (at_ 65535 ((spared.setFld .BC_CTRL_PERIODIC_EN 0 1).setFld .BC_CTRL_PERIOD 0 1)).starved 3 = true
    ∧ (at_ (2 ^ 22 - 1) (spared.setFld .BC_CTRL_SPARE_EN 0 1)).roundDue 0 = true := by decide +kernel
/-- A spare under test, with a tile that waits for it and without. -/
theorem witness_spare_end : ({ spared with rel := { spared.rel with spareTest := [(51, some 5)], resets := [⟨0, 5, 2, 1, []⟩] } } : Mod).underTest 0 = some (51, some 5)
    ∧ ({ spared with rel := { spared.rel with spareTest := [(51, none)] } } : Mod).underTest 0 = some (51, none) := by decide +kernel

/-! ## Links and messages -/

/-- A link in a state, with a message in its inbox. -/
def linked (st : LinkSt) (inbox : List Msg) : Mod := { live with zl := { live.zl with links := ⟨[(31, { LinkS.zero with st := st, sent := 1, inbox := inbox })]⟩ } }
/-- Links that train, that are DOWN with ENABLE set, and that are UP. -/
theorem witness_links : (linked .training []).training 31 = true ∧ (linked .retrain []).training 31 = true
    ∧ ((linked .down []).link 31).st = .down ∧ ((linked .down []).setFld .ZL_CTRL_ENABLE 31 1).bit .ZL_CTRL_ENABLE 31 = true
    ∧ ((linked .up []).link 31).st = .up ∧ ((linked .up []).link 31).sent ≠ ((linked .up []).link 31).acked := by decide +kernel
/-- Flits whose check fails, with a reserved bit, out of sequence, and in sequence. -/
def flit (head : List Byte) : List Byte := let b := head ++ List.replicate (240 - head.length) 0; b ++ leBytes (crc32c b) 4 ++ List.replicate 12 0
theorem witness_flits : (flit []).length = 256 ∧ ((linked .up []).link 31).expect < 4096 ∧ crc32c ((List.replicate 256 (0 : Byte)).take 240) ≠ leNat (((List.replicate 256 (0 : Byte)).drop 240).take 4)
    ∧ (∀ h ∈ [[], [0, 0, 4], [0, 0, 0, 0x20]], crc32c ((flit h).take 240) = leNat (((flit h).drop 240).take 4))
    ∧ leNat ((flit [0, 0, 4]).take 8) / 2 ^ 18 % 2 ^ 11 ≠ 0 ∧ leNat ((flit [0, 0, 0, 0x20]).take 8) / 2 ^ 29 % 4096 = 1 ∧ leNat ((flit []).take 8) = 0 := by decide +kernel
/-- A message of each kind from a source that rank 1 of polder 0 is. -/
def msg (kind a b : Nat) (body : List Byte) : Msg := ⟨1, kind, 8, 0, a, b, body, 3, 3⟩
def ranked (kind a b : Nat) (body : List Byte) : Mod :=
  ((linked .up [msg kind a b body]).put .ZL_RANK 1 (BitVec.ofNat 32 (Fld.mask .ZL_RANK_VALID).toNat ||| BitVec.ofNat 32 (8 * 2 ^ Fld.lo .ZL_RANK_ENDPOINT))).setFld .UE_RG_CTRL_MEMBERS_M1 0 1
/-- Messages that are taken and delivered, and one from a source that no rank names. -/
theorem witness_messages : (∀ r ∈ [(Instr.shard 31, 0), (.result 31, 1), (.ballot 31, 2), (.close 31, 3), (.rowadd 31, 4), (.xfer 31, 5)], (tookMsg (ranked r.2 0 1 []) r.1).isSome = true)
    ∧ Delivered (ranked 2 0 1 []) (msg 2 0 1 []) ∧ (ranked 2 0 1 []).rankOf 0 8 = some 1 ∧ (live.rankNames 0 8) = false ∧ ((linked .up [msg 6 0 0 []]).popMsg 31 6).isSome = true ∧ ((linked .up [msg 7 0 0 []]).popMsg 31 7).isSome = true := by
  unfold Delivered; decide +kernel
/-- A ballot and a close word for the open step, at V. -/
theorem witness_ballot : (inStep (ranked 2 0 1 []) aStep).ue.steps.get 0 = some aStep ∧ (msg 2 0 1 []).b = aStep.num ∧ 5 ≤ aStep.opened + ((inStep (ranked 2 0 1 []) aStep).put .UE_VOTE_AT 0 3#32 |>.rd .UE_VOTE_AT 0).toNat := by
  decide +kernel
/-- A bucket of two W16 elements of the open step, in flight at sluice 3. -/
def aBucket : Bucket := ⟨0, 7, 6, 2 ^ 20, 4, 40, 2 ^ 20, [(0, 2, 0)], 2, 0, false, false, false, false, 0, true, false, some 3, 4, false, [], [], false, [], none, false, none⟩
def bucketed (m : Mod) (b : Bucket) : Mod := { m with ue := { m.ue with buckets := ⟨[(0, [b])]⟩ } }
theorem witness_shard : (inStep (bucketed (ranked 0 (7 * 2 ^ 20) (2 ^ 48) [1, 2, 3, 4]) aBucket) aStep).msgBkt 0 (msg 0 (7 * 2 ^ 20) (2 ^ 48) [1, 2, 3, 4]) = some aBucket
    ∧ (ranked 0 0 0 []).rank 0 = 0 ∧ (msg 1 (7 * 2 ^ 20 + 2 ^ 14) (2 ^ 48) []).a / 2 ^ 14 % 64 = 1 ∧ aBucket.owner = none := by decide +kernel
/-- An XFER into the object, and one behind it. -/
theorem witness_xfer : (paged.mapped 0 0x5FFFFF 1 = true ∧ paged.readonly 0 0x5FFFFF 1 = false) ∧ ¬ (paged.mapped 0 0x600000 1 = true) ∧ live.zl.rejoin = none := by decide +kernel
/-- The sluices of a change of length, of a rejoin that heard nobody and of a substitution, with a polder that steps and without. -/
theorem witness_lengths : (taking .commits live).sluiceA = some 4 ∧ (taking .events live).sluiceB = some 4 ∧ ({ live with fc := { live.fc with change := some (5, 10) } } : Mod).fc.change = some (5, 10)
    ∧ (taking .commits { live.put .ZL_SUBST_AT_LO 0 5#32 with zl := { live.zl with subst := true } }).substDue = true ∧ live.stepping 0 = false ∧ (inStep live aStep).stepping 0 = true := by decide +kernel

/-! ## Buckets and steps -/

/-- A bucket that fills and whose weir released. -/
def filling : Bucket := { aBucket with state := 1, filled := true, closed := none }
theorem witness_bucket_close : (taking .events (bucketed live filling)).sluiceB = some 4 ∧ filling.filled = true ∧ filling.failed = false ∧ (bucketed live filling).bkt 0 7 = some filling ∧ filling.state = 1 ∧ filling.owner = none ∧ (bucketed live filling).inFlight 0 < 256 := by
  decide +kernel
/-- 256 buckets in flight, and one more. -/
theorem witness_bucket_full : let m : Mod := { live with ue := { live.ue with buckets := ⟨[(0, filling :: (List.range 256).map fun i => { aBucket with num := 100 + i })]⟩ } }
    m.bkt 0 7 = some filling ∧ 256 ≤ m.inFlight 0 := by decide +kernel
/-- A bucket whose stage 1 is due, in a group of one and in one of two. -/
theorem witness_stage_one : (bucketed live aBucket).inFrame = true ∧ (bucketed live aBucket).fc.num = 5 ∧ (bucketed live aBucket).bkt 0 7 = some aBucket ∧ aBucket.state = 2 ∧ aBucket.s1at ≤ 5 ∧ aBucket.final = false ∧ live.members 0 = 1 ∧ (live.setFld .UE_RG_CTRL_MEMBERS_M1 0 1).members 0 ≠ 1 := by decide +kernel
/-- A shard's owner that holds both ranks' contributions. -/
def summing : Bucket := { aBucket with s1done := true, got := [⟨0, 0, [1], 3⟩, ⟨1, 0, [2], 3⟩] }
theorem witness_shard_owner : (bucketed (live.setFld .UE_RG_CTRL_MEMBERS_M1 0 1) summing).ownSum 0 summing = some [[1], [2]] ∧ summing.owner = none ∧ summing.final = false
    ∧ (bucketed (live.setFld .UE_RG_CTRL_MEMBERS_M1 0 1) summing).bkt 0 7 = some summing := by decide +kernel
/-- A bucket that is late, and one whose pass one is due in the open step. -/
theorem witness_bucket_late : { aBucket with due := 4 }.final = false ∧ { aBucket with due := 4 }.failed = false ∧ { aBucket with due := 4 }.state ≠ 0 ∧ { aBucket with due := 4 }.due ≤ 4 ∧ (taking .commits live).sluiceA = some 4
    ∧ (inStep (bucketed (taking .commits live) { aBucket with final := true, finalAt := some 2, s1done := true }) aStep).passOneDue 0 7 = true
    ∧ (live.setFld .UE_BKT_FIRST_FAIL_VALID 0 1).bit .UE_BKT_FIRST_FAIL_VALID 0 = true := by decide +kernel
/-- A step that opens: STEP_RUN's, released at sluice 4, and REPLAY_DIAG's. -/
def ready (op : Word) : Cmd := { pk op [0x20000, 0, 0x30000, 0] with phase := .running, first := 3 }
theorem witness_step_open : (taking .events loaded).sluiceB = some 4 ∧ (taking .events (flying loaded (ready 0x6001))).stepDue 0 = true ∧ loaded.ue.progs.get 0 = some aSp ∧ (flying loaded (ready 0x6001)).opener 0 4 = some (.run 0 5, 0x30000)
    ∧ (flying loaded (ready 0x6001)).diagRecord (.run 0 5) = none ∧ (flying loaded (ready 0x6006)).opener 0 4 = some (.diag 0 5 0x30000, 0)
    ∧ (flying loaded (ready 0x6006)).diagRecord (.diag 0 5 0x30000) = some 0x20000 ∧ loaded.pair .UE_STEP_LO .UE_STEP_HI 0 + 1 < 2 ^ 64 := by
  decide +kernel
/-- The same module while it takes sluice 4, before step 7. -/
def atSluice : Mod := taking .commits loaded
/-- A step without work left, whose ballot is due. -/
theorem witness_ballot_due : (inStep atSluice aStep).ballotDue 0 = true ∧ (inStep atSluice aStep).ue.steps.get 0 = some aStep := by decide +kernel
/-- A step whose members' ballots are there, with and without HOST_HOLD. -/
def voted : Step := { aStep with phase := .balloted, ballots := [⟨0, 0x10000, 4⟩], ballotAt := some 4 }
theorem witness_vote : (inStep atSluice voted).voteDue 0 = true ∧ loaded.ue.progs.get 0 ≠ none ∧ ((inStep atSluice voted).setFld .UE_VOTE_CTRL_HOST_HOLD 0 1).bit .UE_VOTE_CTRL_HOST_HOLD 0 = true
    ∧ (inStep atSluice voted).bit .UE_VOTE_CTRL_HOST_HOLD 0 = false := by decide +kernel
/-- A provisional outcome, with a verdict of the host and past its timeout without one. -/
def provisional : Step := { voted with phase := .provisional, word := 0x14000, outcome := 1, voteAt := some 4 }
theorem witness_verdict : ({ ((inStep atSluice provisional).setFld .UE_VOTE_HOST_VERDICT 0 2).setFld .UE_VOTE_HOST_STEP 0 1 with ue := { (inStep atSluice provisional).ue with verdictAt := ⟨[(0, 4)]⟩ } } : Mod).verdict 0 = some 2 ∧ (inStep atSluice provisional).verdict 0 = none ∧ provisional.voteAt.getD 0 + ((inStep atSluice provisional).setFld .UE_VOTE_TIMEOUTS_HOST 0 0).fld .UE_VOTE_TIMEOUTS_HOST 0 ≤ 4 := by decide +kernel
/-- A step in maintenance, and one whose pass two ends. -/
theorem witness_maintenance : (inStep atSluice { voted with phase := .maintenance }).maintenanceDue 0 = true ∧ (inStep atSluice { voted with phase := .passTwo, selected := true }).passTwoDue 0 = true := by decide +kernel
/-- Steps that may close, committed and to be replayed, and one with a close word missing. -/
theorem witness_close : (inStep atSluice { voted with phase := .closing, outcome := 1 }).closeDue 0 = true ∧ (inStep atSluice { voted with phase := .closing, outcome := 3 }).closeDue 0 = true ∧ aStep.isDiag = false
    ∧ ((inStep atSluice { voted with phase := .closing, outcome := 1, passTwoAt := some 3, ballots := [⟨0, 0, 4⟩, ⟨1, 0, 4⟩], closes := [⟨0, 0, 4⟩] }).setFld .UE_VOTE_TIMEOUTS_CLOSE 0 0).closeLate 0 = true
    := by decide +kernel
/-- A step that waits to be replayed. -/
theorem witness_replay : (taking .events loaded).sluiceB = some 4 ∧ (inStep atSluice { voted with phase := .replayWait }).ue.steps.get 0 = some { voted with phase := .replayWait } ∧ { voted with phase := .replayWait }.phase = .replayWait := by decide +kernel

/-! ## Power, heat and frames -/

/-- Pins from which the rails may rise, and from which they may not. -/
theorem witness_power : MayRise ⟨true, .inRange, true, false, true, 0, 0, false, false, false, false, false⟩ ∧ ¬ MayRise State.reset.pins ∧ State.reset.pins.aux = false := by unfold MayRise; decide
/-- Modules with and without PWR_GOOD, in a shutdown and not. -/
theorem witness_rails : (around live).pins.pwrGood = true ∧ State.reset.pins.pwrGood = false ∧ (around live).pins.aux = true ∧ (around live).pins.shutdown = false
    ∧ (around live).m.running = true ∧ State.reset.m.running = false := by decide +kernel
/-- A module that may start, one of whose steps fails. -/
def off : State := { around { Mod.reset with rel := { Mod.reset.rel with resets := [⟨5, 0, 0, 3, []⟩] } } with pins := { (around live).pins with perst := true } }
theorem witness_start : off.mayStart = true ∧ off.m.prevFail = 0 ∧ off.pins.shutdown = false ∧ off.m.rel.ledgerPos + 1 < 2 ^ 32
    ∧ (8 : Fin 9) ∈ (⟨[8], 0, [], [], 0, 0, none⟩ : StartResult).fails ∧ 4 < (off.startRun ⟨[], 0, [], [], 0, 0, none⟩).step ∧ (off.startRun ⟨[8], 0, [], [], 0, 0, some 5⟩).step = 5
    ∧ (off.startRun ⟨[8], 0, [], [], 0, 0, some 5⟩).cut = true := by decide +kernel
/-- Temperatures below their thresholds, above the alert's, and at the shutdown's. -/
theorem witness_heat : (∃ y, thresholds 0x28 = some y ∧ (100001 : Int) < y.2.2 ∧ y.2.1 < 100001) ∧ live.temp 0x28 = none ∧ (∃ y, thresholds 0x6F = some y ∧ y.2.2 ≤ (105000 : Int))
    ∧ (live.setFld .SP_CONF_CONF 0 1).anyConf = true := by
  refine ⟨⟨_, rfl, by decide +kernel, by decide +kernel⟩, by decide +kernel, ⟨_, rfl, by decide +kernel⟩, by decide +kernel⟩
/-- A frame of a module that is aligned, of one that is not, and one that waits for its edge. -/
theorem witness_sluice : ({ live.setFld .FC_SYNC_CTRL_ALIGN_EN 0 1 with fc := { live.fc with syncLow := true } } : Mod).awaitsEdge = true ∧ live.awaitsEdge = false ∧ live.running = true ∧ live.fc.waiting = none
    ∧ ({ live with fc := { live.fc with waiting := some [] } } : Mod).fc.waiting = some [] := by decide +kernel
/-- Signals of a frame for a weir on which nothing waits, past the largest count. -/
theorem witness_weir_sum : let m : Mod := { live.put .WEIR_COUNT 3 0xFFFFFFFE#32 with wr := { live.wr with sigs := [{ weir := 3, add := 1, seq := 0 }, { weir := 3, add := 9, seq := 0 }] } }
    3 ∉ m.waitedWeirs ∧ m.wr.clears = [] ∧ ((m.weirStep 5).rd .WEIR_COUNT 3) = 0xFFFFFFFF#32 ∧ (m.weirStep 5).bit .WEIR_CTRL_OVF 3 = true := by decide +kernel
/-- A transaction that asks for a frame length of zero. -/
theorem witness_length : (⟨.FC_FRAME_LEN, 0, 0, false⟩ : TxWr).reg = .FC_FRAME_LEN ∧ bits (⟨.FC_FRAME_LEN, 0, 0, false⟩ : TxWr).val.toNat 20 16 ∉ [10, 11, 12, 13, 14, 15, 16]
    ∧ live.slotErr [] 5 ⟨.closed 0, [⟨.FC_FRAME_LEN, 0, 0, false⟩], false, 0⟩ = 0x25 := by decide +kernel

/-! ## The management bus, the test port and security -/

/-- A target with auxiliary power and an address, and one without. -/
def bused : State := { around live with i3c := ⟨some 0x31, true, 32, 32, 0x81, 0⟩ }
theorem witness_bus : bused.pins.aux = true ∧ bused.i3c.addr.isSome = true ∧ (around live).i3c.addr = none ∧ 2 ≤ bused.i3c.mrl ∧ (0x30#7).toNat = 0x30 + (around live).pins.straps ∧ (around live).pins.straps ≤ 8 := by decide +kernel
/-- A test port with IJTAG selected, and one under CLAMP with a driven output. -/
theorem witness_tap : ({ around live with tap := ⟨0x10, 0⟩ } : State).tap.ir = 0x10 ∧ pinOutput 2 = true ∧ pinOpenDrain 2 = false ∧ pinOpenDrain 4 = true ∧ (0x100#39).getLsbD (3 * 2 + 2) = true ∧ live.dieDown 3 = false ∧ live.anyConf = false
    ∧ (live.setFld .SP_CONF_CONF 3 1).anyConf = true := by decide +kernel
/-- A function with a connection and an established session, and one with every number in use. -/
def secured : Mod := { live with sec := { live.sec with negotiated := [0], sessions := [⟨0, 0, true, true, 0⟩, ⟨0, 1, false, false, 0⟩] } }
theorem witness_spdm : secured.pci.up = true ∧ 0 ∈ secured.sec.negotiated ∧ secured.inSession 0 0 = true ∧ secured.session 0 1 = some ⟨0, 1, false, false, 0⟩ ∧ secured.session 0 2 = none ∧ secured.session 1 0 = none
    ∧ ∀ k < 4, (({ live with sec := { live.sec with sessions := (List.range 4).map fun i => ⟨0, i, true, false, 0⟩ } } : Mod).session 0 k).isSome = true := by decide +kernel
/-- A RELEASE that is well formed, and one with a slot above 15. -/
def relBody (slot : Byte) : List Byte := 1 :: 0 :: slot :: List.replicate 89 0
theorem witness_keys : (keyRequest 1 (relBody 15)).isSome = true ∧ keyRequest 1 (relBody 16) = none ∧ (secured.setFld .SP_CONF_CONF 0 1).conf 0 = true ∧ (secured.session 0 0).any (·.measured) = true
    ∧ secured.polderOf 0 = 0 := by decide +kernel

/-! ## The spec's worked examples -/

/-- The block of 03's worked example, encoded into N6 with s = 122: x * 32 by element. -/
theorem test_example_n6_block : [Val.fin false 8 0, .fin false 10 0, .fin true 160 0, .fin false 352 0, .fin false 1 (-9), .fin false 5 (-9), .fin false 0 0].map (narrow .n6 false none) =
    [(0x14, 0), (0x14, 0), (0x3C, 0), (0x1E, cvSAT), (0x00, 0), (0x01, 0), (0x00, 0)] := by decide +kernel
/-- With SUB = 1 its elements 4 and 5 are flushed. -/
theorem test_example_n6_flush : [Val.fin false 1 (-9), .fin false 5 (-9)].map (narrow .n6 true none) = [(0x00, cvFLUSH), (0x00, cvFLUSH)] := by decide +kernel
/-- With RND = 1 its element 1 rounds by the draw. -/
theorem test_example_n6_draw : (narrow .n6 false (some 0x7FFF) (.fin false 10 0)).1 = 0x14 ∧ (narrow .n6 false (some 0x8000) (.fin false 10 0)).1 = 0x15 := by decide +kernel
/-- The boundary codes of R74 for N8, W8, W12 and W16: smallest and largest subnormal, smallest normal, one, largest finite. -/
theorem test_boundary_codes : (narrow .n8 false none (.fin false 1 (-6))).1 = 0x01 ∧ (narrow .n8 false none (.fin false 31 0)).1 = 0x7F ∧ (narrow .n8 false none (.fin true 31 0)).1 = 0xFF
    ∧ (narrow .w8 false none (.fin false 3 (-17))).1 = 0x03 ∧ (narrow .w8 false none (.fin false 49152 0)).1 = 0x7E ∧ (narrow .w8 false none (.fin true 40960 0)).1 = 0xFD ∧ (narrow .w8 false none (.fin false 1 0)).1 = 0x40
    ∧ (narrow .w12 false none (.fin false 1 (-30))).1 = 0x020 ∧ (narrow .w12 false none (.fin false 63 26)).1 = 0x7DF ∧ (narrow .w16 false none (.fin false 255 (-70))).1 = 0x00FF
    ∧ (narrow .w16 false none (.fin false 1 0)).1 = 0x3F00 ∧ (narrow .w16 false none (.fin false 511 55)).1 = 0x7EFF := by decide +kernel
/-- The special codes of W8 and N8 (R71). -/
theorem test_special_codes : Fmt.decode .w8 0x7F = .inf false ∧ Fmt.decode .w8 0xFE = .nan ∧ Fmt.decode .w8 0xFF = .inf true ∧ Fmt.decode .n8 0x80 = .nan ∧ (narrow .n8 false none (.fin true 0 0)).1 = 0x00
    ∧ Fmt.decode .n6 0x1F = .nan ∧ Fmt.decode .n6 0x3F = .nan := by decide +kernel
/-- The drain of 04's worked example: C = 1.21875 is F32 0x3F9C0000. -/
theorem test_example_drain : (xsum [Val.fin false 159744 (-17)]).val.toF32 = 0x3F9C0000 := by decide +kernel
/-- The same block with s_X = 0 lies below the window: +0, and the accumulator is inexact. -/
theorem test_example_below_window : (xsum [Val.fin false 159744 (-148)]).val.toF32 = 0 ∧ (xsum [Val.fin false 159744 (-148)]).fl.low = true := by decide +kernel
/-- The products of 05's worked example cancel in the forward array's accumulator, which keeps 2^-20. -/
theorem test_example_cancel : (xsum [Val.fin false 49152 0, .fin true 49152 0, .fin false 1 (-20)]).val.toF32 = 0x35800000 := by decide +kernel
/-- 02's worked example: the length for frame 50,000 commits at sluice 49,992, the last that may commit it is 49,996. -/
theorem test_example_frame_length : let ws : List TxWr := [⟨.FC_FRAME_LEN, 0, 0xD0000, false⟩, ⟨.FC_FRAME_LEN_AT_HI, 0, 0, false⟩, ⟨.FC_FRAME_LEN_AT_LO, 0, 50000, false⟩]
    lenChangeChk ws 49992 = none ∧ lenChangeChk ws 49996 = none ∧ lenChangeChk ws 49997 = some 0x25 := by decide +kernel
/-- Offsets that the tables of R58, R65, R310 and R468 give. -/
theorem test_register_offsets : regAt 0x20000C = some (.WEIR_CTRL, 0) ∧ regAt 0x300008 = some (.FC_FRAME_LEN, 0) ∧ regAt 0x100058 = some (.CQ_TAIL, 1) ∧ regAt 0x681808 = some (.MC_DIE_CTRL, 0) := by decide +kernel
/-- The caps of R461: 0 is 3,200 W, and the range is 1,200 W to 3,200 W. -/
theorem test_caps : clampCap 0 = 3200 ∧ clampCap 1199 = 1200 ∧ clampCap 1200 = 1200 ∧ clampCap 3201 = 3200 := by decide
/-- An access that no row of R495 allows. -/
theorem test_bar0_forms : (HostAcc.read 0 0x100018 3).allowed = false ∧ (HostAcc.read 0 0x10001A 4).allowed = false ∧ (HostAcc.read 0 0x100018 8).allowed = true ∧ (HostAcc.read2 0 1 3).allowed = true := by decide +kernel
/-- The example of the SHA-384 standard that R21 names. -/
theorem test_sha384_of_the_standard :
    sha384 [0x61, 0x62, 0x63] = 0xcb00753f45a35e8bb5a03d699ac65007272c32ab0eded1631a8b605a43ff5bed8086072ba1e7cc2358baeca134c825a7#384 := by decide +kernel
/-- An S-box entry that the AES standard works out. -/
theorem test_aes_substitution : aesSub 0x53#8 = 0xED#8 := by decide +kernel
/-- R116's bound at 0: the sigmoid is 0.5, and two ulps above it is the last code allowed. -/
theorem test_sigmoid_bound : withinUlps 2 (fxDrain 6 (fxOf (f32Val 0))) 0x3F000002 = true ∧ withinUlps 2 (fxDrain 6 (fxOf (f32Val 0))) 0x3F000003 = false := by decide +kernel

end Sys2Proof.Tests
end

section
/-! SUPPORT. What the counter banks and the synchronisation trace may change, seen from the rest of the module: device memory, their own state and their own registers (R435 to R445). -/

namespace Sys2Proof.Machine

/-! ## Registers of different names or places do not meet -/

theorem RegName.num_lt (r : RegName) : r.num < 256 := by cases r <;> decide

theorem RegName.num_inj {q r : RegName} (h : q.num = r.num) : q = r := by
  rw [← RegName.ofNat_ctorIdx q, ← RegName.ofNat_ctorIdx r]
  exact congrArg RegName.ofNat h

theorem regKey_inj {q r : RegName} {j i : Nat} : regKey q j = regKey r i ↔ q = r ∧ j = i := by
  constructor
  · intro h
    have hq := q.num_lt
    have hr := r.num_lt
    unfold regKey at h
    exact ⟨RegName.num_inj (by omega), by omega⟩
  · rintro ⟨rfl, rfl⟩
    rfl

theorem Mod.rd_put_of_reg_ne (s : Mod) {r q : RegName} (i j : Nat) (v : Word) (h : q ≠ r) : (s.put r i v).rd q j = s.rd q j :=
  s.rd_put_ne v fun e => h (regKey_inj.1 e).1

theorem Mod.rd_put_of_idx_ne (s : Mod) (r q : RegName) {i j : Nat} (v : Word) (h : j ≠ i) : (s.put r i v).rd q j = s.rd q j :=
  s.rd_put_ne v fun e => h (regKey_inj.1 e).2

/-! ## Writes of memory at a sluice -/

/-- Two states of the module that agree but in device memory. -/
def OnlyMemory (s t : Mod) : Prop := t = { s with mem := t.mem }

theorem OnlyMemory.refl (s : Mod) : OnlyMemory s s := rfl

theorem OnlyMemory.trans {s t u : Mod} (h : OnlyMemory s t) (k : OnlyMemory t u) : OnlyMemory s u := by
  unfold OnlyMemory at *
  rw [k, h]

theorem OnlyMemory.foldl {α : Type} {s t : Mod} {g : Mod → α → Mod} (h : OnlyMemory s t) (hg : ∀ t a, OnlyMemory t (g t a)) (l : List α) :
    OnlyMemory s (l.foldl g t) :=
  foldl_keeps (P := OnlyMemory s) (fun t a ht => ht.trans (hg t a)) l h

theorem Mod.putHead_onlyMemory (s : Mod) (p obj off v : Nat) : OnlyMemory s (s.putHead p obj off v) := by
  unfold Mod.putHead
  split <;> rfl

theorem Mod.copyBytes_onlyMemory (s : Mod) (p src dst n : Nat) : OnlyMemory s (s.copyBytes p src dst n) := rfl

theorem Mod.copySubs_onlyMemory (s : Mod) (k : Ckpt) (is : List Nat) : OnlyMemory s (s.copySubs k is) := by
  unfold Mod.copySubs
  dsimp only
  split
  · rfl
  · next o _ =>
    split
    · rfl
    · exact ((OnlyMemory.foldl (.refl s) (fun t i => t.copyBytes_onlyMemory _ _ _ _) _).trans (Mod.putHead_onlyMemory _ _ _ _ _)).trans rfl

theorem Mod.saveFirst_onlyMemory (s : Mod) (p : Nat) (addrs : List Nat) : OnlyMemory s (s.saveFirst p addrs) := by
  unfold Mod.saveFirst
  refine OnlyMemory.foldl (.refl s) (fun t k => ?_) _
  split
  · rfl
  · exact t.copySubs_onlyMemory k _

/-- Masked writes at a sluice change device memory alone. -/
theorem Mod.writeNow_onlyMemory (s : Mod) (p : Nat) (cells : List WCell) : OnlyMemory s (s.writeNow p cells) := by
  have hput : OnlyMemory s ((s.saveFirst p (dedup (cells.map fun w => w.addr / 65536 * 65536))).putMem p cells) :=
    (s.saveFirst_onlyMemory p _).trans rfl
  unfold Mod.writeNow
  dsimp only
  split
  · exact hput
  · exact hput.trans rfl

/-! ## Counter banks and the trace -/

/-- The registers that the trace keeps (R445, R446). -/
def traceRegs : List RegName := [.OB_TRACE_STATUS, .OB_TRACE_TRIG_IDX, .OB_TRACE_TRIG_FRAME_LO, .OB_TRACE_TRIG_FRAME_HI, .OB_TRACE_DROP, .OB_TRACE_WRAPS]

/-- Two states of the module that agree but in what observation changes: device memory, the counter banks and traces, the trace's registers, and the sources of signals that
releases are traced with (R443). -/
structure OnlyObserved (s t : Mod) : Prop where
  rest : t = { s with mem := t.mem, ob := t.ob, rf := t.rf, wr := { s.wr with by_ := t.wr.by_ } }
  regs : ∀ r i, r ∉ traceRegs → t.rd r i = s.rd r i

theorem OnlyObserved.refl (s : Mod) : OnlyObserved s s := ⟨rfl, fun _ _ _ => rfl⟩

theorem OnlyObserved.trans {s t u : Mod} (h : OnlyObserved s t) (k : OnlyObserved t u) : OnlyObserved s u where
  rest := by rw [k.rest, h.rest]
  regs r i hr := (k.regs r i hr).trans (h.regs r i hr)

theorem OnlyObserved.cq {s t : Mod} (h : OnlyObserved s t) : t.cq = s.cq := by rw [h.rest]
theorem OnlyObserved.ue {s t : Mod} (h : OnlyObserved s t) : t.ue = s.ue := by rw [h.rest]

theorem OnlyObserved.foldl {α : Type} {s t : Mod} {g : Mod → α → Mod} (h : OnlyObserved s t) (hg : ∀ t a, OnlyObserved t (g t a)) (l : List α) :
    OnlyObserved s (l.foldl g t) :=
  foldl_keeps (P := OnlyObserved s) (fun t a ht => ht.trans (hg t a)) l h

theorem OnlyMemory.observed {s t : Mod} (h : OnlyMemory s t) : OnlyObserved s t := by
  unfold OnlyMemory at h
  rw [h]
  exact ⟨rfl, fun _ _ _ => rfl⟩

theorem Mod.setTrace_observed (s : Mod) (p : Nat) (t : Trace) : OnlyObserved s (s.setTrace p t) := ⟨rfl, fun _ _ _ => rfl⟩

theorem Mod.put_observed (s : Mod) {q : RegName} (j : Nat) (v : Word) (h : q ∈ traceRegs) : OnlyObserved s (s.put q j v) :=
  ⟨rfl, fun _ i hr => s.rd_put_of_reg_ne j i v fun e => hr (e ▸ h)⟩

theorem Mod.countReg_observed (s : Mod) {q : RegName} (j n : Nat) (h : q ∈ traceRegs) : OnlyObserved s (s.countReg q j n) := s.put_observed j _ h

/-- Events of a counter bank. -/
theorem Mod.hubEvent_observed (s : Mod) (f p i n : Nat) : OnlyObserved s (s.hubEvent f p i n) := by
  unfold Mod.hubEvent Mod.event
  split
  · exact .refl s
  · exact ⟨rfl, fun _ _ _ => rfl⟩

/-- One record written, dropped or left out. -/
theorem Mod.putRec_observed (p f : Nat) (s : Mod) (r : Rec) : OnlyObserved s (Mod.putRec p f s r) := by
  have hdrop : ∀ t, OnlyObserved s ((s.countReg .OB_TRACE_DROP p 1).setTrace p t) := fun t =>
    (s.countReg_observed p 1 (by decide)).trans (Mod.setTrace_observed _ p t)
  unfold Mod.putRec
  dsimp only
  split
  · exact .refl s
  · next t _ =>
    split
    · exact .refl s
    · split
      · exact hdrop _
      · split
        · exact hdrop _
        · refine (OnlyObserved.trans ?_ (Mod.setTrace_observed _ p _)).trans (Mod.hubEvent_observed _ f p 22 1)
          have hw := (s.writeNow_onlyMemory p (wcells (t.base + 32 * (t.next % 2 ^ t.n)) (r.bytes p f))).observed
          split
          · exact hw.trans (Mod.countReg_observed _ p 1 (by decide))
          · exact hw

theorem Mod.openTrace_observed (p f : Nat) (s : Mod) : OnlyObserved s (Mod.openTrace p f s) := by
  unfold Mod.openTrace
  dsimp only
  split
  · exact .refl s
  · split
    · exact .refl s
    · split
      · exact s.setTrace_observed p _
      · exact (s.setTrace_observed p _).trans (Mod.putRec_observed p f _ _)

theorem Mod.fireTrace_observed (p f : Nat) (s : Mod) (r : Rec) : OnlyObserved s (Mod.fireTrace p f s r) := by
  have htrig : ∀ (t : Mod) (x y : Nat) (v : Word), OnlyObserved t (((t.put .OB_TRACE_TRIG_IDX p v).putPair .OB_TRACE_TRIG_FRAME_LO .OB_TRACE_TRIG_FRAME_HI x y).raiseNow
      .OB_TRACE_STATUS_TRIGGERED p) := fun t x y v =>
    (((t.put_observed p v (by decide)).trans (Mod.put_observed _ x _ (by decide))).trans (Mod.put_observed _ x _ (by decide))).trans
      (Mod.put_observed _ p _ (by decide))
  unfold Mod.fireTrace
  dsimp only
  split
  · exact .refl s
  · split
    · exact .refl s
    · refine OnlyObserved.trans ?_ (Mod.putRec_observed p f _ _)
      split
      · exact s.setTrace_observed p _
      · exact (s.setTrace_observed p _).trans (htrig _ _ _ _)

/-- An event for a polder's trace. -/
theorem Mod.note_observed (s : Mod) (p f : Nat) (r : Rec) : OnlyObserved s (s.note p f r) := by
  unfold Mod.note
  dsimp only
  split
  · exact .refl s
  · split
    · have hput := (Mod.openTrace_observed p f s).trans (Mod.putRec_observed p f _ r)
      split
      · exact hput.trans (Mod.fireTrace_observed p f _ r)
      · exact hput
    · exact s.setTrace_observed p _

/-- The traced ends of a command's waits. -/
theorem Mod.noteWaits_observed (f status : Nat) (s : Mod) (c : Cmd) : OnlyObserved s (Mod.noteWaits f status s c) :=
  OnlyObserved.foldl (.refl s) (fun t _ => t.note_observed _ _ _) _

end Sys2Proof.Machine
end

section
/-! SUPPORT. Step 7 of a sluice at one weir: what a signal adds, what the signals of a list add in any order, and that a release elsewhere leaves the weir (R55, R56). -/

namespace Sys2Proof.Machine

/-! ## Sorting keeps what is sorted -/

theorem insertBy_perm {α : Type} (key : α → Nat) (x : α) (l : List α) : (insertBy key x l).Perm (x :: l) := by
  induction l with
  | nil => exact .refl _
  | cons y l ih =>
    unfold insertBy
    split
    · exact .refl _
    · exact (ih.cons y).trans (.swap x y l)

theorem sortBy_perm {α : Type} (key : α → Nat) (l : List α) : (sortBy key l).Perm l := by
  have h : ∀ acc, (l.foldl (fun acc x => insertBy key x acc) acc).Perm (l ++ acc) := by
    induction l with
    | nil => exact fun acc => .refl acc
    | cons x l ih => exact fun acc => ((ih _).trans ((insertBy_perm key x acc).append_left l)).trans List.perm_middle
  simpa [sortBy] using h []

/-! ## What a list of signals adds to a weir -/

/-- The sum of a list's signals to a weir. -/
def addedTo (n : Nat) (l : List Sig) : Nat := ((l.filter fun g => g.weir == n).map (·.add)).sum

@[simp] theorem addedTo_nil (n : Nat) : addedTo n [] = 0 := rfl

theorem addedTo_cons (n : Nat) (g : Sig) (l : List Sig) : addedTo n (g :: l) = (if g.weir = n then g.add else 0) + addedTo n l := by
  by_cases h : g.weir = n <;> simp [addedTo, h]

theorem addedTo_perm {n : Nat} {l k : List Sig} (h : l.Perm k) : addedTo n l = addedTo n k := ((h.filter _).map _).sum_eq

/-! ## One signal -/

/-- A weir's count. -/
def Mod.count (s : Mod) (n : Nat) : Nat := (s.rd .WEIR_COUNT n).toNat

theorem Mod.ovf_iff (s : Mod) (n : Nat) : s.bit .WEIR_CTRL_OVF n = true ↔ (s.rd .WEIR_CTRL n).getLsbD 2 = true := by
  have e : s.bit .WEIR_CTRL_OVF n = ((s.rd .WEIR_CTRL n).toNat / 2 ^ 2 % 2 != 0) := rfl
  rw [e, BitVec.getLsbD, Nat.testBit_eq_decide_div_mod_eq]
  simp

/-- The overflow flag that is raised is set. -/
theorem Mod.ovf_raiseNow (s : Mod) (n : Nat) : (s.raiseNow .WEIR_CTRL_OVF n).bit .WEIR_CTRL_OVF n = true := by
  have e : (s.raiseNow .WEIR_CTRL_OVF n).rd .WEIR_CTRL n = s.rd .WEIR_CTRL n ||| 4#32 := Mod.rd_put_same s .WEIR_CTRL n _
  rw [Mod.ovf_iff, e, BitVec.getLsbD_or]
  simp

/-- A signal of amount 0 is only observed; another sets its weir's count to the saturated sum, and raises the flag where that is not the sum. -/
theorem Mod.addSignal_cases (f : Nat) (s : Mod) (g : Sig) :
    (g.add = 0 ∧ OnlyObserved s (Mod.addSignal f s g)) ∨
    ∃ t, OnlyObserved s t ∧ Mod.addSignal f s g =
      (let m := t.put .WEIR_COUNT g.weir (BitVec.ofNat 32 (min (s.count g.weir + g.add) 0xFFFFFFFF))
       if 0xFFFFFFFF < s.count g.weir + g.add then m.raiseNow .WEIR_CTRL_OVF g.weir else m) := by
  have ht : OnlyObserved s ((s.note (s.weirPol g.weir) f (.of 2 g.src g.weir g.add g.seq 0)).hubEvent f (s.weirPol g.weir) 3 1) :=
    (s.note_observed _ _ _).trans (Mod.hubEvent_observed _ _ _ _ _)
  have hc : _ = s.count g.weir := congrArg BitVec.toNat (ht.regs .WEIR_COUNT g.weir (by decide))
  unfold Mod.addSignal
  dsimp only
  split
  · next h0 => exact .inl ⟨h0, ht⟩
  · rw [hc]
    refine .inr ⟨_, ?_, rfl⟩
    split
    · exact ht.trans ⟨rfl, fun _ _ _ => rfl⟩
    · exact ht

theorem Mod.addSignal_cq (f : Nat) (s : Mod) (g : Sig) : (Mod.addSignal f s g).cq = s.cq := by
  obtain ⟨-, h⟩ | ⟨t, h, e⟩ := Mod.addSignal_cases f s g
  · exact h.cq
  · rw [e]
    dsimp only
    split <;> exact h.cq

theorem Mod.addSignal_ue (f : Nat) (s : Mod) (g : Sig) : (Mod.addSignal f s g).ue = s.ue := by
  obtain ⟨-, h⟩ | ⟨t, h, e⟩ := Mod.addSignal_cases f s g
  · exact h.ue
  · rw [e]
    dsimp only
    split <;> exact h.ue

/-- A count is a register's value, so it lies at or below the value at which it saturates. -/
theorem Mod.count_le (s : Mod) (n : Nat) : s.count n ≤ 0xFFFFFFFF := by
  have := (s.rd .WEIR_COUNT n).isLt
  unfold Mod.count
  omega

/-- A signal of the weir adds its amount up to the largest count; one of another weir adds nothing. -/
theorem Mod.addSignal_count (f : Nat) (s : Mod) (g : Sig) (n : Nat) :
    (Mod.addSignal f s g).count n = min (s.count n + if g.weir = n then g.add else 0) 0xFFFFFFFF := by
  have hn := s.count_le n
  have hcount : ∀ t, OnlyObserved s t → t.count n = s.count n := fun t h => congrArg BitVec.toNat (h.regs .WEIR_COUNT n (by decide))
  obtain ⟨h0, h⟩ | ⟨t, h, e⟩ := Mod.addSignal_cases f s g
  · rw [hcount _ h, h0]
    split <;> omega
  · have hraise : ∀ m : Mod, (m.raiseNow .WEIR_CTRL_OVF g.weir).count n = m.count n := fun m =>
      congrArg BitVec.toNat (m.rd_put_of_reg_ne g.weir n _ (by decide))
    have hput : (t.put .WEIR_COUNT g.weir (BitVec.ofNat 32 (min (s.count g.weir + g.add) 0xFFFFFFFF))).count n
        = min (s.count n + if g.weir = n then g.add else 0) 0xFFFFFFFF := by
      by_cases hw : g.weir = n
      · subst hw
        rw [Mod.count, Mod.rd_put_same, BitVec.toNat_ofNat, if_pos rfl]
        omega
      · rw [Mod.count, Mod.rd_put_of_idx_ne _ _ _ _ (Ne.symm hw), if_neg hw]
        have := hcount t h
        unfold Mod.count at *
        omega
    rw [e]
    dsimp only
    split
    · rw [hraise, hput]
    · exact hput

/-- A signal raises its weir's overflow flag where the sum passes the largest count, and leaves every other flag. -/
theorem Mod.addSignal_ovf (f : Nat) (s : Mod) (g : Sig) (n : Nat) :
    (Mod.addSignal f s g).bit .WEIR_CTRL_OVF n = true ↔ 0xFFFFFFFF < (s.count n + if g.weir = n then g.add else 0) ∨ s.bit .WEIR_CTRL_OVF n = true := by
  have hn := s.count_le n
  have hsame : ∀ t : Mod, t.rd .WEIR_CTRL n = s.rd .WEIR_CTRL n → (t.bit .WEIR_CTRL_OVF n = true ↔ s.bit .WEIR_CTRL_OVF n = true) := fun t h => by
    rw [Mod.ovf_iff, Mod.ovf_iff, h]
  obtain ⟨h0, h⟩ | ⟨t, h, e⟩ := Mod.addSignal_cases f s g
  · have hover : ¬ 0xFFFFFFFF < (s.count n + if g.weir = n then g.add else 0) := by
      rw [h0]
      split <;> omega
    rw [hsame _ (h.regs .WEIR_CTRL n (by decide)), or_iff_right hover]
  · have hput : (t.put .WEIR_COUNT g.weir (BitVec.ofNat 32 (min (s.count g.weir + g.add) 0xFFFFFFFF))).rd .WEIR_CTRL n = s.rd .WEIR_CTRL n :=
      (t.rd_put_of_reg_ne g.weir n _ (by decide)).trans (h.regs .WEIR_CTRL n (by decide))
    rw [e]
    dsimp only
    by_cases hw : g.weir = n
    · subst hw
      rw [if_pos rfl]
      split
      · next hover => exact iff_of_true (Mod.ovf_raiseNow _ _) (.inl hover)
      · next hover => rw [hsame _ hput, or_iff_right hover]
    · rw [if_neg hw, or_iff_right (by omega), hsame]
      split
      · exact (Mod.rd_put_of_idx_ne _ _ _ _ (Ne.symm hw)).trans hput
      · exact hput

/-! ## The signals of a frame -/

theorem Mod.addSignals_cq (f : Nat) (l : List Sig) (s : Mod) : (l.foldl (Mod.addSignal f) s).cq = s.cq :=
  foldl_keeps (P := fun t : Mod => t.cq = s.cq) (fun t g h => (t.addSignal_cq f g).trans h) l rfl

theorem Mod.addSignals_ue (f : Nat) (l : List Sig) (s : Mod) : (l.foldl (Mod.addSignal f) s).ue = s.ue :=
  foldl_keeps (P := fun t : Mod => t.ue = s.ue) (fun t g h => (t.addSignal_ue f g).trans h) l rfl

/-- A list of signals adds its sum to a weir's count, which saturates (R55). -/
theorem Mod.addSignals_count (f n : Nat) (l : List Sig) (s : Mod) : (l.foldl (Mod.addSignal f) s).count n = min (s.count n + addedTo n l) 0xFFFFFFFF := by
  induction l generalizing s with
  | nil =>
    have := s.count_le n
    simpa using this
  | cons g l ih =>
    rw [List.foldl_cons, ih, Mod.addSignal_count, addedTo_cons]
    omega

/-- A list of signals raises a weir's overflow flag where its sum passes the largest count (R55). -/
theorem Mod.addSignals_ovf (f n : Nat) (l : List Sig) (s : Mod) :
    (l.foldl (Mod.addSignal f) s).bit .WEIR_CTRL_OVF n = true ↔ 0xFFFFFFFF < s.count n + addedTo n l ∨ s.bit .WEIR_CTRL_OVF n = true := by
  induction l generalizing s with
  | nil =>
    have := s.count_le n
    rw [List.foldl_nil, addedTo_nil, or_iff_right (by omega)]
  | cons g l ih =>
    rw [List.foldl_cons, ih, Mod.addSignal_count, Mod.addSignal_ovf, addedTo_cons, ← or_assoc]
    exact or_congr_left (by omega)

/-- The order of a list of signals matters neither to a weir's count nor to its flag (R55). -/
theorem Mod.addSignals_of_perm (f n : Nat) {l k : List Sig} (h : l.Perm k) (s : Mod) :
    (l.foldl (Mod.addSignal f) s).count n = min (s.count n + addedTo n k) 0xFFFFFFFF
      ∧ ((l.foldl (Mod.addSignal f) s).bit .WEIR_CTRL_OVF n = true ↔ 0xFFFFFFFF < s.count n + addedTo n k ∨ s.bit .WEIR_CTRL_OVF n = true) := by
  rw [← addedTo_perm h]
  exact ⟨s.addSignals_count f n l, s.addSignals_ovf f n l⟩

/-! ## Releases -/

/-- Waits are read off the commands and the step loop alone. -/
theorem Mod.waitedWeirs_congr {s t : Mod} (hc : t.cq = s.cq) (hu : t.ue = s.ue) : t.waitedWeirs = s.waitedWeirs := by
  unfold Mod.waitedWeirs Mod.loopWaits
  rw [hc, hu]

/-- A release of another weir leaves a weir's registers. -/
theorem Mod.rd_releaseWeir_ne (f : Nat) (s : Mod) {m n : Nat} (h : n ≠ m) (r : RegName) (hr : r ∉ traceRegs) :
    (Mod.releaseWeir f s m).rd r n = s.rd r n := by
  have hcyclic : ∀ (b : Bool) (v : Word), (if b then s.put .WEIR_COUNT m v else s).rd r n = s.rd r n := fun b v => by
    split
    · exact s.rd_put_of_idx_ne _ _ _ h
    · rfl
  have htraced : ∀ (t : Mod) (p q i k : Nat) (x : Rec) (l : List Cmd) (g : Cmd → Cmd),
      (l.foldl (fun s c => s.noteWaits f 0 (g c)) ((t.note p f x).hubEvent f q i k)).rd r n = t.rd r n := fun t p q i k x l g =>
    (OnlyObserved.foldl ((t.note_observed p f x).trans (Mod.hubEvent_observed _ f q i k)) (fun t c => t.noteWaits_observed f 0 (g c)) l).regs r n hr
  unfold Mod.releaseWeir
  dsimp only
  split
  · rfl
  · exact (htraced _ _ _ _ _ _ _ _).trans (hcyclic _ _)

/-- The evaluation of weirs leaves a weir on which nothing waits. -/
theorem Mod.rd_releaseWeirs (f : Nat) (s : Mod) {n : Nat} (h : n ∉ s.waitedWeirs) (r : RegName) (hr : r ∉ traceRegs) :
    (s.releaseWeirs f).rd r n = s.rd r n := by
  unfold Mod.releaseWeirs
  generalize s.waitedWeirs = l at h
  induction l generalizing s with
  | nil => rfl
  | cons m l ih =>
    obtain ⟨hm, hl⟩ := not_or.1 (mt List.mem_cons.2 h)
    exact (ih _ hl).trans (s.rd_releaseWeir_ne f hm r hr)

/-! ## The statement -/

/-- Step 7 at a weir on which nothing waits, in the state that the clears leave: the sorted signals are added, and no release follows there. -/
theorem Mod.weirStep_rd (s : Mod) (f n : Nat) (r : RegName) (hr : r ∉ traceRegs) :
    let c := s.wr.clears.foldl (Mod.clearWeir f) s
    let sigs := sortBy Sig.order (c.wr.sigs ++ (c.cq.cmds.filter fun x => x.done f && !x.told).flatMap c.signalsOf)
    n ∉ c.waitedWeirs →
      (s.weirStep f).rd r n = (sigs.foldl (Mod.addSignal f) { c with wr := { c.wr with sigs := [], clears := [], released := [] } }).rd r n := by
  intro c sigs hn
  refine Mod.rd_releaseWeirs f _ ?_ r hr
  rw [Mod.waitedWeirs_congr (Mod.addSignals_cq f _ _) (Mod.addSignals_ue f _ _)]
  exact hn

/-- Settles O55: a list of signals adds its saturated sum to a weir, by induction on the list; the sum does not depend on the order, so neither the frame's own sorting nor another
order matters; and a weir on which nothing waits keeps it through the releases. -/
theorem weirSignalsAreSummedAndSaturate : Obligations.WeirSignalsAreSummedAndSaturate := by
  unfold Obligations.WeirSignalsAreSummedAndSaturate
  intro s f n c sigs sum
  refine ⟨fun hn => ?_, fun order hperm => Mod.addSignals_of_perm f n hperm c⟩
  rw [Mod.ovf_iff (s.weirStep f), s.weirStep_rd f n .WEIR_COUNT (by decide) hn, s.weirStep_rd f n .WEIR_CTRL (by decide) hn, ← Mod.ovf_iff]
  exact Mod.addSignals_of_perm f n (sortBy_perm _ sigs) _

end Sys2Proof.Machine
end

section
/-! SUPPORT. What a row may change of the auxiliary supply, of a shutdown and THERMTRIP#, and of the bus target's address, said once for every row (R466, R483, R491, R499). -/

namespace Sys2Proof.Machine

/-! ## Nothing of it changes -/

/-- The auxiliary supply, THERMTRIP#, a shutdown in force and the bus target's address are as they were. -/
structure SameHold (s t : State) : Prop where
  aux : t.pins.aux = s.pins.aux
  trip : t.pins.thermTrip = s.pins.thermTrip
  down : t.pins.shutdown = s.pins.shutdown
  addr : t.i3c.addr = s.i3c.addr

theorem SameHold.refl (s : State) : SameHold s s := ⟨rfl, rfl, rfl, rfl⟩

theorem SameHold.trans {s t u : State} (h : SameHold s t) (g : SameHold t u) : SameHold s u :=
  ⟨g.aux.trans h.aux, g.trip.trans h.trip, g.down.trans h.down, g.addr.trans h.addr⟩

theorem SameHold.ite {s t u : State} {c : Prop} [Decidable c] (h : SameHold s t) (g : SameHold s u) : SameHold s (if c then t else u) := by
  split
  · exact h
  · exact g

theorem SameHold.of_next {s t u : State} (hu : SameHold s u) (h : (.next u : Host.Outcome State Fault Refusal) = .next t) : SameHold s t := by
  cases h
  exact hu

/-! ## The shared answers of rows -/

/-- A guarded row acts on the module alone. -/
theorem State.when_sameHold {s t : State} {b : Bool} {m : Mod} (h : s.when b m = .next t) : SameHold s t := by
  obtain ⟨-, rfl⟩ := State.when_next.1 h
  exact ⟨rfl, rfl, rfl, rfl⟩

theorem State.onMsg_sameHold {s t : State} {l : Fin 32} {k : Nat} {f : Mod → Msg → Mod} (h : s.onMsg l k f = .next t) : SameHold s t := by
  unfold State.onMsg at h
  split at h
  · cases h
    exact ⟨rfl, rfl, rfl, rfl⟩
  · cases h

theorem State.onHeld_sameHold {s t : State} {l : Fin 32} {k : Nat} {f : Mod → Msg → Mod} (h : s.onHeld l k f = .next t) : SameHold s t := by
  unfold State.onHeld at h
  split at h
  · cases h
    exact ⟨rfl, rfl, rfl, rfl⟩
  · cases h

/-- A private command has the reach of its effect. -/
theorem State.i3cCmd_sameHold {s t : State} {args : List Byte} {n : Nat} {f : Nat → State × Byte × List Byte} (h : s.i3cCmd args n f = .next t)
    (hf : ∀ k, SameHold s (f k).1) : SameHold s t := by
  unfold State.i3cCmd at h
  split at h
  · exact (SameHold.refl s).of_next h
  · split at h <;> cases h
    · exact ⟨rfl, rfl, rfl, rfl⟩
    · obtain ⟨ha, ht, hd, hi⟩ := hf (leNat args)
      exact ⟨ha, ht, hd, hi⟩

/-- A common command code has the reach of its effect. -/
theorem State.ccc_sameHold {s t u : State} {b : Bool} (h : s.ccc b u = .next t) (hu : SameHold s u) : SameHold s t :=
  (SameHold.ite hu (.refl s)).of_next h

theorem State.loadIr_sameHold {s t : State} {code : Nat} (h : s.loadIr code = .next t) : SameHold s t := by
  unfold State.loadIr at h
  cases h
  exact .ite ⟨rfl, rfl, rfl, rfl⟩ (.refl s)

theorem State.instrument_sameHold {s t : State} {d : Option Nat} {o : Bool} {n : Nat} {f : Mod → Mod × Nat} (h : s.instrument d o n f = .next t) : SameHold s t := by
  unfold State.instrument at h
  extract_lets m at h
  split at h
  · exact (SameHold.refl s).of_next h
  · split at h
    · cases h
      exact ⟨rfl, rfl, rfl, rfl⟩
    · split at h
      · cases h
        exact ⟨rfl, rfl, rfl, rfl⟩
      · rw [← Host.Outcome.next.inj h]
        exact ⟨rfl, rfl, rfl, rfl⟩

theorem State.latch_sameHold (s : State) (b : Nat) : SameHold s (s.latch b) := by
  unfold State.latch
  dsimp only
  exact .ite ⟨rfl, rfl, rfl, rfl⟩ ⟨rfl, rfl, rfl, rfl⟩

theorem State.powerOff_sameHold (s : State) : SameHold s s.powerOff := .ite ⟨rfl, rfl, rfl, rfl⟩ (.refl s)

theorem State.powerOn_sameHold (s : State) : SameHold s s.powerOn := .ite ⟨rfl, rfl, rfl, rfl⟩ (.refl s)

theorem execSamplePreload_sameHold {s t : State} {load : BitVec 39} (h : execSamplePreload load s = .next t) : SameHold s t := by
  unfold execSamplePreload at h
  split at h <;> (cases h; exact ⟨rfl, rfl, rfl, rfl⟩)

/-- An edge takes the sluice that waits for it, and is nothing to a module that does not wait. -/
theorem execFrameSyncRise_sameHold {s t : State} (h : execFrameSyncRise s = .next t) : SameHold s t := by
  unfold execFrameSyncRise at h
  split at h
  · exact State.when_sameHold h
  · exact (SameHold.refl s).of_next h

/-! ## Rows that answer by a guarded row in each of their cases -/

theorem execRegisterWrite_when (h : Port) (off : BitVec 26) (len : Nat) (v : DWord) (s : State) : ∃ b m, execRegisterWrite h off len v s = s.when b m := by
  unfold execRegisterWrite
  split <;> exact ⟨_, _, rfl⟩

theorem execRegisterRead_when (h : Port) (off : BitVec 26) (len : Nat) (s : State) : ∃ b m, execRegisterRead h off len s = s.when b m := by
  unfold execRegisterRead
  split <;> exact ⟨_, _, rfl⟩

theorem execGetMeasurements_when (f : Fin 8) (n : Option (Fin 4)) (index : Byte) (nonce : List Byte) (s : State) :
    ∃ b m, execGetMeasurements f n index nonce s = s.when b m := by
  unfold execGetMeasurements
  dsimp only
  split <;> exact ⟨_, _, rfl⟩

/-! ## Rows of the supplies -/

theorem execPwrEnDeassert_sameHold {s t : State} (h : execPwrEnDeassert s = .next t) : SameHold s t := by
  rw [← Host.Outcome.next.inj h]
  exact s.powerOff_sameHold.trans ⟨rfl, rfl, rfl, rfl⟩

/-- Rails that are removed for a fault, with what the rail word then shows. -/
theorem State.railsLost_sameHold (s : State) (p : Pins → Pins) (hp : ∀ q, (p q).aux = q.aux ∧ (p q).thermTrip = q.thermTrip ∧ (p q).shutdown = q.shutdown) :
    let u := s.powerOff.latch 0x08
    SameHold s { u with pins := p u.pins } := by
  intro u
  obtain ⟨ha, ht, hd⟩ := hp u.pins
  exact (s.powerOff_sameHold.trans (State.latch_sameHold _ 0x08)).trans ⟨ha, ht, hd, rfl⟩

theorem execP48vBelow36V_sameHold {s t : State} (h : execP48vBelow36V s = .next t) : SameHold s t := by
  have volt : SameHold s { s with pins := { s.pins with volt := .absent } } := ⟨rfl, rfl, rfl, rfl⟩
  unfold execP48vBelow36V at h
  extract_lets p u at h
  split at h <;> rw [← Host.Outcome.next.inj h]
  · exact volt.trans (State.railsLost_sameHold _ (fun q => { q with railFault := true }) fun _ => ⟨rfl, rfl, rfl⟩)
  · exact volt

theorem execRailFault_sameHold {s t : State} {rail : Fin 9} (h : execRailFault rail s = .next t) : SameHold s t := by
  unfold execRailFault at h
  split at h
  · rw [← Host.Outcome.next.inj h]
    exact s.railsLost_sameHold (fun q => { q with railFault := true, rails := 2 ^ rail.val }) fun _ => ⟨rfl, rfl, rfl⟩
  · cases h

theorem execPerstAssert_sameHold {s t : State} (h : execPerstAssert s = .next t) : SameHold s t := by
  unfold execPerstAssert at h
  extract_lets p u at h
  split at h <;> (rw [← Host.Outcome.next.inj h]; exact ⟨rfl, rfl, rfl, rfl⟩)

theorem execFastPowerLimit_sameHold {s t : State} (h : execFastPowerLimit s = .next t) : SameHold s t := by
  have asked : SameHold s { s with m := { s.m with pwr := { s.m.pwr with pendFast := true } } } := ⟨rfl, rfl, rfl, rfl⟩
  unfold execFastPowerLimit at h
  split at h
  · rw [← Host.Outcome.next.inj h]
    exact asked.trans (State.latch_sameHold _ _)
  · cases h

/-- The rails ramp after a change of the pins that leaves the rest. -/
theorem State.ramp_sameHold (s : State) {p : Pins} (hp : p.aux = s.pins.aux ∧ p.thermTrip = s.pins.thermTrip ∧ p.shutdown = s.pins.shutdown) :
    SameHold s ({ s with pins := p } : State).powerOn := by
  obtain ⟨ha, ht, hd⟩ := hp
  exact SameHold.trans (t := { s with pins := p }) ⟨ha, ht, hd, rfl⟩ (State.powerOn_sameHold _)

/-! ## A shutdown -/

/-- A shutdown starts: THERMTRIP# is low from then on. -/
structure ShutsDown (s t : State) : Prop where
  aux : t.pins.aux = s.pins.aux
  addr : t.i3c.addr = s.i3c.addr
  before : s.pins.shutdown = false
  after : t.pins.shutdown = true
  trip : t.pins.thermTrip = true

/-- A shutdown starts where none is in force, and is otherwise latched in the alert byte alone. -/
theorem State.beginShutdown_cases (s : State) (high : Bool) : SameHold s (s.beginShutdown high) ∨ ShutsDown s (s.beginShutdown high) := by
  unfold State.beginShutdown
  generalize (if high then 0x42 else 0x02) = bits
  obtain ⟨ha, ht, hd, hi⟩ := s.latch_sameHold bits
  dsimp only
  split
  · exact .inl ⟨ha, ht, hd, hi⟩
  · next h => exact .inr ⟨ha, hi, by simpa [hd] using h, rfl, rfl⟩

theorem SameHold.trans_cases {s t u : State} (h : SameHold s t) (g : SameHold t u ∨ ShutsDown t u) : SameHold s u ∨ ShutsDown s u := by
  rcases g with g | g
  · exact .inl (h.trans g)
  · exact .inr ⟨g.aux.trans h.aux, g.addr.trans h.addr, h.down.symm.trans g.before, g.after, g.trip⟩

theorem execInputVoltageFault_cases {s t : State} {high : Bool} (h : execInputVoltageFault high s = .next t) : SameHold s t ∨ ShutsDown s t := by
  have low : SameHold s (if high then s else { s with pins := { s.pins with volt := .low } }) := .ite (.refl s) ⟨rfl, rfl, rfl, rfl⟩
  unfold execInputVoltageFault at h
  split at h
  · rw [← Host.Outcome.next.inj h]
    exact low.trans_cases (State.beginShutdown_cases _ high)
  · cases h

/-- What readings bring: an alert where one crosses its threshold, a shutdown where one trips. -/
theorem State.reading_cases (s : State) (m : Mod) (crossed trip : Bool) :
    let a : State := if crossed then ({ s with m := m } : State).latch 0x01 else { s with m := m }
    SameHold s (if trip then a.beginShutdown false else a) ∨ ShutsDown s (if trip then a.beginShutdown false else a) := by
  intro a
  have read : SameHold s ({ s with m := m } : State) := ⟨rfl, rfl, rfl, rfl⟩
  have alert : SameHold s a := .ite (read.trans (State.latch_sameHold _ _)) read
  split
  · exact alert.trans_cases (State.beginShutdown_cases a false)
  · exact .inl alert

theorem execThermalReading_cases {s t : State} {r : List (BitVec 16 × Int)} (h : execThermalReading r s = .next t) : SameHold s t ∨ ShutsDown s t := by
  unfold execThermalReading at h
  split at h
  · cases h
  · rw [← Host.Outcome.next.inj h]
    exact State.reading_cases s _ _ _

/-! ## A start -/

/-- A start step that does not end the start is the last one begun. -/
theorem StartRun.next_step {x : StartRun} {n prev : Nat} {skipEn ends cut : Bool} (h : (x.next n prev skipEn ends cut).halted = false) :
    (x.next n prev skipEn ends cut).step = n := by
  unfold StartRun.next at h ⊢
  dsimp only at h ⊢
  split_ifs at h ⊢
  · simp_all
  · rfl
  · rfl

/-- A start that no step ends runs to READY, the eighth step. -/
theorem State.startRun_step {s : State} {r : StartResult} (h : (s.startRun r).halted = false) : (s.startRun r).step = 8 := StartRun.next_step h

/-- A start is past step HUB exactly where it has begun a later step: one that ends at no step ends at the eighth. -/
theorem State.past_hub (s : State) (r : StartResult) :
    (decide (4 < (s.startRun r).step) || ((s.startRun r).step == 4 && !(s.startRun r).halted)) = decide (4 < (s.startRun r).step) := by
  cases h : (s.startRun r).halted with
  | true => simp
  | false => simp [State.startRun_step h]

/-- What a start does: THERMTRIP# is let go past step HUB and else kept, and a shutdown in force is ended or kept. -/
structure Starts (s t : State) (r : StartResult) : Prop where
  aux : t.pins.aux = s.pins.aux
  addr : t.i3c.addr = s.i3c.addr
  trip : t.pins.thermTrip = if 4 < (s.startRun r).step then false else s.pins.thermTrip
  down : t.pins.shutdown = true → s.pins.shutdown = true

theorem State.ready_sameHold (s : State) (x : StartRun) (r : StartResult) : SameHold s (s.ready x r) := by
  have kept : ∀ m : Mod, SameHold s ({ s with m := m, pins := { s.pins with perst := false, memKept := false } } : State) := fun _ => ⟨rfl, rfl, rfl, rfl⟩
  exact (kept _).trans (State.latch_sameHold _ 0x20)

theorem Starts.of_sameHold {s t u : State} {r : StartResult} (h : Starts s t r) (g : SameHold t u) : Starts s u r :=
  ⟨g.aux.trans h.aux, g.addr.trans h.addr, g.trip.trans h.trip, fun d => h.down (g.down.symm.trans d)⟩

/-- The steps of a start change the pins as they are passed: step CLK ends a shutdown, step HUB lets THERMTRIP# go and reads the straps. -/
theorem State.passed_starts (s : State) (r : StartResult) (clk : Bool) (m : Mod) (tap : Tap) (straps : Nat) {hub : Bool} (h : hub = decide (4 < (s.startRun r).step)) :
    let p := if clk then { s.pins with shutdown := false } else s.pins
    Starts s { s with m := m, tap := tap, pins := if hub then { p with thermTrip := false, straps := straps } else p } r := by
  intro p
  have hp : p.aux = s.pins.aux ∧ p.thermTrip = s.pins.thermTrip ∧ (p.shutdown = true → s.pins.shutdown = true) := by
    unfold p
    split
    · exact ⟨rfl, rfl, nofun⟩
    · exact ⟨rfl, rfl, id⟩
  obtain ⟨ha, ht, hd⟩ := hp
  subst h
  by_cases past : 4 < (s.startRun r).step
  · exact ⟨by simpa [past] using ha, rfl, by simp [past], by simpa [past] using hd⟩
  · exact ⟨by simpa [past] using ha, rfl, by simpa [past] using ht, by simpa [past] using hd⟩

/-- A start's end, cut off, halted or at READY, sets PERST# and the alert byte. -/
theorem State.endStart_sameHold (s : State) (x : StartRun) (r : StartResult) (m m' : Mod) :
    SameHold s (if x.cut then { s with m := m, pins := { s.pins with perst := true } }
      else if x.halted then ({ s with m := m', pins := { s.pins with perst := false } } : State).latch 0x10 else s.ready x r) := by
  have perst : ∀ (m : Mod) (b : Bool), SameHold s ({ s with m := m, pins := { s.pins with perst := b } } : State) := fun _ _ => ⟨rfl, rfl, rfl, rfl⟩
  exact .ite (perst m true) (.ite ((perst m' false).trans (State.latch_sameHold _ _)) (s.ready_sameHold x r))

theorem State.start_starts (s : State) (r : StartResult) : Starts s (s.start r) r :=
  (s.passed_starts r _ _ _ _ (s.past_hub r)).of_sameHold (State.endStart_sameHold _ (s.startRun r) r _ _)

/-! ## Every row -/

/-- The codes that give the bus target an address or take it (R498, R499). -/
inductive AddressCode : Instr → Prop
  | entdaa (a : BitVec 7) : AddressCode (.entdaa a)
  | setdasa (old a : BitVec 7) : AddressCode (.setdasa old a)
  | setnewda (old a : BitVec 7) : AddressCode (.setnewda old a)
  | rstdaa : AddressCode .rstdaa
  | rstact (d : Option (BitVec 7)) (k : Byte) : AddressCode (.rstact d k)

/-- What a row does to the auxiliary supply, a shutdown, THERMTRIP# and the bus target's address. -/
inductive HoldStep (i : Instr) (s t : State) : Prop
  | same (h : SameHold s t)
  | address (h : AddressCode i) (pins : t.pins = s.pins)
  | shutdown (h : ShutsDown s t)
  | auxUp (before : s.pins.aux = false) (trip : t.pins.thermTrip = s.pins.thermTrip) (down : t.pins.shutdown = s.pins.shutdown)
  | auxDown (h : i = .auxUndervoltage) (trip : t.pins.thermTrip = false) (down : t.pins.shutdown = false)
  | start (r : StartResult) (h : i = .moduleStart r) (starts : Starts s t r)

theorem HoldStep.of_cases {i : Instr} {s t : State} (h : SameHold s t ∨ ShutsDown s t) : HoldStep i s t := h.elim .same .shutdown

/-- An address code, heard or not, leaves the pins. -/
theorem State.ccc_holdStep {i : Instr} {s t u : State} {b : Bool} (h : s.ccc b u = .next t) (hi : AddressCode i) (hu : u.pins = s.pins) : HoldStep i s t := by
  refine .address hi ?_
  rw [← Host.Outcome.next.inj h]
  split
  · exact hu
  · rfl

theorem exec_auxPowerUp_holdStep {x : BitVec 4} {s t : State} (h : exec (.auxPowerUp x) s = .next t) : HoldStep (.auxPowerUp x) s t := by
  change execAuxPowerUp x s = .next t at h
  unfold execAuxPowerUp at h
  split at h
  · cases h
  · next aux =>
    rw [← Host.Outcome.next.inj h]
    obtain ⟨-, trip, down, -⟩ := State.powerOn_sameHold
      { s with pins := { s.pins with aux := true, straps := x.toNat }, i3c := ⟨none, false, 32, 32, 0, 0⟩, tap := ⟨1, s.tap.boundary⟩ }
    exact .auxUp (by simpa using aux) trip down

theorem exec_auxUndervoltage_holdStep {s t : State} (h : exec .auxUndervoltage s = .next t) : HoldStep .auxUndervoltage s t := by
  change execAuxUndervoltage s = .next t at h
  unfold execAuxUndervoltage at h
  split at h
  · rw [← Host.Outcome.next.inj h]
    exact .auxDown rfl rfl rfl
  · cases h

theorem exec_moduleStart_holdStep {r : StartResult} {s t : State} (h : exec (.moduleStart r) s = .next t) : HoldStep (.moduleStart r) s t := by
  change execModuleStart r s = .next t at h
  unfold execModuleStart at h
  split at h
  · rw [← Host.Outcome.next.inj h]
    exact .start r rfl (s.start_starts r)
  · cases h

/-- A row that acts on the pins or the bus does one of these; every other row acts on the module alone. -/
theorem exec_holdStep {i : Instr} {s t : State} (h : exec i s = .next t) : HoldStep i s t := by
  cases i
  case auxPowerUp => exact exec_auxPowerUp_holdStep h
  case auxUndervoltage => exact exec_auxUndervoltage_holdStep h
  case moduleStart => exact exec_moduleStart_holdStep h
  case inputVoltageFault => exact .of_cases (execInputVoltageFault_cases h)
  case thermalReading => exact .of_cases (execThermalReading_cases h)
  case entdaa | setdasa | setnewda | rstdaa | rstact => exact State.ccc_holdStep h (by constructor) rfl
  case enec | disec | setmrl | setmwl | getpid | getbcr | getdcr | getstatus | getmrl | getmwl | getmxds =>
    exact .same (State.ccc_sameHold h ⟨rfl, rfl, rfl, rfl⟩)
  case readSensor | readStatus | setCap | readCap | readId | alertRead | alertClear | alertMask =>
    unfold exec at h
    exact .same (State.i3cCmd_sameHold h fun _ => ⟨rfl, rfl, rfl, rfl⟩)
  case readLedger =>
    unfold exec at h
    exact .same (State.i3cCmd_sameHold h fun _ => by split <;> exact .refl s)
  case pwrEnAssert | p48vReaching40V =>
    rw [← Host.Outcome.next.inj h]
    exact .same (s.ramp_sameHold ⟨rfl, rfl, rfl⟩)
  case pwrEnDeassert => exact .same (execPwrEnDeassert_sameHold h)
  case p48vBelow36V => exact .same (execP48vBelow36V_sameHold h)
  case railFault => exact .same (execRailFault_sameHold h)
  case perstAssert => exact .same (execPerstAssert_sameHold h)
  case fastPowerLimit => exact .same (execFastPowerLimit_sameHold h)
  case extest | clamp | highz | ijtag | bypass => exact .same (State.loadIr_sameHold h)
  case idcode | tapReset =>
    rw [← Host.Outcome.next.inj h]
    exact .same (.ite ⟨rfl, rfl, rfl, rfl⟩ (.refl s))
  case samplePreload => exact .same (execSamplePreload_sameHold h)
  case bcResult | pprStatus | misrRead | scanEn =>
    unfold exec at h
    exact .same (State.instrument_sameHold h)
  case frameSyncRise => exact .same (execFrameSyncRise_sameHold h)
  case idle | mgmt | xfer | rowadd => exact .same (State.onMsg_sameHold h)
  case shard | result | ballot | close => exact .same (State.onHeld_sameHold h)
  case registerWrite p off len v =>
    obtain ⟨b, m, e⟩ := execRegisterWrite_when p off len v s
    exact .same (State.when_sameHold (e.symm.trans h))
  case registerRead p off len =>
    obtain ⟨b, m, e⟩ := execRegisterRead_when p off len s
    exact .same (State.when_sameHold (e.symm.trans h))
  case getMeasurements f n index nonce =>
    obtain ⟨b, m, e⟩ := execGetMeasurements_when f n index nonce s
    exact .same (State.when_sameHold (e.symm.trans h))
  all_goals exact .same (State.when_sameHold h)

end Sys2Proof.Machine
end

section
/-! SUPPORT. The bus target's address: who gives it, and who leaves it (R499). -/

namespace Sys2Proof.Machine

/-- ENTDAA gives a target without an address one. -/
theorem exec_entdaa_addr (a : BitVec 7) {s : State} (aux : s.pins.aux = true) (free : s.i3c.addr = none) :
    ∃ t, exec (.entdaa a) s = .next t ∧ t.i3c.addr = some a.toNat :=
  ⟨_, rfl, by simp [aux, free]⟩

/-- SETDASA gives a target without an address one by its static address, where its slot has one. -/
theorem exec_setdasa_addr (old a : BitVec 7) {s : State} (aux : s.pins.aux = true) (free : s.i3c.addr = none) :
    ∃ t, exec (.setdasa old a) s = .next t ∧ t.i3c.addr = if s.pins.straps ≤ 8 ∧ old.toNat = 0x30 + s.pins.straps then some a.toNat else none := by
  refine ⟨_, rfl, ?_⟩
  by_cases own : s.pins.straps ≤ 8 ∧ old.toNat = 0x30 + s.pins.straps
  · simp [aux, free, own]
  · rw [if_neg own, if_neg (by simpa [aux, free] using own)]
    exact free

/-- A target with an address answers ALERT_READ while auxiliary power is there. -/
theorem exec_alertRead_answers {s : State} (aux : s.pins.aux = true) (addr : s.i3c.addr ≠ none) (len : 2 ≤ s.i3c.mrl) :
    ∃ t, exec (.alertRead []) s = .next t ∧ t.m.io.out = s.m.io.out ++ [.i3c [0, BitVec.ofNat 8 s.i3c.alert]] := by
  have heard : s.onBus = true := by simp [State.onBus, aux, Option.isSome_iff_ne_none, addr]
  have whole : List.take s.i3c.mrl [i3cOk, BitVec.ofNat 8 s.i3c.alert] = [0, BitVec.ofNat 8 s.i3c.alert] := List.take_of_length_le len
  refine ⟨s.respond [i3cOk, BitVec.ofNat 8 s.i3c.alert], ?_, ?_⟩
  · change execAlertRead [] s = _
    simp [execAlertRead, State.i3cCmd, heard]
  · simp only [State.respond, whole]
    rfl

/-- No row but the loss of auxiliary power takes the address, and none but the bus's own codes changes it. -/
theorem HoldStep.keepsAddress {i : Instr} {s t : State} (h : HoldStep i s t) (aux : s.pins.aux = true) (stays : i ≠ .auxUndervoltage) :
    t.pins.aux = true ∧ (¬ AddressCode i → t.i3c.addr = s.i3c.addr) := by
  cases h with
  | same h => exact ⟨h.aux.trans aux, fun _ => h.addr⟩
  | address h pins => exact ⟨pins ▸ aux, fun code => absurd h code⟩
  | shutdown h => exact ⟨h.aux.trans aux, fun _ => h.addr⟩
  | auxUp before => exact absurd aux (by simp [before])
  | auxDown h => exact absurd h stays
  | start r h starts => exact ⟨starts.aux.trans aux, fun _ => starts.addr⟩

theorem not_addressCode {i : Instr} (hd : ∀ a b, i ≠ .setdasa a b ∧ i ≠ .setnewda a b) (he : ∀ a, i ≠ .entdaa a) (hr : ∀ d k, i ≠ .rstact d k) (hg : i ≠ .rstdaa) :
    ¬ AddressCode i
  | .entdaa a => he a rfl
  | .setdasa old a => (hd old a).1 rfl
  | .setnewda old a => (hd old a).2 rfl
  | .rstdaa => hg rfl
  | .rstact d k => hr d k rfl

/-- Settles O57: what ENTDAA, SETDASA and ALERT_READ answer, and that by the cases of a row only the bus's own codes and the loss of auxiliary power reach the address. -/
theorem busTargetStaysWhileAuxiliaryPowerDoes : Obligations.BusTargetStaysWhileAuxiliaryPowerDoes := by
  unfold Obligations.BusTargetStaysWhileAuxiliaryPowerDoes
  refine ⟨fun a old s aux free => ⟨exec_entdaa_addr a aux free, exec_setdasa_addr old a aux free⟩, fun s aux addr len => exec_alertRead_answers aux addr len, ?_⟩
  intro i s t h aux stays
  obtain ⟨aux', addr⟩ := (exec_holdStep h).keepsAddress aux stays
  exact ⟨aux', fun hd he hr hg => addr (not_addressCode hd he hr hg)⟩

end Sys2Proof.Machine
end

section
/-! SUPPORT. THERMTRIP#: what drives it low, and what lets it go (R491). -/

namespace Sys2Proof.Machine

/-- A shutdown that starts drives THERMTRIP# low. -/
theorem HoldStep.trip_of_shutdown {i : Instr} {s t : State} (h : HoldStep i s t) (before : s.pins.shutdown = false) (after : t.pins.shutdown = true) : t.pins.thermTrip = true := by
  cases h with
  | same h => exact absurd (h.down.symm.trans after) (by simp [before])
  | address h pins => exact absurd (pins ▸ after) (by simp [before])
  | shutdown h => exact h.trip
  | auxUp _ _ down => exact absurd (down.symm.trans after) (by simp [before])
  | auxDown _ _ down => exact absurd after (by simp [down])
  | start r h starts => exact absurd (starts.down after) (by simp [before])

/-- Nothing but a shutdown that starts drives THERMTRIP# low. -/
theorem HoldStep.shutdown_of_trip {i : Instr} {s t : State} (h : HoldStep i s t) (before : s.pins.thermTrip = false) (after : t.pins.thermTrip = true) :
    s.pins.shutdown = false ∧ t.pins.shutdown = true := by
  cases h with
  | same h => exact absurd (h.trip.symm.trans after) (by simp [before])
  | address h pins => exact absurd (pins ▸ after) (by simp [before])
  | shutdown h => exact ⟨h.before, h.after⟩
  | auxUp _ trip => exact absurd (trip.symm.trans after) (by simp [before])
  | auxDown _ trip => exact absurd after (by simp [trip])
  | start r h starts => exact absurd (starts.trip.symm.trans after) (by simp [before])

/-- Only a start past step HUB and the loss of auxiliary power let THERMTRIP# go. -/
theorem HoldStep.trip_held {i : Instr} {s t : State} (h : HoldStep i s t) (before : s.pins.thermTrip = true) :
    t.pins.thermTrip = true ∨ i = .auxUndervoltage ∨ ∃ r, i = .moduleStart r ∧ 4 < (s.startRun r).step := by
  cases h with
  | same h => exact .inl (h.trip.trans before)
  | address h pins => exact .inl (pins ▸ before)
  | shutdown h => exact .inl h.trip
  | auxUp _ trip => exact .inl (trip.trans before)
  | auxDown h => exact .inr (.inl h)
  | start r h starts =>
    by_cases hub : 4 < (s.startRun r).step
    · exact .inr (.inr ⟨r, h, hub⟩)
    · exact .inl (by rw [starts.trip, if_neg hub, before])

theorem exec_auxUndervoltage_trip {s : State} (aux : s.pins.aux = true) : ∃ t, exec .auxUndervoltage s = .next t ∧ t.pins.thermTrip = false :=
  ⟨_, if_pos aux, rfl⟩

theorem exec_moduleStart_trip {r : StartResult} {s : State} (may : s.mayStart = true) (hub : 4 < (s.startRun r).step) :
    ∃ t, exec (.moduleStart r) s = .next t ∧ t.pins.thermTrip = false :=
  ⟨s.start r, if_pos may, by rw [(s.start_starts r).trip, if_pos hub]⟩

/-- Settles O58: by the cases of a row, only a shutdown that starts drives THERMTRIP# low, and only a start past step HUB or the loss of auxiliary power lets it go; both do. -/
theorem thermtripIsHeldThroughStepHub : Obligations.ThermtripIsHeldThroughStepHub := by
  unfold Obligations.ThermtripIsHeldThroughStepHub
  refine ⟨fun s => rfl, fun i s t h => ?_, fun s aux => exec_auxUndervoltage_trip aux, fun r s may hub => exec_moduleStart_trip may hub⟩
  have step := exec_holdStep h
  exact ⟨step.trip_of_shutdown, step.shutdown_of_trip, step.trip_held⟩

end Sys2Proof.Machine
end

section
/-! SUPPORT. The grid of a floating format: magnitudes in their normal form, what rounding and encoding make of them, and that decoding and encoding agree (R70 to R74, R85, R86, R90). -/

namespace Sys2Proof.Machine

/-! ## Magnitudes m * 2^e -/

/-- The magnitude m * 2^e as a rational. -/
def dyVal (m : Nat) (e : Int) : ℚ := (m : ℚ) * 2 ^ e

theorem dyVal_shift (m k : Nat) (e : Int) : dyVal (m * 2 ^ k) e = dyVal m (e + k) := by
  unfold dyVal
  rw [zpow_add₀ two_ne_zero, zpow_natCast]
  push_cast
  ring

theorem dyVal_le_same {m n : Nat} (e : Int) : dyVal m e ≤ dyVal n e ↔ m ≤ n := by
  have h : (0 : ℚ) < 2 ^ e := zpow_pos two_pos e
  unfold dyVal
  rw [mul_le_mul_iff_left₀ h, Nat.cast_le]

theorem dyLe_iff (m : Nat) (e : Int) (n : Nat) (q : Int) : dyLe m e n q = true ↔ dyVal m e ≤ dyVal n q := by
  unfold dyLe
  split
  · next h =>
    have hq : q = e + ((q - e).toNat : Nat) := by omega
    conv => rhs; rw [hq, ← dyVal_shift]
    rw [dyVal_le_same, decide_eq_true_iff]
  · next h =>
    have he : e = q + ((e - q).toNat : Nat) := by omega
    conv => rhs; rw [he, ← dyVal_shift]
    rw [dyVal_le_same, decide_eq_true_iff]

theorem dyLt_iff (m : Nat) (e : Int) (n : Nat) (q : Int) : dyLt m e n q = true ↔ dyVal m e < dyVal n q := by
  rw [dyLt, Bool.not_eq_true', ← Bool.not_eq_true, dyLe_iff, not_le]

/-! ## The layout of a format -/

/-- The mantissa bits of a format. -/
def Fmt.mbits (f : Fmt) : Nat := f.layout.2.1

/-- The exponent bits of a format. -/
def Fmt.ebits (f : Fmt) : Nat := f.layout.1

/-- The exponent bias of a format. -/
def Fmt.bias (f : Fmt) : Nat := f.layout.2.2

/-- The exponent of a format's smallest grid step. -/
def Fmt.qMin (f : Fmt) : Int := 1 - (f.bias : Int) - f.mbits

theorem Fmt.minExp_eq (f : Fmt) : f.minExp = 1 - (f.bias : Int) := rfl

theorem Fmt.width_eq {f : Fmt} (h : f.isFloat = true) : f.width = f.ebits + f.mbits + 1 := by
  revert h
  cases f <;> decide

/-- A magnitude n * 2^q in the normal form of a format's grid: normal with mbits + 1 bits, or a subnormal on the smallest step. -/
structure Fmt.Normal (f : Fmt) (n : Nat) (q : Int) : Prop where
  pos : 0 < n
  low : f.qMin ≤ q
  high : n < 2 ^ (f.mbits + 1)
  full : 2 ^ f.mbits ≤ n ∨ q = f.qMin

/-- In its normal form a magnitude is its own grid point. -/
theorem Fmt.Normal.grid {f : Fmt} {n : Nat} {q : Int} (h : f.Normal n q) : max ((Nat.log2 n : Int) + q) (1 - (f.bias : Int)) - (f.mbits : Int) = q := by
  obtain ⟨pos, low, high, full⟩ := h
  have hlog : Nat.log2 n < f.mbits + 1 := (Nat.log2_lt (by omega)).2 high
  unfold Fmt.qMin at low full
  rcases full with full | full
  · have := (Nat.le_log2 (by omega)).2 full
    omega
  · omega

/-- The exponent field of a magnitude in normal form. -/
def Fmt.expField (f : Fmt) (n : Nat) (q : Int) : Nat := if n < 2 ^ f.mbits then 0 else (q + f.mbits + f.bias).toNat

/-- The code of a magnitude in normal form, from its fields. -/
theorem Fmt.Normal.encode {f : Fmt} {n : Nat} {q : Int} (h : f.Normal n q) (neg : Bool) :
    f.encodeMag neg n q = (if neg then 2 ^ (f.ebits + f.mbits) else 0) + f.expField n q * 2 ^ f.mbits + n % 2 ^ f.mbits := by
  have e : f.encodeMag neg n q =
      (if n = 0 then f.zeroCode neg else
        let q' : Int := max ((Nat.log2 n : Int) + q) (1 - (f.bias : Int)) - (f.mbits : Int)
        let n' : Nat := if q' ≤ q then n * 2 ^ (q - q').toNat else n / 2 ^ (q' - q).toNat
        let e : Nat := if n' < 2 ^ f.mbits then 0 else (q' + (f.mbits : Int) + (f.bias : Int)).toNat
        (if neg then 2 ^ (f.ebits + f.mbits) else 0) + e * 2 ^ f.mbits + n' % 2 ^ f.mbits) := rfl
  rw [e, if_neg (by have := h.pos; omega)]
  simp only [h.grid, le_refl, if_true, sub_self, Int.toNat_zero, pow_zero, mul_one, Fmt.expField]

/-! ## The largest magnitude -/

/-- The largest finite magnitude of a sign, in normal form. -/
def Fmt.peak (f : Fmt) (neg : Bool) : Nat × Int :=
  match f with
  | .n4 => (1, 0)
  | .n6 => (2, 7)
  | .n8 => (31, 0)
  | .w8 => if neg then (5, 13) else (6, 13)
  | .w12 => (63, 26)
  | .w16 => (511, 55)
  | .f32 => (16777215, 104)
  | _ => (0, 0)

theorem Fmt.maxFinite_val (f : Fmt) (neg : Bool) : dyVal (f.maxFinite neg).1 (f.maxFinite neg).2 = dyVal (f.peak neg).1 (f.peak neg).2 := by
  cases f <;> cases neg <;> norm_num [Fmt.maxFinite, Fmt.peak, dyVal]

theorem Fmt.peak_normal {f : Fmt} (h : f.isFloat = true) (neg : Bool) :
    2 ^ f.mbits ≤ (f.peak neg).1 ∧ (f.peak neg).1 < 2 ^ (f.mbits + 1) ∧ f.qMin < (f.peak neg).2 := by
  revert h
  cases f <;> cases neg <;> decide

/-- Normal forms are ordered by their exponents, then by their mantissas. -/
theorem Fmt.Normal.le_iff {f : Fmt} {n : Nat} {q : Int} (h : f.Normal n q) {N : Nat} {Q : Int} (low : 2 ^ f.mbits ≤ N) (high : N < 2 ^ (f.mbits + 1)) (hQ : f.qMin ≤ Q) :
    dyVal n q ≤ dyVal N Q ↔ q < Q ∨ (q = Q ∧ n ≤ N) := by
  have two : 2 ^ (f.mbits + 1) = 2 ^ f.mbits * 2 := pow_succ 2 f.mbits
  rcases lt_trichotomy q Q with hlt | rfl | hgt
  · refine iff_of_true ?_ (.inl hlt)
    obtain ⟨k, rfl⟩ : ∃ k : Nat, Q = q + (k + 1 : Nat) := ⟨(Q - q).toNat - 1, by omega⟩
    rw [← dyVal_shift, dyVal_le_same]
    have := h.high
    calc n ≤ 2 ^ f.mbits * 2 := by omega
      _ ≤ N * 2 ^ (k + 1) := Nat.mul_le_mul low (by rw [pow_succ]; have := Nat.one_le_two_pow (n := k); omega)
  · rw [dyVal_le_same]
    simp
  · refine iff_of_false ?_ (by omega)
    obtain ⟨k, rfl⟩ : ∃ k : Nat, q = Q + (k + 1 : Nat) := ⟨(q - Q).toNat - 1, by omega⟩
    rw [← dyVal_shift, dyVal_le_same, not_le]
    have full : 2 ^ f.mbits ≤ n := h.full.resolve_right (by omega)
    calc N < 2 ^ f.mbits * 2 := by omega
      _ ≤ n * 2 ^ (k + 1) := Nat.mul_le_mul full (by rw [pow_succ]; have := Nat.one_le_two_pow (n := k); omega)

/-- A magnitude in normal form that is not above the largest finite one of its sign. -/
def Fmt.InRange (f : Fmt) (neg : Bool) (n : Nat) (q : Int) : Prop := q < (f.peak neg).2 ∨ (q = (f.peak neg).2 ∧ n ≤ (f.peak neg).1)

theorem Fmt.Normal.inRange_iff {f : Fmt} {n : Nat} {q : Int} (h : f.Normal n q) (hf : f.isFloat = true) (neg : Bool) :
    f.InRange neg n q ↔ dyVal n q ≤ dyVal (f.maxFinite neg).1 (f.maxFinite neg).2 := by
  obtain ⟨low, high, hQ⟩ := Fmt.peak_normal hf neg
  rw [Fmt.maxFinite_val, h.le_iff low high hQ.le, Fmt.InRange]

/-! ## Decoding and encoding -/

/-- The fields of a code that is put together from fields. -/
theorem fields_of_parts {eb mb e m : Nat} (neg : Bool) (he : e < 2 ^ eb) (hm : m < 2 ^ mb) :
    let c := (if neg then 2 ^ (eb + mb) else 0) + e * 2 ^ mb + m
    c < 2 ^ (eb + mb + 1) ∧ (c / 2 ^ (eb + mb) % 2 == 1) = neg ∧ c / 2 ^ mb % 2 ^ eb = e ∧ c % 2 ^ mb = m := by
  intro c
  have hadd : 2 ^ (eb + mb) = 2 ^ eb * 2 ^ mb := pow_add 2 eb mb
  have hbody : e * 2 ^ mb + m < 2 ^ (eb + mb) := by
    rw [hadd]
    calc e * 2 ^ mb + m < e * 2 ^ mb + 2 ^ mb := by omega
      _ = (e + 1) * 2 ^ mb := by ring
      _ ≤ 2 ^ eb * 2 ^ mb := Nat.mul_le_mul_right _ he
  have hpos : 0 < 2 ^ mb := Nat.two_pow_pos mb
  have hdiv : (e * 2 ^ mb + m) / 2 ^ mb = e := by
    rw [Nat.add_comm, Nat.add_mul_div_right _ _ hpos, Nat.div_eq_of_lt hm, Nat.zero_add]
  cases neg with
  | false =>
    have hc : c = e * 2 ^ mb + m := by simp [c]
    rw [hc]
    refine ⟨hbody.trans_le (Nat.pow_le_pow_right two_pos (by omega)), by simp [Nat.div_eq_of_lt hbody], ?_, ?_⟩
    · rw [hdiv, Nat.mod_eq_of_lt he]
    · rw [Nat.mul_add_mod', Nat.mod_eq_of_lt hm]
  | true =>
    have hc : c = 2 ^ eb * 2 ^ mb + (e * 2 ^ mb + m) := by simp [c, hadd]; ring
    have hs : c = 2 ^ (eb + mb) + (e * 2 ^ mb + m) := by rw [hc, hadd]
    refine ⟨by rw [hs, pow_succ]; omega, ?_, ?_, ?_⟩
    · rw [hs, Nat.add_div_left _ (Nat.two_pow_pos _), Nat.div_eq_of_lt hbody]
      rfl
    · rw [hc, Nat.add_comm, Nat.add_mul_div_right _ _ hpos, hdiv, Nat.add_mod_right, Nat.mod_eq_of_lt he]
    · rw [hc, Nat.mul_add_mod', Nat.mul_add_mod', Nat.mod_eq_of_lt hm]


/-- The value that the fields of a code stand for, special codes aside. -/
theorem Fmt.plain_eq (f : Fmt) (c : Nat) :
    f.plain c = if (f.fields c).2.1 = 0 then .fin (f.fields c).1 (if f = .n4 then 0 else (f.fields c).2.2) f.qMin
      else .fin (f.fields c).1 (2 ^ f.mbits + (f.fields c).2.2) (((f.fields c).2.1 : Int) - f.bias - f.mbits) := rfl

theorem Fmt.fields_eq (f : Fmt) (c : Nat) :
    f.fields c = (c / 2 ^ (f.ebits + f.mbits) % 2 == 1, c / 2 ^ f.mbits % 2 ^ f.ebits, c % 2 ^ f.mbits) := rfl

/-- The fields that stand for no finite value: the NaN and infinity codes. -/
def Fmt.special (f : Fmt) (neg : Bool) (e m : Nat) : Prop :=
  match f with
  | .n6 => e = 15 ∧ m = 1
  | .n8 => neg = true ∧ e = 0 ∧ m = 0
  | .w8 => e = 31 ∧ (m = 3 ∨ (neg = true ∧ m = 2))
  | .w12 => e = 63
  | .w16 => e = 127
  | .f32 => e = 255
  | _ => False

/-- A code that stands for no finite value has special fields. -/
theorem Fmt.not_fin_of_special {f : Fmt} {c : Nat} (hc : c < 2 ^ f.width) (h : f.special (f.fields c).1 (f.fields c).2.1 (f.fields c).2.2) : (f.decode c).isFin = false := by
  cases f <;> simp only [Fmt.special, Fmt.fields_eq, Fmt.ebits, Fmt.mbits, Fmt.layout, Fmt.width, beq_iff_eq] at h hc
  case n6 => simp [Fmt.decode, Val.isFin, show c % 32 = 31 by omega]
  case n8 => simp [Fmt.decode, Val.isFin, show c = 128 by omega]
  case w8 =>
    have : c = 0xFE ∨ c = 0x7F ∨ c = 0xFF := by omega
    rcases this with rfl | rfl | rfl <;> rfl
  case w12 | w16 | f32 =>
    simp only [Fmt.decode, Fmt.fields_eq, Fmt.ebits, Fmt.mbits, Fmt.layout, h, if_true]
    split <;> rfl

/-- A code without special fields has the value of its fields. -/
theorem Fmt.decode_of_not_special {f : Fmt} {c : Nat} (hf : f.isFloat = true) (hc : c < 2 ^ f.width)
    (h : ¬ f.special (f.fields c).1 (f.fields c).2.1 (f.fields c).2.2) : f.decode c = f.plain c := by
  cases f <;> simp only [Fmt.special, Fmt.fields_eq, Fmt.ebits, Fmt.mbits, Fmt.layout, Fmt.width, beq_iff_eq] at h hc
  case n4 => rfl
  case n6 => exact if_neg (by omega)
  case n8 => exact if_neg (by omega)
  case w8 => rw [Fmt.decode, if_neg (by omega), if_neg (by omega), if_neg (by omega)]
  case w12 | w16 | f32 =>
    simp only [Fmt.decode, Fmt.fields_eq, Fmt.ebits, Fmt.mbits, Fmt.layout]
    exact if_neg h
  all_goals cases hf

theorem Fmt.Normal.expField_cases {f : Fmt} {n : Nat} {q : Int} (h : f.Normal n q) :
    (n < 2 ^ f.mbits ∧ f.expField n q = 0) ∨ (2 ^ f.mbits ≤ n ∧ (f.expField n q : Int) = q + f.mbits + f.bias) := by
  have low := h.low
  unfold Fmt.expField Fmt.qMin at *
  by_cases hn : n < 2 ^ f.mbits
  · exact .inl ⟨hn, if_pos hn⟩
  · refine .inr ⟨by omega, ?_⟩
    rw [if_neg hn]
    omega

/-- The exponent field of a magnitude in range is no special one, and fits its field. -/
theorem Fmt.Normal.expField_lt {f : Fmt} {n : Nat} {q : Int} {neg : Bool} (h : f.Normal n q) (hf : f.isFloat = true) (hr : f.InRange neg n q) :
    f.expField n q < 2 ^ f.ebits ∧ ¬ f.special neg (f.expField n q) (n % 2 ^ f.mbits) := by
  have he := h.expField_cases
  generalize f.expField n q = e at he ⊢
  obtain ⟨pos, low, high, full⟩ := h
  unfold Fmt.InRange at hr
  unfold Fmt.qMin at *
  cases f <;> cases neg <;>
    simp only [Fmt.special, Fmt.ebits, Fmt.mbits, Fmt.bias, Fmt.layout, Fmt.peak, Bool.false_eq_true, if_false, if_true, false_and, or_false, true_and, not_false_eq_true, and_true] at * <;>
    omega

/-- The code of a magnitude in range decodes to it. -/
theorem Fmt.Normal.decode_encode {f : Fmt} {n : Nat} {q : Int} {neg : Bool} (h : f.Normal n q) (hf : f.isFloat = true) (hr : f.InRange neg n q) :
    f.encodeMag neg n q < 2 ^ f.width ∧ f.decode (f.encodeMag neg n q) = .fin neg n q := by
  obtain ⟨he, hs⟩ := h.expField_lt hf hr
  have he' := h.expField_cases
  obtain ⟨hlt, hsign, hexp, hman⟩ := fields_of_parts neg he (Nat.mod_lt n (Nat.two_pow_pos f.mbits))
  rw [h.encode neg, Fmt.width_eq hf]
  refine ⟨hlt, ?_⟩
  have hfields := f.fields_eq ((if neg then 2 ^ (f.ebits + f.mbits) else 0) + f.expField n q * 2 ^ f.mbits + n % 2 ^ f.mbits)
  rw [hsign, hexp, hman] at hfields
  rw [Fmt.decode_of_not_special hf (by rw [Fmt.width_eq hf]; exact hlt) (by rw [hfields]; exact hs), Fmt.plain_eq, hfields]
  obtain ⟨pos, low, high, full⟩ := h
  have two : 2 ^ (f.mbits + 1) = 2 ^ f.mbits * 2 := pow_succ 2 f.mbits
  unfold Fmt.qMin at low
  rcases he' with ⟨hn, he⟩ | ⟨hn, he⟩
  · have not4 : f ≠ .n4 := by
      rintro rfl
      exact absurd hn (by simpa [Fmt.mbits, Fmt.layout] using pos.ne')
    rw [if_pos he, if_neg not4, Nat.mod_eq_of_lt hn, full.resolve_left (by omega)]
  · have hmod : n % 2 ^ f.mbits = n - 2 ^ f.mbits := by
      rw [Nat.mod_eq_sub_mod (by omega), Nat.mod_eq_of_lt (by omega)]
    dsimp only
    rw [if_neg (by omega), hmod]
    congr 1 <;> omega

/-- A code is put together from its fields. -/
theorem parts_of_fields {eb mb c : Nat} (hc : c < 2 ^ (eb + mb + 1)) :
    (if (c / 2 ^ (eb + mb) % 2 == 1) = true then 2 ^ (eb + mb) else 0) + c / 2 ^ mb % 2 ^ eb * 2 ^ mb + c % 2 ^ mb = c := by
  have hbody : c / 2 ^ mb % 2 ^ eb * 2 ^ mb + c % 2 ^ mb = c % 2 ^ (eb + mb) := by
    rw [Nat.add_comm eb mb, pow_add, Nat.mod_mul]
    ring
  have hsign : c / 2 ^ (eb + mb) < 2 := Nat.div_lt_of_lt_mul (by rwa [pow_succ] at hc)
  rw [Nat.add_assoc, hbody]
  conv => rhs; rw [← Nat.div_add_mod c (2 ^ (eb + mb))]
  rcases (show c / 2 ^ (eb + mb) = 0 ∨ c / 2 ^ (eb + mb) = 1 by generalize c / 2 ^ (eb + mb) = d at hsign; omega) with h | h <;> simp [h]

/-- The fields of a normal code that are not special are in range. -/
theorem Fmt.inRange_of_not_special {f : Fmt} {sg : Bool} {e m : Nat} (hf : f.isFloat = true) (he : e < 2 ^ f.ebits) (hm : m < 2 ^ f.mbits) (hs : ¬ f.special sg e m) :
    f.InRange sg (2 ^ f.mbits + m) ((e : Int) - f.bias - f.mbits) := by
  unfold Fmt.InRange
  cases f <;> cases sg <;>
    simp only [Fmt.isFloat, Fmt.special, Fmt.ebits, Fmt.mbits, Fmt.bias, Fmt.layout, Fmt.peak, Bool.false_eq_true, if_false, if_true, false_and, or_false, true_and] at * <;>
    omega

/-- A code that stands for a finite value is a zero code, or the code of its magnitude, in normal form and in range. -/
theorem Fmt.decode_fin {f : Fmt} {c : Nat} {neg : Bool} {n : Nat} {q : Int} (hf : f.isFloat = true) (hc : c < 2 ^ f.width) (h : f.decode c = .fin neg n q) :
    (n = 0 ∧ c = f.zeroCode neg) ∨ (f.Normal n q ∧ f.InRange neg n q ∧ f.encodeMag neg n q = c) := by
  have hs : ¬ f.special (f.fields c).1 (f.fields c).2.1 (f.fields c).2.2 := fun hs => by simpa [h, Val.isFin] using Fmt.not_fin_of_special hc hs
  rw [Fmt.decode_of_not_special hf hc hs, Fmt.plain_eq] at h
  rw [Fmt.fields_eq] at h hs
  rw [Fmt.width_eq hf] at hc
  have hparts := parts_of_fields hc
  have hm : c % 2 ^ f.mbits < 2 ^ f.mbits := Nat.mod_lt _ (Nat.two_pow_pos _)
  have he : c / 2 ^ f.mbits % 2 ^ f.ebits < 2 ^ f.ebits := Nat.mod_lt _ (Nat.two_pow_pos _)
  generalize (c / 2 ^ (f.ebits + f.mbits) % 2 == 1) = sg at hparts h hs
  generalize c / 2 ^ f.mbits % 2 ^ f.ebits = e at hparts h hs he
  generalize c % 2 ^ f.mbits = m at hparts h hs hm
  have two : 2 ^ (f.mbits + 1) = 2 ^ f.mbits * 2 := pow_succ 2 f.mbits
  dsimp only at h hs
  by_cases h0 : e = 0
  · rw [if_pos h0] at h
    obtain ⟨rfl, rfl, rfl⟩ := Val.fin.inj h
    have hn : (if f = .n4 then 0 else m) = m := by
      split
      · next h4 =>
        subst h4
        have : m < 1 := hm
        omega
      · rfl
    rw [hn]
    by_cases hm0 : m = 0
    · refine .inl ⟨hm0, ?_⟩
      rw [← hparts, h0, hm0, Nat.zero_mul, Nat.add_zero, Fmt.zeroCode, Fmt.width_eq hf, Nat.add_sub_cancel]
      have hn8 : f = .n8 → sg = false := by
        rintro rfl
        simpa [Fmt.special, h0, hm0] using hs
      by_cases h8 : f = .n8
      · simp [hn8 h8]
      · simp [h8]
    · have normal : f.Normal m f.qMin := ⟨by omega, le_refl _, by omega, .inr rfl⟩
      refine .inr ⟨normal, .inl (Fmt.peak_normal hf sg).2.2, ?_⟩
      rw [normal.encode, Fmt.expField, if_pos hm, Nat.mod_eq_of_lt hm, ← hparts, h0]
  · rw [if_neg h0] at h
    obtain ⟨rfl, rfl, rfl⟩ := Val.fin.inj h
    have normal : f.Normal (2 ^ f.mbits + m) ((e : Int) - f.bias - f.mbits) := ⟨by omega, by unfold Fmt.qMin; omega, by omega, .inl (by omega)⟩
    refine .inr ⟨normal, Fmt.inRange_of_not_special hf he hm hs, ?_⟩
    have hexp : f.expField (2 ^ f.mbits + m) ((e : Int) - f.bias - f.mbits) = e := by
      rw [Fmt.expField, if_neg (show ¬ 2 ^ f.mbits + m < 2 ^ f.mbits by omega)]
      omega
    rw [normal.encode, hexp, Nat.add_mod_left, Nat.mod_eq_of_lt hm, hparts]

/-! ## Rounding -/

/-- The exponent of the grid step below a magnitude. -/
def Fmt.gridStep (f : Fmt) (m : Nat) (e : Int) : Int := max ((Nat.log2 m : Int) + e) (1 - (f.bias : Int)) - f.mbits

theorem Fmt.gridBelow_eq (f : Fmt) (m : Nat) (e : Int) :
    f.gridBelow m e = if f.gridStep m e ≤ e then (m * 2 ^ (e - f.gridStep m e).toNat, f.gridStep m e, 0, 0)
      else (m / 2 ^ (f.gridStep m e - e).toNat, f.gridStep m e, m % 2 ^ (f.gridStep m e - e).toNat, (f.gridStep m e - e).toNat) := rfl

/-- A magnitude on the grid is not rounded. -/
theorem Fmt.roundMag_exact {f : Fmt} {m : Nat} {e : Int} (h : f.gridStep m e ≤ e) (draw : Option Nat) :
    f.roundMag draw m e = (m * 2 ^ (e - f.gridStep m e).toNat, f.gridStep m e) := by
  simp only [Fmt.roundMag, Fmt.gridBelow_eq, if_pos h, if_true]

/-- Rounding goes to the grid point below or to the one above it. -/
theorem Fmt.roundMag_cases (f : Fmt) (draw : Option Nat) (m : Nat) (e : Int) :
    (f.roundMag draw m e).2 = (f.gridBelow m e).2.1 ∧ ((f.roundMag draw m e).1 = (f.gridBelow m e).1 ∨ (f.roundMag draw m e).1 = (f.gridBelow m e).1 + 1) := by
  unfold Fmt.roundMag
  obtain ⟨n, q, rem, sh⟩ := f.gridBelow m e
  dsimp only
  cases draw <;> dsimp only <;> split_ifs <;> simp

/-- The grid point below a magnitude is 0, or a normal form. -/
theorem Fmt.gridBelow_normal (f : Fmt) {m : Nat} (e : Int) (hm : 0 < m) :
    ((f.gridBelow m e).1 = 0 ∧ (f.gridBelow m e).2.1 = f.qMin) ∨ f.Normal (f.gridBelow m e).1 (f.gridBelow m e).2.1 := by
  have hlow : f.qMin ≤ f.gridStep m e := by unfold Fmt.qMin Fmt.gridStep; omega
  have hlt : m < 2 ^ (Nat.log2 m + 1) := Nat.lt_log2_self
  have hle : 2 ^ Nat.log2 m ≤ m := Nat.log2_self_le (by omega)
  have hstep : f.gridStep m e = (Nat.log2 m : Int) + e - f.mbits ∨ ((Nat.log2 m : Int) + e - f.mbits < f.gridStep m e ∧ f.gridStep m e = f.qMin) := by
    unfold Fmt.qMin Fmt.gridStep; omega
  rw [Fmt.gridBelow_eq]
  generalize f.gridStep m e = q at *
  split
  · next hq =>
    obtain ⟨k, hk⟩ : ∃ k : Nat, e = q + k := ⟨(e - q).toNat, by omega⟩
    subst hk
    have hk : (q + (k : Int) - q).toNat = k := by omega
    simp only [hk]
    refine .inr ⟨Nat.mul_pos hm (Nat.two_pow_pos k), hlow, ?_, ?_⟩
    · calc m * 2 ^ k < 2 ^ (Nat.log2 m + 1) * 2 ^ k := Nat.mul_lt_mul_of_pos_right hlt (Nat.two_pow_pos k)
        _ = 2 ^ (Nat.log2 m + 1 + k) := (pow_add ..).symm
        _ ≤ 2 ^ (f.mbits + 1) := Nat.pow_le_pow_right two_pos (by omega)
    · refine hstep.imp (fun h => ?_) And.right
      calc 2 ^ f.mbits = 2 ^ (Nat.log2 m + k) := by congr 1; omega
        _ = 2 ^ Nat.log2 m * 2 ^ k := pow_add ..
        _ ≤ m * 2 ^ k := Nat.mul_le_mul_right _ hle
  · next hq =>
    obtain ⟨k, hk⟩ : ∃ k : Nat, q = e + k := ⟨(q - e).toNat, by omega⟩
    subst hk
    have hk : (e + (k : Int) - e).toNat = k := by omega
    simp only [hk]
    have hfull : 2 ^ f.mbits ≤ m / 2 ^ k ∨ e + (k : Int) = f.qMin := by
      refine hstep.imp (fun h => (Nat.le_div_iff_mul_le (Nat.two_pow_pos k)).2 ?_) And.right
      rw [← pow_add, show f.mbits + k = Nat.log2 m by omega]
      exact hle
    rcases Nat.eq_zero_or_pos (m / 2 ^ k) with h0 | h0
    · exact .inl ⟨h0, hfull.resolve_left (by rw [h0]; exact (Nat.two_pow_pos _).not_ge)⟩
    · refine .inr ⟨h0, hlow, Nat.div_lt_of_lt_mul (hlt.trans_le ?_), hfull⟩
      rw [← pow_add]
      exact Nat.pow_le_pow_right two_pos (by omega)

/-- The grid point after the last of a binade is the first of the next. -/
theorem Fmt.encode_carry (f : Fmt) (neg : Bool) {q : Int} (h : f.qMin ≤ q) : f.encodeMag neg (2 ^ (f.mbits + 1)) q = f.encodeMag neg (2 ^ f.mbits) (q + 1) := by
  have e : ∀ n q, f.encodeMag neg n q =
      (if n = 0 then f.zeroCode neg else
        let q' : Int := f.gridStep n q
        let n' : Nat := if q' ≤ q then n * 2 ^ (q - q').toNat else n / 2 ^ (q' - q).toNat
        let e : Nat := if n' < 2 ^ f.mbits then 0 else (q' + (f.mbits : Int) + (f.bias : Int)).toNat
        (if neg then 2 ^ (f.ebits + f.mbits) else 0) + e * 2 ^ f.mbits + n' % 2 ^ f.mbits) := fun _ _ => rfl
  have h1 : f.gridStep (2 ^ (f.mbits + 1)) q = q + 1 := by
    unfold Fmt.gridStep Fmt.qMin at *
    rw [Nat.log2_two_pow]
    omega
  have h2 : f.gridStep (2 ^ f.mbits) (q + 1) = q + 1 := by
    unfold Fmt.gridStep Fmt.qMin at *
    rw [Nat.log2_two_pow]
    omega
  have half : 2 ^ (f.mbits + 1) / 2 ^ (q + 1 - q).toNat = 2 ^ f.mbits := by
    rw [show (q + 1 - q).toNat = 1 by omega, pow_succ, pow_one, Nat.mul_div_cancel _ two_pos]
  rw [e, e, if_neg (Nat.two_pow_pos _).ne', if_neg (Nat.two_pow_pos _).ne', h1, h2]
  dsimp only
  rw [if_neg (show ¬ q + 1 ≤ q by omega), if_pos (le_refl _), half, sub_self, Int.toNat_zero, pow_zero, mul_one]

/-- What rounding makes of a magnitude: zero, or a magnitude whose code is that of a normal form of the same value. -/
theorem Fmt.roundMag_normal (f : Fmt) (draw : Option Nat) {m : Nat} (e : Int) (hm : 0 < m) :
    (f.roundMag draw m e).1 = 0 ∨ ∃ n q, f.Normal n q ∧ dyVal (f.roundMag draw m e).1 (f.roundMag draw m e).2 = dyVal n q
      ∧ ∀ neg, f.encodeMag neg (f.roundMag draw m e).1 (f.roundMag draw m e).2 = f.encodeMag neg n q := by
  obtain ⟨hq, hn⟩ := f.roundMag_cases draw m e
  have hbelow := f.gridBelow_normal e hm
  have hlow : f.qMin ≤ (f.gridBelow m e).2.1 := by
    rw [Fmt.gridBelow_eq]
    have : f.qMin ≤ f.gridStep m e := by unfold Fmt.qMin Fmt.gridStep; omega
    split <;> exact this
  generalize (f.gridBelow m e).1 = n0 at *
  generalize (f.gridBelow m e).2.1 = q at *
  rw [hq]
  generalize (f.roundMag draw m e).1 = n at *
  rcases Nat.eq_zero_or_pos n with h0 | hpos
  · exact .inl h0
  right
  have two : 2 ^ (f.mbits + 1) = 2 ^ f.mbits * 2 := pow_succ 2 f.mbits
  have hone : 1 ≤ 2 ^ f.mbits := Nat.one_le_two_pow
  rcases Nat.lt_or_ge n (2 ^ (f.mbits + 1)) with hlt | hge
  · refine ⟨n, q, ⟨hpos, hlow, hlt, ?_⟩, rfl, fun _ => rfl⟩
    rcases hbelow with ⟨-, hq⟩ | h
    · exact .inr hq
    · exact h.full.imp_left fun h => by omega
  · have hcarry : n = 2 ^ (f.mbits + 1) := by
      rcases hbelow with h | h
      · omega
      · have := h.high
        omega
    subst hcarry
    refine ⟨2 ^ f.mbits, q + 1, ⟨hone, by omega, by omega, .inl (le_refl _)⟩, ?_, fun neg => f.encode_carry neg hlow⟩
    exact dyVal_shift (2 ^ f.mbits) 1 q

/-! ## Narrowing -/

/-- A magnitude on the grid and in range narrows to its code, without a flag. -/
theorem narrow_grid {f : Fmt} {neg : Bool} {m : Nat} {e : Int} (hf : f.isFloat = true) (hm : 0 < m) (hgrid : f.gridStep m e ≤ e)
    (hn : f.Normal (m * 2 ^ (e - f.gridStep m e).toNat) (f.gridStep m e)) (hr : f.InRange neg (m * 2 ^ (e - f.gridStep m e).toNat) (f.gridStep m e)) :
    narrow f false none (.fin neg m e) = (f.encodeMag neg (m * 2 ^ (e - f.gridStep m e).toNat) (f.gridStep m e), 0) := by
  have hle := (hn.inRange_iff hf neg).1 hr
  have hlt : dyLt (f.maxFinite neg).1 (f.maxFinite neg).2 (m * 2 ^ (e - f.gridStep m e).toNat) (f.gridStep m e) = false := by
    rw [← Bool.not_eq_true, dyLt_iff, not_lt]
    exact hle
  simp [narrow, hm.ne', Fmt.roundMag_exact hgrid, hlt]

theorem Fmt.Normal.narrow_eq {f : Fmt} {neg : Bool} {n : Nat} {q : Int} (h : f.Normal n q) (hf : f.isFloat = true) (hr : f.InRange neg n q) :
    narrow f false none (.fin neg n q) = (f.encodeMag neg n q, 0) := by
  have hq : f.gridStep n q = q := h.grid
  have hn : n * 2 ^ (q - f.gridStep n q).toNat = n := by simp [hq]
  have e := narrow_grid (neg := neg) hf h.pos hq.le (by rwa [hn, hq]) (by rwa [hn, hq])
  rwa [hn, hq] at e

theorem Fmt.plain_ne_inf (f : Fmt) (c : Nat) (neg : Bool) : f.plain c ≠ .inf neg := by
  rw [Fmt.plain_eq]
  split <;> nofun

/-- The decoding of the formats whose last exponent holds the infinities and the NaNs. -/
theorem Fmt.decode_wide {f : Fmt} (hf : f = .w12 ∨ f = .w16 ∨ f = .f32) (c : Nat) :
    f.decode c = if (f.fields c).2.1 = 2 ^ f.ebits - 1 then (if (f.fields c).2.2 = 0 then .inf (f.fields c).1 else .nan) else f.plain c := by
  rcases hf with rfl | rfl | rfl <;> rfl

/-- A code that stands for an infinity is the infinity code of its sign. -/
theorem Fmt.decode_inf {f : Fmt} {c : Nat} {neg : Bool} (hf : f.isFloat = true) (hc : c < 2 ^ f.width) (h : f.decode c = .inf neg) : f.infCode neg = some c := by
  have hplain := f.plain_ne_inf c neg
  cases f
  case w8 =>
    simp only [Fmt.decode] at h
    split_ifs at h <;> simp_all [Fmt.infCode]
  case w12 | w16 | f32 =>
    rw [Fmt.decode_wide (by simp)] at h
    split_ifs at h with he hm
    · cases h
      simp only [Fmt.fields_eq, Fmt.ebits, Fmt.mbits, Fmt.layout, Fmt.width, Fmt.infCode, beq_iff_eq, Option.some.injEq] at he hm hc ⊢
      split <;> omega
    · exact absurd h hplain
  case n4 => exact absurd h hplain
  case n6 | n8 =>
    simp only [Fmt.decode] at h
    split_ifs at h
    exact absurd h hplain
  all_goals cases hf

/-! ## The statement -/

/-- Settles O7: a code without special fields is put together from its fields; its magnitude is a grid point in normal form and in range, so that it is not rounded, and is encoded by its own fields. -/
theorem codesRoundTrip : Obligations.CodesRoundTrip := by
  unfold Obligations.CodesRoundTrip
  intro f c hf hc hnan
  cases h : f.decode c with
  | nan => exact absurd h hnan
  | inf neg => simp [narrow, Fmt.decode_inf hf hc h, Val.isInf]
  | fin neg n q =>
    rcases Fmt.decode_fin hf hc h with ⟨rfl, rfl⟩ | ⟨hn, hr, he⟩
    · simp [narrow, Val.isInf]
    · rw [hn.narrow_eq hf hr, he]
      simp [Val.isInf]

/-! ## Narrowing and exact conversion of finite values -/

/-- The zero codes are codes of the format, and stand for zeros. -/
theorem Fmt.decode_zeroCode {f : Fmt} (hf : f.isFloat = true) (neg : Bool) :
    f.zeroCode neg < 2 ^ f.width ∧ f.decode (f.zeroCode neg) = .fin (neg && f != .n8) 0 f.qMin := by
  revert hf
  cases f <;> cases neg <;> decide

/-- The largest finite magnitude is encoded as its normal form. -/
theorem Fmt.encode_maxFinite {f : Fmt} (hf : f.isFloat = true) (neg : Bool) :
    f.encodeMag neg (f.maxFinite neg).1 (f.maxFinite neg).2 = f.encodeMag neg (f.peak neg).1 (f.peak neg).2 := by
  revert hf
  cases f <;> cases neg <;> decide

theorem Fmt.peak_inRange {f : Fmt} (hf : f.isFloat = true) (neg : Bool) : f.Normal (f.peak neg).1 (f.peak neg).2 ∧ f.InRange neg (f.peak neg).1 (f.peak neg).2 := by
  obtain ⟨low, high, hq⟩ := Fmt.peak_normal hf neg
  exact ⟨⟨(Nat.two_pow_pos _).trans_le low, hq.le, high, .inl low⟩, .inr ⟨rfl, le_refl _⟩⟩

/-- A code of the format that stands for a finite value. -/
def Fmt.FinCode (f : Fmt) (c : Nat) : Prop := c < 2 ^ f.width ∧ (f.decode c).isFin = true

theorem Fmt.finCode_zero {f : Fmt} (hf : f.isFloat = true) (neg : Bool) : f.FinCode (f.zeroCode neg) := by
  obtain ⟨h, e⟩ := Fmt.decode_zeroCode hf neg
  exact ⟨h, by rw [e]; rfl⟩

theorem Fmt.Normal.finCode {f : Fmt} {n : Nat} {q : Int} {neg : Bool} (h : f.Normal n q) (hf : f.isFloat = true) (hr : f.InRange neg n q) : f.FinCode (f.encodeMag neg n q) := by
  obtain ⟨hlt, e⟩ := h.decode_encode hf hr
  exact ⟨hlt, by rw [e]; rfl⟩

/-- A finite value narrows to zero, to the largest finite magnitude, or to a grid point in range. -/
theorem finiteValuesNarrowToFiniteCodes : FiniteValuesNarrowToFiniteCodes := by
  unfold FiniteValuesNarrowToFiniteCodes
  intro f sub neg draw m e hf _
  change f.FinCode _
  simp only [narrow]
  split
  · exact Fmt.finCode_zero hf neg
  next hm =>
    split
    · exact Fmt.finCode_zero hf neg
    split
    · rw [Fmt.encode_maxFinite hf]
      obtain ⟨hn, hr⟩ := Fmt.peak_inRange hf neg
      exact hn.finCode hf hr
    · next hmax =>
      rcases f.roundMag_normal draw e (Nat.pos_of_ne_zero hm) with h0 | ⟨n, q, hn, hval, henc⟩
      · have hz : f.encodeMag neg (f.roundMag draw m e).1 (f.roundMag draw m e).2 = f.zeroCode neg := by
          rw [h0]
          rfl
        rw [hz]
        exact Fmt.finCode_zero hf neg
      · rw [dyLt_iff, not_lt, hval] at hmax
        rw [henc]
        exact hn.finCode hf ((hn.inRange_iff hf neg).2 hmax)

/-! ## Exact conversions -/

/-- What the pairs of R88 have in common: the destination's grid is finer, and reaches as far. -/
theorem exactInto_finer {src dst : Fmt} (h : exactInto src dst = true) : src.isFloat = true ∧ dst.isFloat = true ∧ src.mbits ≤ dst.mbits ∧ dst.qMin ≤ src.qMin := by
  revert h
  cases src <;> cases dst <;> decide

theorem exactInto_maxFinite {src dst : Fmt} (h : exactInto src dst = true) (neg : Bool) :
    dyVal (src.maxFinite neg).1 (src.maxFinite neg).2 ≤ dyVal (dst.maxFinite neg).1 (dst.maxFinite neg).2 := by
  rw [← dyLe_iff]
  revert h
  cases src <;> cases dst <;> cases neg <;> decide

/-- The destination of a pair has the NaN and the infinities that the source has. -/
theorem exactInto_special {src dst : Fmt} (h : exactInto src dst = true) :
    (src ≠ .n4 → dst.decode (exactConvert dst .nan) = .nan) ∧ ∀ neg, (src.infCode neg).isSome = true → dst.decode (exactConvert dst (.inf neg)) = .inf neg := by
  revert h
  cases src <;> cases dst <;> decide

/-- A magnitude of the source is on the destination's grid and in its range: it narrows to a code of the same value. -/
theorem exactConvert_normal {src dst : Fmt} (h : exactInto src dst = true) {neg : Bool} {n : Nat} {q : Int} (hn : src.Normal n q) (hr : src.InRange neg n q) :
    ∃ k : Nat, dst.decode (exactConvert dst (.fin neg n q)) = .fin neg (n * 2 ^ k) (q - k) := by
  obtain ⟨hsrc, hdst, hm, hq⟩ := exactInto_finer h
  have hlog : Nat.log2 n < src.mbits + 1 := (Nat.log2_lt hn.pos.ne').2 hn.high
  have hgrid : dst.gridStep n q ≤ q := by
    have := hn.low
    unfold Fmt.gridStep
    unfold Fmt.qMin at *
    omega
  obtain ⟨k, hk⟩ : ∃ k : Nat, dst.gridStep n q = q - k := ⟨(q - dst.gridStep n q).toNat, by omega⟩
  have hk' : (q - dst.gridStep n q).toNat = k := by omega
  have hval : dyVal (n * 2 ^ k) (q - k) = dyVal n q := by rw [dyVal_shift, sub_add_cancel]
  have hpos : n * 2 ^ k ≠ 0 := (Nat.mul_pos hn.pos (Nat.two_pow_pos k)).ne'
  have hn' : dst.Normal (n * 2 ^ k) (q - k) := by
    have := dst.gridBelow_normal q hn.pos
    rw [Fmt.gridBelow_eq, if_pos hgrid, hk', hk] at this
    exact this.resolve_left fun h0 => hpos h0.1
  have hr' : dst.InRange neg (n * 2 ^ k) (q - k) :=
    (hn'.inRange_iff hdst neg).2 (hval.trans_le (((hn.inRange_iff hsrc neg).1 hr).trans (exactInto_maxFinite h neg)))
  refine ⟨k, ?_⟩
  rw [exactConvert, narrow_grid hdst hn.pos hgrid (by rwa [hk', hk]) (by rwa [hk', hk]), hk', hk]
  exact (hn'.decode_encode hdst hr').2

theorem eqv_shift (neg : Bool) (n k : Nat) (q : Int) : (Val.fin neg (n * 2 ^ k) (q - k)).eqv (.fin neg n q) = true := by
  simp [Val.eqv, Val.lt, Val.isNan, Val.int]

theorem eqv_zeros (a b : Bool) (q r : Int) : (Val.fin a 0 q).eqv (.fin b 0 r) = true := by
  cases a <;> cases b <;> simp [Val.eqv, Val.lt, Val.isNan, Val.int]

/-- A finite code of the source converts to a code of an equal value, a zero to a zero of its sign. -/
theorem exactConvert_fin {src dst : Fmt} (h : exactInto src dst = true) {c : Nat} (hc : c < 2 ^ src.width) {neg : Bool} {n : Nat} {q : Int} (hv : src.decode c = .fin neg n q) :
    (dst.decode (exactConvert dst (.fin neg n q))).eqv (.fin neg n q) = true
      ∧ (n = 0 → dst ≠ .n8 → (dst.decode (exactConvert dst (.fin neg n q))).isNeg = neg) := by
  obtain ⟨hsrc, hdst, -, -⟩ := exactInto_finer h
  rcases Fmt.decode_fin hsrc hc hv with ⟨rfl, -⟩ | ⟨hn, hr, -⟩
  · have e : exactConvert dst (.fin neg 0 q) = dst.zeroCode neg := rfl
    rw [e, (Fmt.decode_zeroCode hdst neg).2]
    exact ⟨eqv_zeros _ _ _ _, fun _ h8 => by simp [Val.isNeg, h8]⟩
  · obtain ⟨k, e⟩ := exactConvert_normal h hn hr
    rw [e]
    exact ⟨eqv_shift neg n k q, fun h0 => absurd h0 hn.pos.ne'⟩

theorem exactConversionsKeepTheValue : ExactConversionsKeepTheValue := by
  unfold ExactConversionsKeepTheValue
  intro src dst c h hc
  obtain ⟨hsrc, -, -, -⟩ := exactInto_finer h
  obtain ⟨hnan, hinf⟩ := exactInto_special h
  cases hv : src.decode c with
  | nan =>
    have h4 : src ≠ .n4 := by
      rintro rfl
      rw [Fmt.decode, Fmt.plain_eq] at hv
      split at hv <;> cases hv
    exact ⟨fun _ => hnan h4, nofun, nofun, nofun⟩
  | inf neg => exact ⟨nofun, fun s e => by cases e; exact hinf neg (by rw [Fmt.decode_inf hsrc hc hv]; rfl), nofun, nofun⟩
  | fin neg n q =>
    obtain ⟨heqv, hsign⟩ := exactConvert_fin h hc hv
    exact ⟨nofun, nofun, fun _ => heqv, fun h0 h8 => hsign (by simpa [Val.isZero] using h0) h8⟩

/-- Settles O9: a narrowed finite value is a grid point in range; the destination of an exact conversion has a finer grid that reaches as far, so that a finite value is not rounded. -/
theorem conversionsOfFiniteValues : Obligations.ConversionsOfFiniteValues := ⟨finiteValuesNarrowToFiniteCodes, exactConversionsKeepTheValue⟩

end Sys2Proof.Machine
end

section
/-! SUPPORT. The BAR0 map: where the registers of a block lie, that blocks do not meet, and that every offset leads back to its register (R17). -/

namespace Sys2Proof.Machine

/-! ## Walking a block's dimensions -/

/-- The number of indices that dimensions give. -/
def dimCount (ds : List (Nat × Nat)) : Nat := (ds.map (·.2)).foldl (· * ·) 1

@[simp] theorem dimCount_nil : dimCount [] = 1 := rfl

@[simp] theorem dimCount_cons (d : Nat × Nat) (ds : List (Nat × Nat)) : dimCount (d :: ds) = d.2 * dimCount ds := by
  simp only [dimCount, ← List.prod_eq_foldl, List.map_cons, List.prod_cons]

/-- The offset of the last index of dimensions. -/
def dimReach : List (Nat × Nat) → Nat
  | [] => 0
  | (st, ct) :: ds => st * (ct - 1) + dimReach ds

/-- Each stride of a block spans the dimensions inside it, and an offset of a register in the innermost. -/
def dimsFit (o : Nat) : List (Nat × Nat) → Bool
  | [] => true
  | (st, ct) :: ds => decide (0 < ct) && decide (dimReach ds + o < st) && dimsFit o ds

@[simp] theorem dimsFit_nil (o : Nat) : dimsFit o [] = true := rfl

theorem dimsFit_cons {o st ct : Nat} {ds : List (Nat × Nat)} : dimsFit o ((st, ct) :: ds) = true ↔ 0 < ct ∧ dimReach ds + o < st ∧ dimsFit o ds = true := by
  simp [dimsFit, and_assoc]

theorem unwalk_le_reach {o : Nat} {ds : List (Nat × Nat)} (h : dimsFit o ds = true) (i : Nat) : unwalk ds i ≤ dimReach ds := by
  induction ds generalizing i with
  | nil => exact le_refl 0
  | cons d ds ih =>
    obtain ⟨st, ct⟩ := d
    obtain ⟨hct, -, hds⟩ := dimsFit_cons.1 h
    exact Nat.add_le_add (Nat.mul_le_mul_left st (Nat.le_sub_one_of_lt (Nat.mod_lt _ hct))) (ih hds _)

/-- A walk of the dimensions undoes the offset of an index, and leaves the register's own offset. -/
theorem walkDims_unwalk {o : Nat} {ds : List (Nat × Nat)} (h : dimsFit o ds = true) {i : Nat} (hi : i < dimCount ds) (acc : Nat) :
    walkDims ds (unwalk ds i + o) acc = some (acc * dimCount ds + i, o) := by
  induction ds generalizing i acc with
  | nil =>
    have : i = 0 := by simpa using hi
    simp [walkDims, unwalk, this]
  | cons d ds ih =>
    obtain ⟨st, ct⟩ := d
    obtain ⟨hct, hst, hds⟩ := dimsFit_cons.1 h
    rw [dimCount_cons] at hi
    have hpos : 0 < dimCount ds := Nat.pos_of_ne_zero fun h0 => by simp [h0] at hi
    have hdiv : i / dimCount ds < ct := Nat.div_lt_of_lt_mul (by rwa [Nat.mul_comm] at hi)
    have hin : unwalk ds (i % dimCount ds) + o < st := by
      have := unwalk_le_reach hds (i % dimCount ds)
      omega
    have e : unwalk ((st, ct) :: ds) i + o = st * (i / dimCount ds) + (unwalk ds (i % dimCount ds) + o) := by
      rw [unwalk, ← Nat.add_assoc]
      change st * (i / dimCount ds % ct) + _ + o = _
      rw [Nat.mod_eq_of_lt hdiv]
      rfl
    have hq : (st * (i / dimCount ds) + (unwalk ds (i % dimCount ds) + o)) / st = i / dimCount ds := by
      rw [Nat.mul_add_div (by omega), Nat.div_eq_of_lt hin, Nat.add_zero]
    have hr : (st * (i / dimCount ds) + (unwalk ds (i % dimCount ds) + o)) % st = unwalk ds (i % dimCount ds) + o := by
      rw [Nat.mul_add_mod, Nat.mod_eq_of_lt hin]
    rw [e, walkDims, hq, hr, if_pos hdiv, ih hds (Nat.mod_lt _ hpos)]
    congr 2
    rw [dimCount_cons, Nat.add_mul, Nat.mul_assoc, Nat.add_assoc, Nat.div_add_mod']

/-- A block has what its dimensions and its registers say. -/
theorem RegBlk.at_walk {b : RegBlk} {o i : Nat} (h : dimsFit o b.dims = true) (hi : i < dimCount b.dims) : b.at (b.base + unwalk b.dims i + o) = (b.regs.lookup o).map fun n => (n, i) := by
  have hb : ¬ b.base + unwalk b.dims i + o < b.base := by omega
  have hs : b.base + unwalk b.dims i + o - b.base = unwalk b.dims i + o := by omega
  simp only [RegBlk.at, if_neg hb, hs, walkDims_unwalk h hi, Nat.zero_mul, Nat.zero_add]

/-! ## Where a block lies -/

/-- What lies above a block's last register. -/
def RegBlk.top (b : RegBlk) : Nat := (b.regs.map (·.1)).foldl max 0 + 1

/-- A block of the table serves its registers: each at an offset of its own that the strides span. -/
def RegBlk.sound (b : RegBlk) : Bool :=
  (b.dims.all fun d => decide (0 < d.1)) && b.regs.all fun x => dimsFit x.1 b.dims && b.regs.lookup x.1 == some x.2 && decide (x.1 < b.top)

theorem RegBlk.sound_iff {b : RegBlk} :
    b.sound = true ↔ (∀ d ∈ b.dims, 0 < d.1) ∧ ∀ x ∈ b.regs, dimsFit x.1 b.dims = true ∧ b.regs.lookup x.1 = some x.2 ∧ x.1 < b.top := by
  simp only [RegBlk.sound, Bool.and_eq_true, List.all_eq_true, decide_eq_true_eq, beq_iff_eq, and_assoc]

/-- The ranges of offsets that a block lies in: its registers alone; one range for all of many indices, or one for each of a few; one for each index of an outermost dimension. -/
def RegBlk.spans (b : RegBlk) : List (Nat × Nat) :=
  match b.dims with
  | [] => b.regs.map fun x => (b.base + x.1, b.base + x.1 + 1)
  | [(st, ct)] => if 8 < ct then [(b.base, b.base + ct * st)] else (List.range ct).map fun i => (b.base + st * i, b.base + st * i + b.top)
  | (st, ct) :: (st', ct') :: _ => (List.range ct).map fun i => (b.base + st * i, b.base + st * i + ct' * st')

theorem mem_of_lookup {l : List (Nat × RegName)} {o : Nat} {n : RegName} (h : l.lookup o = some n) : (o, n) ∈ l := by
  obtain ⟨l₁, l₂, rfl, -⟩ := List.lookup_eq_some_iff.1 h
  simp

theorem walkDims_lt {st ct : Nat} {ds : List (Nat × Nat)} {rel acc : Nat} {x : Nat × Nat} (hst : 0 < st) (h : walkDims ((st, ct) :: ds) rel acc = some x) :
    rel < ct * st ∧ walkDims ds (rel % st) (acc * ct + rel / st) = some x := by
  rw [walkDims] at h
  split at h
  · next hlt => exact ⟨(Nat.div_lt_iff_lt_mul hst).1 hlt, h⟩
  · cases h

/-- What a block has lies in its ranges. -/
theorem RegBlk.at_spans {b : RegBlk} {off : Nat} {x : RegName × Nat} (hs : b.sound = true) (h : b.at off = some x) : ∃ sp ∈ b.spans, sp.1 ≤ off ∧ off < sp.2 := by
  obtain ⟨hd, hregs⟩ := RegBlk.sound_iff.1 hs
  unfold RegBlk.at at h
  split at h
  · cases h
  next hb =>
  split at h
  · next idx r hw =>
    cases hl : b.regs.lookup r with
    | none => simp [hl] at h
    | some n =>
      have hmem := mem_of_lookup hl
      unfold RegBlk.spans
      split
      · next hds =>
        rw [hds] at hw
        cases hw
        exact ⟨_, List.mem_map.2 ⟨_, hmem, rfl⟩, by dsimp only; omega, by dsimp only; omega⟩
      · next st ct hds =>
        have hst : 0 < st := hd (st, ct) (by simp [hds])
        rw [hds] at hw
        obtain ⟨hlt, hw'⟩ := walkDims_lt hst hw
        cases hw'
        split
        · exact ⟨_, List.mem_singleton.2 rfl, by dsimp only; omega, by dsimp only; omega⟩
        · have htop : (off - b.base) % st < b.top := (hregs _ hmem).2.2
          have := Nat.div_add_mod (off - b.base) st
          exact ⟨_, List.mem_map.2 ⟨(off - b.base) / st, List.mem_range.2 ((Nat.div_lt_iff_lt_mul hst).2 hlt), rfl⟩, by dsimp only; omega, by dsimp only; omega⟩
      · next st ct st' ct' ds hds =>
        have hst : 0 < st := hd (st, ct) (by simp [hds])
        have hst' : 0 < st' := hd (st', ct') (by simp [hds])
        rw [hds] at hw
        obtain ⟨hlt, hw'⟩ := walkDims_lt hst hw
        obtain ⟨hlt', -⟩ := walkDims_lt hst' hw'
        have := Nat.div_add_mod (off - b.base) st
        exact ⟨_, List.mem_map.2 ⟨(off - b.base) / st, List.mem_range.2 ((Nat.div_lt_iff_lt_mul hst).2 hlt), rfl⟩, by dsimp only; omega, by dsimp only; omega⟩
  · cases h

/-- Two blocks have no range in common. -/
def RegBlk.apart (c b : RegBlk) : Bool := c.spans.all fun x => b.spans.all fun y => decide (x.2 ≤ y.1) || decide (y.2 ≤ x.1)

theorem RegBlk.at_none_of_apart {c b : RegBlk} {off : Nat} {x : RegName × Nat} (hc : c.sound = true) (hb : b.sound = true) (h : c.apart b = true) (hx : b.at off = some x) :
    c.at off = none := by
  cases hy : c.at off with
  | none => rfl
  | some y =>
    obtain ⟨sc, hsc, h1, h2⟩ := RegBlk.at_spans hc hy
    obtain ⟨sb, hsb, h3, h4⟩ := RegBlk.at_spans hb hx
    have := List.all_eq_true.1 (List.all_eq_true.1 h sc hsc) sb hsb
    simp only [Bool.or_eq_true, decide_eq_true_eq] at this
    omega

/-! ## The table of blocks -/

/-- The per-channel entries, and the tables inside them (R104). -/
def chanEntry : RegBlk := ⟨.tile, .tile256, 0x1400000, [(0x800000, 4), (0x4000, 48), (0x2000, 2), (0x40, 128)], [(0x0, .EX_PCS_CTRL), (0x4, .EX_PCS_SCALE)]⟩
def chanTable : RegBlk := ⟨.tile, .tile2048, 0x1400008, [(0x800000, 4), (0x4000, 48), (0x2000, 2), (0x40, 128), (0x4, 8)], [(0x0, .EX_PCS_TABLE)]⟩

theorem regBlks_sound : ∀ b ∈ regBlks, b.sound = true := by decide +kernel

theorem regBlks_apart : regBlks.Pairwise fun c b => c.apart b = true ∨ (c = chanEntry ∧ b = chanTable) := by decide +kernel

/-- The entries' block has nothing in the tables. -/
theorem chanEntry_at_table {i : Nat} (hi : i < dimCount chanTable.dims) : chanEntry.at (chanTable.base + unwalk chanTable.dims i + 0) = none := by
  have e : chanTable.base + unwalk chanTable.dims i + 0 = chanEntry.base + unwalk chanEntry.dims (i / 8) + (8 + 4 * (i % 8)) := by
    simp [chanTable, chanEntry, unwalk]
    omega
  have hfit : dimsFit (8 + 4 * (i % 8)) chanEntry.dims = true := by
    simp only [chanEntry, dimsFit_cons, dimsFit_nil, dimReach, and_true]
    omega
  have hlt : i / 8 < dimCount chanEntry.dims := by
    have h1 : dimCount chanTable.dims = 393216 := rfl
    have h2 : dimCount chanEntry.dims = 49152 := rfl
    omega
  have hnone : chanEntry.regs.lookup (8 + 4 * (i % 8)) = none := by
    have h0 : (8 + 4 * (i % 8) == 0) = false := by simp
    have h4 : (8 + 4 * (i % 8) == 4) = false := by simp; omega
    simp [chanEntry, List.lookup, h0, h4]
  rw [e, RegBlk.at_walk hfit hlt, hnone]
  rfl

/-- Where the offset of a register lies: in the first block that holds its name, none before which has anything there. -/
theorem RegName.blk_spec {r : RegName} {b : RegBlk} (h : r.blk = some b) :
    ∃ o as bs, regBlks = as ++ b :: bs ∧ (o, r) ∈ b.regs ∧ ∀ i, r.addr i = b.base + unwalk b.dims i + o := by
  obtain ⟨hr, as, bs, hsplit, -⟩ := List.find?_eq_some_iff_append.1 h
  obtain ⟨y, hy, hyr⟩ := List.any_eq_true.1 hr
  cases hf : b.regs.find? fun x => x.2 = r with
  | none => exact absurd hyr (List.find?_eq_none.1 hf y hy)
  | some x =>
    obtain ⟨o, n⟩ := x
    have hn : n = r := by simpa using List.find?_some hf
    subst hn
    exact ⟨o, as, bs, hsplit, List.mem_of_find?_eq_some hf, fun i => by simp [RegName.addr, h, hf]⟩

/-- Settles O11: a block undoes the offsets of its own registers, since its strides span what lies inside them, and no block before it has anything there, since the blocks' ranges do not meet; the per-channel
tables lie inside the entries' strides, past the entries' registers. -/
theorem registerOffsetsDecode : Obligations.RegisterOffsetsDecode := by
  unfold Obligations.RegisterOffsetsDecode
  intro r b i hblk hi
  obtain ⟨o, as, bs, hsplit, ho, haddr⟩ := RegName.blk_spec hblk
  have hb : b ∈ regBlks := by simp [hsplit]
  obtain ⟨hfit, hlookup, -⟩ := (RegBlk.sound_iff.1 (regBlks_sound b hb)).2 _ ho
  have hat : b.at (r.addr i) = some (r, i) := by
    rw [haddr, RegBlk.at_walk hfit hi, hlookup]
    rfl
  refine List.findSome?_eq_some_iff.2 ⟨as, b, bs, hsplit, hat, fun c hc => ?_⟩
  have hpair := regBlks_apart
  rw [hsplit] at hpair
  rcases (List.pairwise_append.1 hpair).2.2 c hc b List.mem_cons_self with hapart | ⟨rfl, rfl⟩
  · exact RegBlk.at_none_of_apart (regBlks_sound c (by simp [hsplit, hc])) (regBlks_sound b hb) hapart hat
  · have h0 : o = 0 := by
      simp only [chanTable, List.mem_singleton] at ho
      cases ho
      rfl
    rw [haddr, h0]
    exact chanEntry_at_table hi

end Sys2Proof.Machine
end

section
/-! SUPPORT. Long accumulators and near-memory reducers: contributions commute (R111, R232). -/

namespace Sys2Proof.Machine

/-- Two contributions enter an accumulator in either order. -/
theorem Acc.add_right_comm (a : Acc) (v w : Val) : (a.add v).add w = (a.add w).add v := by
  have hfin (b : Acc) (s : Bool) (m : Nat) (e : Int) :
      b.add (.fin s m e) = { b with total := b.total + (placeAcc (.fin s m e)).1, fl := b.fl.or (placeAcc (.fin s m e)).2 } := rfl
  have hor (f g h : AccFlags) : (f.or g).or h = (f.or h).or g := by
    simp only [AccFlags.or, Bool.or_right_comm, Nat.add_right_comm]
  cases v with
  | nan =>
    cases w with
    | nan => rfl
    | inf d => cases d <;> rfl
    | fin => rfl
  | inf c =>
    cases w with
    | nan => cases c <;> rfl
    | inf d => cases c <;> cases d <;> rfl
    | fin => cases c <;> rfl
  | fin =>
    cases w with
    | nan => rfl
    | inf d => cases d <;> rfl
    | fin => simp only [hfin, hor, Int.add_right_comm]

theorem xsum_perm {l k : List Val} (h : l.Perm k) : xsum l = xsum k :=
  h.foldl_eq' (fun _ _ _ _ a => a.add_right_comm _ _) _

/-- A reducer reads off its contributions sums and whether any is of a kind alone. -/
theorem reduceElem_perm (anchor : Int) (kind old : Nat) {l k : List Contrib} (h : l.Perm k) : reduceElem anchor kind old l = reduceElem anchor kind old k := by
  have hplaced := h.map fun c : Contrib => if c.special = 0 then placeWin anchor c.neg c.mag c.exp else (0, false, false)
  have hints := (h.map fun c : Contrib => (Val.fin c.neg c.mag 0).int 0).sum_eq
  have hvals (o : Val) := (h.map Contrib.val).cons o
  have hsum := (hplaced.map (·.1)).sum_eq
  unfold reduceElem
  simp only [hplaced.any_eq, (hvals _).any_eq, hsum, hints]

/-- Settles O10: two contributions enter an accumulator in either order, and a reducer reads off its contributions only what no order changes. -/
theorem sumsIgnoreTheOrderOfContributions : Obligations.SumsIgnoreTheOrderOfContributions := by
  unfold Obligations.SumsIgnoreTheOrderOfContributions
  exact ⟨fun l k h => by rw [xsum_perm h]; exact ⟨rfl, rfl⟩, fun anchor kind old l k h => reduceElem_perm anchor kind old h⟩

end Sys2Proof.Machine
end

section
/-! SUPPORT. The management bus target and the test access port: what a bus command, a common command code and an instruction answer (R498 to R505). -/

namespace Sys2Proof.Machine

/-! ## Bus commands -/

theorem State.onBus_iff (s : State) : s.onBus = true ↔ s.pins.aux = true ∧ s.i3c.addr.isSome = true := by simp [State.onBus]

/-- Off the bus nothing hears a bus command. -/
theorem State.i3cCmd_off {s : State} (h : s.onBus = false) (args : List Byte) (n : Nat) (f : Nat → State × Byte × List Byte) : s.i3cCmd args n f = .next s := by
  simp [State.i3cCmd, h]

theorem State.i3cCmd_length {s : State} (h : s.onBus = true) {args : List Byte} {n : Nat} (hn : args.length ≠ n) (f : Nat → State × Byte × List Byte) :
    s.i3cCmd args n f = .next (s.respond [2]) := by
  simp [State.i3cCmd, h, hn, i3cLength]

theorem State.i3cCmd_answers {s : State} (h : s.onBus = true) {args : List Byte} {n : Nat} (hn : args.length = n) (f : Nat → State × Byte × List Byte) :
    s.i3cCmd args n f = .next ((f (leNat args)).1.respond ((f (leNat args)).2.1 :: (f (leNat args)).2.2)) := by
  simp [State.i3cCmd, h, hn]

theorem State.respond_respondsOn (s : State) (data : List Byte) : RespondsOn s (s.respond data) data := rfl

/-- A bus command on the bus answers LENGTH, or its status and what it reads. -/
theorem State.i3cCmd_respondsOn {s : State} (h : s.onBus = true) (args : List Byte) (n : Nat) (f : Nat → State × Byte × List Byte) :
    ∃ t, s.i3cCmd args n f = .next t ∧
      (if args.length = n then RespondsOn (f (leNat args)).1 t ((f (leNat args)).2.1 :: (f (leNat args)).2.2) else RespondsOn s t [2]) := by
  by_cases hn : args.length = n
  · exact ⟨_, State.i3cCmd_answers h hn f, by rw [if_pos hn]; exact State.respond_respondsOn _ _⟩
  · exact ⟨_, State.i3cCmd_length h hn f, by rw [if_neg hn]; exact State.respond_respondsOn _ _⟩

/-- The rows of bus commands are bus commands: of their argument lengths, states and answers. -/
theorem privateRows_spec {s : State} {args : List Byte} {r : Instr × Nat × State × List Byte} (hr : r ∈ privateRows s args) :
    ∃ f, exec r.1 s = s.i3cCmd args r.2.1 f ∧ (f (leNat args)).1 = r.2.2.1 ∧ (f (leNat args)).2.1 = 0 ∧ (f (leNat args)).2.2 = r.2.2.2 := by
  simp only [privateRows, List.mem_cons, List.not_mem_nil, or_false] at hr
  rcases hr with rfl | rfl | rfl | rfl | rfl | rfl | rfl | rfl
  all_goals dsimp only [exec, execReadSensor, execReadStatus, execSetCap, execReadCap, execReadId, execAlertRead, execAlertClear, execAlertMask]
  case inr.inl => exact ⟨_, rfl, rfl, rfl, by simp only [List.flatMap_cons, List.flatMap_nil, List.append_nil, List.append_assoc]⟩
  all_goals exact ⟨_, rfl, rfl, rfl, rfl⟩

/-- What READ_LEDGER answers for an entry (R391, R500). -/
def State.ledgerAnswer (s : State) (e : Nat) : State × Byte × List Byte :=
  if 63 < e then (s, 3, []) else (s, 0, [0, 1, 2, 3].flatMap fun w => leBytes (s.m.rd .MC_LEDGER (e * 4 + w)).toNat 4)

theorem exec_readLedger (args : List Byte) (s : State) : exec (.readLedger args) s = s.i3cCmd args 1 s.ledgerAnswer := rfl

/-- Settles O49: every row is a bus command, which off the bus nothing hears, which answers LENGTH where its arguments do not fit, and else its status and what it reads. -/
theorem privateCommandsAnswerWithTheirStatus : Obligations.PrivateCommandsAnswerWithTheirStatus := by
  unfold Obligations.PrivateCommandsAnswerWithTheirStatus
  intro args s
  refine ⟨fun off => ?_, fun aux addr => ?_⟩
  · have hoff : s.onBus = false := by
      rw [State.onBus]
      rcases off with h | h <;> simp [h]
    rw [exec_readLedger]
    refine ⟨State.i3cCmd_off hoff args 1 _, fun r hr => ?_⟩
    obtain ⟨f, he, -⟩ := privateRows_spec hr
    rw [he, State.i3cCmd_off hoff]
  · have hon : s.onBus = true := s.onBus_iff.2 ⟨aux, addr⟩
    rw [exec_readLedger]
    refine ⟨fun r hr => ?_, fun hn => ⟨_, State.i3cCmd_length hon hn _, State.respond_respondsOn _ _⟩, ?_⟩
    · obtain ⟨f, he, hs, h0, hd⟩ := privateRows_spec hr
      rw [he, ← hs, ← hd, ← h0]
      exact State.i3cCmd_respondsOn hon args _ f
    · rintro e rfl
      refine ⟨_, State.i3cCmd_answers hon rfl _, ?_⟩
      rw [show leNat [e] = e.toNat by simp [leNat], State.ledgerAnswer]
      by_cases hrange : 63 < e.toNat
      · rw [if_pos hrange, if_pos hrange]
        exact State.respond_respondsOn _ _
      · rw [if_neg hrange, if_neg hrange]
        exact State.respond_respondsOn _ _

/-! ## Common command codes -/

/-- Whether a code reaches a target, and what it then leaves. -/
theorem State.ccc_cases {s u : State} {hears : Bool} {P : Prop} (h : hears = true ↔ P) :
    (s.pins.aux = true → P → s.ccc hears u = .next u) ∧ (s.pins.aux = false ∨ ¬ P → s.ccc hears u = .next s) := by
  rw [← h]
  refine ⟨fun aux heard => by simp [State.ccc, aux, heard], ?_⟩
  rintro (aux | heard)
  · simp [State.ccc, aux]
  · simp [State.ccc, heard]

theorem I3c.hears_iff (c : I3c) (dst : Option (BitVec 7)) : c.hears dst = true ↔ ∀ a, dst = some a → c.addr = some a.toNat := by
  cases dst <;> simp [I3c.hears]

theorem I3c.hears_own (c : I3c) (a : BitVec 7) : c.hears (some a) = true ↔ c.addr = some a.toNat := by simp [I3c.hears]

/-- Settles O50: every row is a common command code, which reaches the target where its condition holds. -/
theorem commonCommandCodesAct : Obligations.CommonCommandCodesAct := by
  unfold Obligations.CommonCommandCodesAct
  intro dst old new bits len s
  have odd : bits.getLsbD 0 = true ↔ bits.toNat % 2 = 1 := by simp [BitVec.getLsbD, Nat.testBit_zero]
  refine ⟨fun r hr => ?_, fun r hr => ?_, ?_⟩
  · simp only [codeRows, List.mem_cons, List.not_mem_nil, or_false] at hr
    rcases hr with rfl | rfl | rfl | rfl | rfl | rfl | rfl | rfl
    · exact State.ccc_cases (by simp [and_assoc])
    · exact State.ccc_cases (by simp)
    · exact State.ccc_cases (s.i3c.hears_own old)
    · exact State.ccc_cases (by simp only [Bool.and_eq_true, I3c.hears_iff, odd])
    · exact State.ccc_cases (by simp only [Bool.and_eq_true, I3c.hears_iff, odd])
    · exact State.ccc_cases (s.i3c.hears_iff dst)
    · exact State.ccc_cases (s.i3c.hears_iff dst)
    · exact State.ccc_cases (by simp only [Bool.and_eq_true, I3c.hears_iff, beq_iff_eq])
  · simp only [codeReads, List.mem_cons, List.not_mem_nil, or_false] at hr
    rcases hr with rfl | rfl | rfl | rfl | rfl | rfl | rfl <;> exact State.ccc_cases (s.i3c.hears_own old)
  · exact State.ccc_cases (by simp)

end Sys2Proof.Machine
end

section
/-! SUPPORT. The test access port: what an instruction loads, what the boundary register captures, and what the module drives (R504, R505). -/

namespace Sys2Proof.Machine

/-! ## Numbers put together from bits -/

/-- The number whose lowest n bits a function gives. -/
def ofBits (b : Nat → Bool) (n : Nat) : Nat := ((List.range n).map fun c => cond (b c) (2 ^ c) 0).sum

theorem ofBits_succ (b : Nat → Bool) (n : Nat) : ofBits b (n + 1) = ofBits b n + cond (b n) (2 ^ n) 0 := by
  simp [ofBits, List.range_succ]

theorem ofBits_lt (b : Nat → Bool) (n : Nat) : ofBits b n < 2 ^ n := by
  induction n with
  | zero => simp [ofBits]
  | succ n ih =>
    rw [ofBits_succ, pow_succ]
    cases b n <;> simp <;> omega

theorem testBit_ofBits (b : Nat → Bool) {n i : Nat} (h : i < n) : (ofBits b n).testBit i = b i := by
  induction n with
  | zero => omega
  | succ n ih =>
    have hlt := ofBits_lt b n
    have e : ofBits b (n + 1) = 2 ^ n * (b n).toNat + ofBits b n := by
      rw [ofBits_succ]
      cases b n <;> simp [Nat.add_comm]
    rw [e, Nat.testBit_two_pow_mul_add _ hlt]
    by_cases hi : i < n
    · rw [if_pos hi, ih hi]
    · obtain rfl : i = n := by omega
      rw [if_neg hi, Nat.sub_self]
      cases b i <;> rfl

/-! ## The boundary register -/

/-- What the cell at a place of the boundary register captures. -/
def State.cell (s : State) (c : Nat) : Bool := ((if c % 3 = 0 then s.level (c / 3) else none).getD ((Config.freeNat s.m.io.free).testBit c))

theorem State.captured_eq (s : State) : s.captured = ofBits s.cell 39 := by
  unfold State.captured ofBits
  refine congrArg List.sum (congrArg (fun f => List.map f _) (funext fun c => ?_))
  unfold State.cell
  cases (if c % 3 = 0 then s.level (c / 3) else none) <;> rfl

theorem State.captured_level {s : State} {i : Nat} {v : Bool} (hi : i < 13) (hv : s.level i = some v) : s.captured.testBit (3 * i) = v := by
  rw [s.captured_eq, testBit_ofBits _ (by omega)]
  simp [State.cell, hv]

/-! ## Instructions -/

theorem State.loadIr_on {s : State} (aux : s.pins.aux = true) (code : Nat) :
    ∃ t, s.loadIr code = .next t ∧ t.m.io.out = s.m.io.out ++ [.tdo 1 8] ∧ t = { s with tap := { s.tap with ir := code }, m := { s.m with io := t.m.io } } :=
  ⟨{ s with tap := { s.tap with ir := code }, m := s.m.emit (.tdo 1 8) }, by simp [State.loadIr, aux], rfl, rfl⟩

theorem State.loadIr_off {s : State} (aux : s.pins.aux = false) (code : Nat) : s.loadIr code = .next s := by simp [State.loadIr, aux]

theorem tapRows_spec {s : State} {r : Instr × Nat} (hr : r ∈ tapRows s.pins.perst) : exec r.1 s = s.loadIr r.2 := by
  simp only [tapRows, List.mem_cons, List.not_mem_nil, or_false] at hr
  rcases hr with rfl | rfl | rfl | rfl | rfl <;> rfl

theorem idcodeWord_spec : idcodeWord % 2 = 1 ∧ idcodeWord / 2 ^ 12 = 0x14801 := by
  have h := Nat.mod_lt (Config.identity 0) (Nat.two_pow_pos 11)
  unfold idcodeWord
  omega

/-- What an instruction does without auxiliary power: nothing. -/
theorem exec_tap_off {s : State} (aux : s.pins.aux = false) {i : Instr} (hi : i ∈ [Instr.extest, .clamp, .highz, .ijtag, .bypass, .idcode, .tapReset]) : exec i s = .next s := by
  simp only [List.mem_cons, List.not_mem_nil, or_false] at hi
  rcases hi with rfl | rfl | rfl | rfl | rfl | rfl | rfl
  case inr.inr.inr.inr.inr.inl => simp [exec, execIdcode, aux]
  case inr.inr.inr.inr.inr.inr => simp [exec, execTapReset, aux]
  all_goals exact State.loadIr_off aux _

/-! ## What the module drives -/

/-- An open-drain output is only driven low. -/
theorem State.drives_openDrain {s : State} {i : Nat} (h : pinOpenDrain i = true) : s.drives i ≠ some true := by
  have low (v : Option Bool) : (if pinOpenDrain i && v == some true then none else v) ≠ some true := by
    rcases v with _ | _ | _ <;> simp [h]
  unfold State.drives
  split
  · simp
  · exact low _

/-- While an instruction of the pins is in force the boundary register has the pins. -/
theorem State.drives_held {s : State} {i : Nat} (aux : s.pins.aux = true) (perst : s.pins.perst = true) (out : pinOutput i = true) :
    (s.tap.ir = 5 → s.drives i = none)
    ∧ ((s.tap.ir = 3 ∨ s.tap.ir = 4) → s.tap.boundary.getLsbD (3 * i + 2) = true → pinOpenDrain i = false → s.drives i = some (s.tap.boundary.getLsbD (3 * i + 1))) := by
  refine ⟨fun ir => ?_, fun ir enable pushPull => ?_⟩
  · simp [State.drives, State.tapHolds, aux, perst, out, ir]
  · rcases ir with ir | ir <;> simp only [State.drives, State.tapHolds, aux, perst, out, ir, enable, pushPull] <;> simp

/-- Settles O51: an instruction is loaded through the same shift, the captured register is a number put together from its cells, and the drive of a pin follows the instruction in force. -/
theorem tapInstructionsAreLoaded : Obligations.TapInstructionsAreLoaded := by
  unfold Obligations.TapInstructionsAreLoaded
  refine ⟨fun s aux => ⟨fun r hr => ?_, ?_, ?_, fun load => ?_⟩, fun s aux => ⟨fun i hi => exec_tap_off aux hi, fun load => ?_⟩,
    fun s i aux perst out => State.drives_held aux perst out, fun s i h => State.drives_openDrain h⟩
  · rw [tapRows_spec hr]
    exact State.loadIr_on aux r.2
  · refine ⟨{ s with tap := { s.tap with ir := 1 }, m := (s.m.emit (.tdo 1 8)).emit (.tdo idcodeWord 32) }, by simp [exec, execIdcode, aux], ⟨idcodeWord, ?_, idcodeWord_spec⟩, rfl⟩
    simp [Mod.emit]
  · simp [exec, execTapReset, aux]
  · refine ⟨{ s with tap := ⟨2, load⟩, m := ((s.m.emit (.tdo 1 8)).emit (.tdo s.captured 39)).bump }, s.captured, by simp [exec, execSamplePreload, aux], ?_, rfl, ?_, fun i v => State.captured_level⟩
    · simp [Mod.emit, Mod.bump]
    · rw [s.captured_eq]
      exact ofBits_lt _ _
  · simp [exec, execSamplePreload, aux]

end Sys2Proof.Machine
end

section
/-! SUPPORT. What every row of the table answers, and what none of them touches: the queue, the fuses, and the legal forms of the I3C target and of the test port's instruction (R308, R425, R498, R499, R502, R505). -/

namespace Sys2Proof.Machine

/-- What every row keeps: the queue behind it, the fuses, and the legal forms of the bus target and the test port. -/
structure RowKeeps (s t : State) : Prop where
  pending : t.pending = s.pending
  fuse : t.fuse = s.fuse
  i3c : I3cLegal s.i3c → I3cLegal t.i3c
  tap : TapLegal s.tap → TapLegal t.tap

theorem RowKeeps.refl (s : State) : RowKeeps s s := ⟨rfl, rfl, id, id⟩

theorem RowKeeps.trans {s t u : State} (h : RowKeeps s t) (g : RowKeeps t u) : RowKeeps s u :=
  ⟨g.pending.trans h.pending, g.fuse.trans h.fuse, g.i3c ∘ h.i3c, g.tap ∘ h.tap⟩

theorem RowKeeps.ite {s t u : State} {c : Prop} [Decidable c] (h : RowKeeps s t) (g : RowKeeps s u) : RowKeeps s (if c then t else u) := by
  split
  · exact h
  · exact g

/-- The module and the pins are not what a row keeps. -/
theorem RowKeeps.of_mod (s : State) (m : Mod) (p : Pins) : RowKeeps s { s with m := m, pins := p } := ⟨rfl, rfl, id, id⟩

/-- A change of the bus target keeps the rest. -/
theorem RowKeeps.of_i3c {s : State} (m : Mod) {c : I3c} (h : I3cLegal s.i3c → I3cLegal c) : RowKeeps s { s with m := m, i3c := c } := ⟨rfl, rfl, h, id⟩

/-- A change of the test port keeps the rest. -/
theorem RowKeeps.of_tap {s : State} (m : Mod) {c : Tap} (h : TapLegal s.tap → TapLegal c) : RowKeeps s { s with m := m, tap := c } := ⟨rfl, rfl, id, h⟩

/-! ## The shared answers of rows -/

/-- An answer: a next state that keeps what every row keeps, or the refusal of a row that the state does not call for. -/
def Answers (s : State) (o : Host.Outcome State Fault Refusal) : Prop := (∃ t, o = .next t ∧ RowKeeps s t) ∨ o = .refused .notEnabled

theorem Answers.next {s t : State} (h : RowKeeps s t) : Answers s (.next t) := .inl ⟨t, rfl, h⟩

theorem Answers.notEnabled (s : State) : Answers s (.refused .notEnabled) := .inr rfl

theorem State.when_answers (s : State) (b : Bool) (m : Mod) : Answers s (s.when b m) := by
  unfold State.when
  split
  · exact .next (.of_mod s m s.pins)
  · exact .notEnabled s

theorem State.onMsg_answers (s : State) (l : Fin 32) (k : Nat) (f : Mod → Msg → Mod) : Answers s (s.onMsg l k f) := by
  unfold State.onMsg
  split
  · exact .next (.of_mod s _ s.pins)
  · exact .notEnabled s

theorem State.onHeld_answers (s : State) (l : Fin 32) (k : Nat) (f : Mod → Msg → Mod) : Answers s (s.onHeld l k f) := by
  unfold State.onHeld
  split
  · exact .next (.of_mod s _ s.pins)
  · exact .notEnabled s

theorem State.respond_keeps (s : State) (data : List Byte) : RowKeeps s (s.respond data) := .of_mod s _ s.pins

/-- A bus command keeps what its effect, on an argument of its length, does. -/
theorem State.i3cCmd_rowAnswers (s : State) (args : List Byte) (n : Nat) {f : Nat → State × Byte × List Byte}
    (h : args.length = n → RowKeeps s (f (leNat args)).1) : Answers s (s.i3cCmd args n f) := by
  unfold State.i3cCmd
  split
  · exact .next (.refl s)
  · split
    · exact .next (s.respond_keeps _)
    · next len => exact .next ((h (not_not.1 len)).trans (State.respond_keeps _ _))

theorem State.ccc_answers (s : State) (b : Bool) {u : State} (h : RowKeeps s u) : Answers s (s.ccc b u) := .next (.ite h (.refl s))

theorem State.cccRead_answers (s : State) (a : BitVec 7) (d : List Byte) : Answers s (s.cccRead a d) := s.ccc_answers _ (.of_mod s _ s.pins)

theorem State.loadIr_answers (s : State) {code : Nat} (h : TapLegal { s.tap with ir := code }) : Answers s (s.loadIr code) :=
  .next (.ite (.of_tap _ fun _ => h) (.refl s))

theorem State.loadPinIr_answers (s : State) {code : Nat} (h : TapLegal { s.tap with ir := code }) : Answers s (s.loadPinIr code) := by
  unfold State.loadPinIr
  split
  · exact s.loadIr_answers h
  · exact s.loadIr_answers (by simp [TapLegal])

theorem State.instrument_answers (s : State) (d : Option Nat) (other : Bool) (n : Nat) (f : Mod → Mod × Nat) : Answers s (s.instrument d other n f) := by
  unfold State.instrument
  dsimp only
  split_ifs
  all_goals exact .next (.of_mod s _ s.pins)

/-! ## The alert byte and the supplies -/

/-- A byte of causes leaves the alert byte a byte. -/
theorem State.latch_keeps (s : State) {bits : Nat} (h : bits < 256) : RowKeeps s (s.latch bits) := by
  have legal (l : I3cLegal s.i3c) : I3cLegal { s.i3c with alert := s.i3c.alert ||| bits } := by
    obtain ⟨hw, hr, ha, hm, hd⟩ := l
    exact ⟨hw, hr, Nat.or_lt_two_pow (n := 8) ha h, hm, hd⟩
  unfold State.latch
  exact .ite (.of_i3c _ legal) (.of_i3c s.m legal)

theorem State.powerOff_keeps (s : State) : RowKeeps s s.powerOff := .ite (.of_mod s _ _) (.refl s)

theorem State.powerOn_keeps (s : State) : RowKeeps s s.powerOn := .ite (.of_mod s s.m _) (.refl s)

theorem State.ramp_keeps (s : State) (p : Pins) : RowKeeps s ({ s with pins := p } : State).powerOn := (RowKeeps.of_mod s s.m p).trans (State.powerOn_keeps _)

theorem State.railsLost_keeps (s : State) (p : Pins → Pins) : RowKeeps s { s.powerOff.latch 0x08 with pins := p (s.powerOff.latch 0x08).pins } :=
  (s.powerOff_keeps.trans (State.latch_keeps _ (by decide))).trans (.of_mod _ _ _)

theorem State.beginShutdown_keeps (s : State) (high : Bool) : RowKeeps s (s.beginShutdown high) := by
  have latched : RowKeeps s (s.latch (if high then 0x42 else 0x02)) := s.latch_keeps (by cases high <;> decide)
  unfold State.beginShutdown
  dsimp only
  exact .ite latched (latched.trans (.of_mod _ _ _))

theorem execAuxPowerUp_answers (x : BitVec 4) (s : State) : Answers s (execAuxPowerUp x s) := by
  unfold execAuxPowerUp
  split
  · exact .notEnabled s
  · have anew : RowKeeps s { s with pins := { s.pins with aux := true, straps := x.toNat }, i3c := ⟨none, false, 32, 32, 0, 0⟩, tap := ⟨1, s.tap.boundary⟩ } :=
      ⟨rfl, rfl, fun _ => by simp [I3cLegal], fun _ => by simp [TapLegal]⟩
    exact .next (anew.trans (State.powerOn_keeps _))

theorem execAuxUndervoltage_answers (s : State) : Answers s (execAuxUndervoltage s) := by
  unfold execAuxUndervoltage
  split
  · exact .next ⟨rfl, rfl, fun _ => by simp [I3cLegal], id⟩
  · exact .notEnabled s

theorem execP48vBelow36V_answers (s : State) : Answers s (execP48vBelow36V s) := by
  have absent : RowKeeps s { s with pins := { s.pins with volt := .absent } } := .of_mod s s.m _
  unfold execP48vBelow36V
  dsimp only
  split
  · exact .next (absent.trans (State.railsLost_keeps _ fun p => { p with railFault := true }))
  · exact .next absent

theorem execRailFault_answers (rail : Fin 9) (s : State) : Answers s (execRailFault rail s) := by
  unfold execRailFault
  split
  · exact .next (s.railsLost_keeps fun p => { p with railFault := true, rails := 2 ^ rail.val })
  · exact .notEnabled s

theorem execInputVoltageFault_answers (high : Bool) (s : State) : Answers s (execInputVoltageFault high s) := by
  unfold execInputVoltageFault
  split
  · exact .next ((RowKeeps.ite (.refl s) (.of_mod s s.m _)).trans (State.beginShutdown_keeps _ high))
  · exact .notEnabled s

theorem execPerstAssert_answers (s : State) : Answers s (execPerstAssert s) := by
  unfold execPerstAssert
  dsimp only
  split
  all_goals exact .next (.of_mod s _ _)

theorem execFastPowerLimit_answers (s : State) : Answers s (execFastPowerLimit s) := by
  unfold execFastPowerLimit
  split
  · exact .next ((RowKeeps.of_mod s _ s.pins).trans (State.latch_keeps _ (by decide)))
  · exact .notEnabled s

theorem execThermalReading_answers (r : List (BitVec 16 × Int)) (s : State) : Answers s (execThermalReading r s) := by
  unfold execThermalReading
  split
  · exact .notEnabled s
  · have read (m : Mod) : RowKeeps s { s with m := m } := .of_mod s m s.pins
    have alert (m : Mod) (c : Bool) : RowKeeps s (if c then ({ s with m := m } : State).latch 0x01 else { s with m := m }) :=
      .ite ((read m).trans (State.latch_keeps _ (by decide))) (read m)
    exact .next (.ite ((alert _ _).trans (State.beginShutdown_keeps _ false)) (alert _ _))

/-! ## A start -/

theorem State.ready_keeps (s : State) (x : StartRun) (r : StartResult) : RowKeeps s (s.ready x r) :=
  (RowKeeps.of_mod s _ _).trans (State.latch_keeps _ (by decide))

/-- A start's end, cut off, halted or at READY. -/
theorem State.endStart_keeps (s : State) (x : StartRun) (r : StartResult) (m m' : Mod) :
    RowKeeps s (if x.cut then { s with m := m, pins := { s.pins with perst := true } }
      else if x.halted then ({ s with m := m', pins := { s.pins with perst := false } } : State).latch 0x10 else s.ready x r) :=
  .ite (.of_mod s m _) (.ite ((RowKeeps.of_mod s m' _).trans (State.latch_keeps _ (by decide))) (s.ready_keeps x r))

/-- A start that lets PERST# go ends EXTEST, CLAMP and HIGHZ. -/
theorem State.passed_keeps (s : State) (m : Mod) (p : Pins) :
    RowKeeps s { s with m := m, pins := p, tap := if 3 ≤ s.tap.ir ∧ s.tap.ir ≤ 5 then { s.tap with ir := 0xFF } else s.tap } := by
  refine ⟨rfl, rfl, id, fun h => ?_⟩
  dsimp only
  split
  · simp [TapLegal]
  · exact h

theorem State.start_keeps (s : State) (r : StartResult) : RowKeeps s (s.start r) := (s.passed_keeps _ _).trans (State.endStart_keeps _ (s.startRun r) r _ _)

theorem execModuleStart_answers (r : StartResult) (s : State) : Answers s (execModuleStart r s) := by
  unfold execModuleStart
  split
  · exact .next (s.start_keeps r)
  · exact .notEnabled s

theorem execFrameSyncRise_answers (s : State) : Answers s (execFrameSyncRise s) := by
  unfold execFrameSyncRise
  split
  · exact s.when_answers _ _
  · exact .next (.refl s)

theorem execSamplePreload_answers (load : BitVec 39) (s : State) : Answers s (execSamplePreload load s) := by
  unfold execSamplePreload
  split
  · exact .next (.of_tap _ fun _ => by simp [TapLegal])
  · exact .next (.refl s)

/-! ## The bus target's own state -/

theorem execAlertClear_answers (args : List Byte) (s : State) : Answers s (execAlertClear args s) :=
  s.i3cCmd_rowAnswers args 1 fun _ => .of_i3c s.m fun ⟨hw, hr, ha, hm, hd⟩ => ⟨hw, hr, Nat.lt_of_le_of_lt Nat.and_le_left ha, hm, hd⟩

theorem execAlertMask_answers (args : List Byte) (s : State) : Answers s (execAlertMask args s) := by
  refine s.i3cCmd_rowAnswers args 1 fun len => .of_i3c s.m fun ⟨hw, hr, ha, _, hd⟩ => ⟨hw, hr, ha, ?_, hd⟩
  obtain ⟨b, rfl⟩ := List.length_eq_one_iff.1 len
  simpa [leNat] using b.isLt

/-- A code that gives the target an address of 7 bits, or takes its address. -/
theorem State.address_answers (s : State) (b : Bool) (m : Mod) (a : Option (BitVec 7)) : Answers s (s.ccc b { s with m := m, i3c := { s.i3c with addr := a.map BitVec.toNat } }) := by
  refine s.ccc_answers b (.of_i3c m fun ⟨hw, hr, ha, hm, _⟩ => ⟨hw, hr, ha, hm, fun n h => ?_⟩)
  obtain ⟨x, -, rfl⟩ := Option.map_eq_some_iff.1 h
  exact x.isLt

/-- Every row answers a next state that keeps the queue, the fuses and the legal forms, or is refused as not enabled. -/
theorem exec_answers (i : Instr) (s : State) : Answers s (exec i s) := by
  cases i
  case auxPowerUp => exact execAuxPowerUp_answers _ s
  case auxUndervoltage => exact execAuxUndervoltage_answers s
  case moduleStart => exact execModuleStart_answers _ s
  case inputVoltageFault => exact execInputVoltageFault_answers _ s
  case thermalReading => exact execThermalReading_answers _ s
  case pwrEnAssert | p48vReaching40V => exact .next (s.ramp_keeps _)
  case pwrEnDeassert => exact .next (s.powerOff_keeps.trans (.of_mod _ _ _))
  case p48vBelow36V => exact execP48vBelow36V_answers s
  case railFault => exact execRailFault_answers _ s
  case perstAssert => exact execPerstAssert_answers s
  case fastPowerLimit => exact execFastPowerLimit_answers s
  case entdaa a => exact s.address_answers _ _ (some a)
  case setdasa _ a => exact s.address_answers _ s.m (some a)
  case setnewda _ a => exact s.address_answers _ s.m (some a)
  case rstdaa => exact s.address_answers true s.m none
  case rstact => exact s.ccc_answers _ (.of_i3c s.m fun ⟨_, _, ha, hm, _⟩ => ⟨le_refl 32, le_refl 32, ha, hm, nofun⟩)
  case enec | disec => exact s.ccc_answers _ (.of_i3c s.m id)
  case setmrl => exact s.ccc_answers _ (.of_i3c s.m fun ⟨hw, _, h⟩ => ⟨hw, min_le_left _ _, h⟩)
  case setmwl => exact s.ccc_answers _ (.of_i3c s.m fun ⟨_, h⟩ => ⟨min_le_left _ _, h⟩)
  case getpid | getbcr | getdcr | getstatus | getmrl | getmwl | getmxds => exact s.cccRead_answers _ _
  case readSensor | readStatus | setCap | readCap | readId | alertRead =>
    unfold exec
    exact s.i3cCmd_rowAnswers _ _ fun _ => .of_mod s _ s.pins
  case readLedger =>
    unfold exec
    exact s.i3cCmd_rowAnswers _ _ fun _ => by split <;> exact .refl s
  case alertClear => exact execAlertClear_answers _ s
  case alertMask => exact execAlertMask_answers _ s
  case extest | clamp | highz => exact s.loadPinIr_answers (by simp [TapLegal])
  case ijtag | bypass => exact s.loadIr_answers (by simp [TapLegal])
  case idcode | tapReset => exact .next (.ite (.of_tap _ fun _ => by simp [TapLegal]) (.refl s))
  case samplePreload => exact execSamplePreload_answers _ s
  case bcResult | pprStatus | misrRead | scanEn =>
    unfold exec
    exact s.instrument_answers _ _ _ _
  case frameSyncRise => exact execFrameSyncRise_answers s
  case idle | mgmt | xfer | rowadd => exact s.onMsg_answers _ _ _
  case shard | result | ballot | close => exact s.onHeld_answers _ _ _
  case registerWrite p off len v =>
    obtain ⟨b, m, e⟩ := execRegisterWrite_when p off len v s
    exact (congrArg (Answers s) e).mpr (s.when_answers b m)
  case registerRead p off len =>
    obtain ⟨b, m, e⟩ := execRegisterRead_when p off len s
    exact (congrArg (Answers s) e).mpr (s.when_answers b m)
  case getMeasurements f n index nonce =>
    obtain ⟨b, m, e⟩ := execGetMeasurements_when f n index nonce s
    exact (congrArg (Answers s) e).mpr (s.when_answers b m)
  all_goals exact s.when_answers _ _

theorem exec_keeps {i : Instr} {s t : State} (h : exec i s = .next t) : RowKeeps s t := by
  rcases exec_answers i s with ⟨u, e, keeps⟩ | e
  · obtain rfl : u = t := Host.Outcome.next.inj (e.symm.trans h)
    exact keeps
  · rw [e] at h
    cases h

/-! ## A step -/

/-- A step idles, or is the front row on the state with the queue's rest. -/
theorem step_cases {s t : State} (h : step s = .next t) : t = s ∨ ∃ c rest, s.pending = c :: rest ∧ exec c { s with pending := rest } = .next t := by
  unfold step at h
  split at h
  · exact .inl (Host.Outcome.next.inj h).symm
  · next c rest e => exact .inr ⟨c, rest, e, h⟩

/-- Settles O1: the two branches of a step. -/
theorem stepRunsTheQueueFirstInFirstOut : Obligations.StepRunsTheQueueFirstInFirstOut := by
  unfold Obligations.StepRunsTheQueueFirstInFirstOut
  exact ⟨fun c rest s h => by simp [step, h], fun s h => by simp [step, h]⟩

/-- Settles O2: every row keeps the queue and the fuses. -/
theorem commandsKeepQueueAndFuses : Obligations.CommandsKeepQueueAndFuses := by
  unfold Obligations.CommandsKeepQueueAndFuses
  exact fun _ _ _ h => ⟨(exec_keeps h).pending, (exec_keeps h).fuse⟩

/-- Settles O3: every row answers, or is refused as not enabled. -/
theorem commandsAnswerOrAreNotEnabled : Obligations.CommandsAnswerOrAreNotEnabled := by
  unfold Obligations.CommandsAnswerOrAreNotEnabled
  exact fun i s => (exec_answers i s).imp_left fun ⟨t, e, _⟩ => ⟨t, e⟩

/-- Settles O5: an idle step changes nothing, and every row keeps the legal forms. -/
theorem stepKeepsI3cAndTapLegal : Obligations.StepKeepsI3cAndTapLegal := by
  unfold Obligations.StepKeepsI3cAndTapLegal
  refine ⟨fun s t legal h => ?_, fun s t legal h => ?_⟩
  · rcases step_cases h with rfl | ⟨_, _, _, run⟩
    · exact legal
    · exact (exec_keeps run).i3c legal
  · rcases step_cases h with rfl | ⟨_, _, _, run⟩
    · exact legal
    · exact (exec_keeps run).tap legal

/-- Settles O6: the state right after reset, field by field. -/
theorem resetMeetsInvariants : Obligations.ResetMeetsInvariants := by
  unfold Obligations.ResetMeetsInvariants
  exact ⟨rfl, rfl, rfl, ⟨by decide, by decide, by decide, by decide, nofun⟩, .head _⟩

end Sys2Proof.Machine
end

section
/-! SUPPORT. A masked write of device memory, byte by byte (R8, R45). -/

namespace Sys2Proof.Machine

/-- A masked write changes the bits under its mask. -/
theorem getByte_putCell_same (l : List Host.Cell) (w : WCell) : getByte (putCell l w) w.addr = (getByte l w.addr &&& ~~~w.mask) ||| (w.val &&& w.mask) := getByte_putByte_same _ _ _

/-- The cells after one masked write through a page table. -/
theorem Mod.putMem_one_cells {m : Mod} {p : Nat} {w : WCell} {a : Nat} (h : m.phys p w.addr = some a) :
    (m.putMem p [w]).mem.cells = putCell m.mem.cells { w with addr := a } := by
  simp [Mod.putMem, Mod.putOne, h]

/-- The page tables do not see a write. -/
theorem Mod.phys_putMem (m : Mod) (p : Nat) (l : List WCell) (q x : Nat) : (m.putMem p l).phys q x = m.phys q x := rfl

theorem Mod.getB_of_phys {m : Mod} {p x a : Nat} (h : m.phys p x = some a) : m.getB p x = getByte m.mem.cells a := by simp [Mod.getB, h]

/-- Settles O12: a byte is read and written at the address that its page table gives, and the write changes that cell alone. -/
theorem deviceMemoryReadsBack : Obligations.DeviceMemoryReadsBack := by
  unfold Obligations.DeviceMemoryReadsBack
  intro m p w a h
  have cells := Mod.putMem_one_cells h
  refine ⟨fun q x hx => ?_, fun q x hx => ?_, _, Mod.putMem_spec m p [w]⟩
  · rw [Mod.getB_of_phys ((m.phys_putMem p [w] q x).trans hx), Mod.getB_of_phys hx, cells]
    exact getByte_putCell_same m.mem.cells { w with addr := a }
  · unfold Mod.getB
    rw [m.phys_putMem p [w] q x, cells]
    cases e : m.phys q x with
    | none => rfl
    | some b => exact getByte_putCell_ne fun eq => hx (e.trans (congrArg some eq))

end Sys2Proof.Machine
end

section
/-! SUPPORT. Host accesses row by row: where the offset of a row leads, when the access is held, turned away or performed, and what a write of one register does (R47, R50, R53, R379, R384, R494, R495). -/

namespace Sys2Proof.Machine

/-! ## Offsets of the rows -/

/-- Where the registers with few indices stand: base, stride and number of indices. -/
def fewPlaces : List (RegName × Nat × Nat × Nat) :=
  [(.FC_CT_CMD, 0x300044, 0, 1), (.MQ_TAIL, 0x9104, 0x2000, 8), (.ZL_CTRL, 0x3000000, 0x100, 32), (.ME_CKPT_RESTORE, 0x680070, 8, 4), (.MC_TILE_REMAP, 0x680064, 0, 1),
   (.TD_IDX_CTRL, 0x4F0000, 0x40, 4), (.MT_ECC_CTRL, 0x401000, 0, 1), (.BC_CTRL, 0x1600000, 0x800000, 4), (.OB_BANK_CTRL, 0x610000, 0x1000, 8), (.MC_LEDGER_CTRL, 0x680034, 0, 1),
   (.MC_DIE_CTRL, 0x681808, 0, 1)]

theorem few_addrs : ∀ x ∈ fewPlaces, ∀ i : Fin x.2.2.2, x.1.addr i = x.2.1 + x.2.2.1 * i := by decide +kernel

theorem addr_few {r : RegName} {base st n i : Nat} (h : (r, base, st, n) ∈ fewPlaces) (hi : i < n) : r.addr i = base + st * i := few_addrs _ h ⟨i, hi⟩

theorem addr_st : ∀ (d : Fin 4) (t : Fin 48), RegName.addr .ST_STATUS (d * 48 + t) = 0x1200024 + 0x800000 * d + 0x100 * t := by decide +kernel

theorem addr_weir {r : RegName} {o n : Nat} (hb : r.blk = some regBlks[4]) (ho : regBlks[4].regs.find? (fun x => x.2 = r) = some (o, r)) (hn : n < 16384) :
    r.addr n = 0x200000 + 0x10 * n + o := RegName.addr_of hb ho (ct := 16384) rfl hn

theorem addr_queue {r : RegName} {o n : Nat} (hb : r.blk = some regBlks[3]) (ho : regBlks[3].regs.find? (fun x => x.2 = r) = some (o, r)) (hn : n < 16384) :
    r.addr n = 0x100000 + 0x40 * n + o := RegName.addr_of hb ho (ct := 16384) rfl hn

/-- A write of a register by name is the access of the word at its offset. -/
theorem State.writes_word {s : State} {p h : Port} {a : HostAcc} {r : RegName} {i off : Nat} {v : Word} (e : word p off v = some (h, a)) (addr : r.addr i = off) :
    s.writes p r i v = s.host h a := by
  cases addr
  obtain ⟨rfl, rfl⟩ := Prod.mk.inj (Option.some.inj e)
  rfl

/-- A host row is the access that the table of host rows gives. -/
theorem hostRow_exec {i : Instr} {h : Port} {a : HostAcc} (s : State) (e : hostRow i = some (h, a)) : exec i s = s.host h a := by
  unfold hostRow at e
  split at e
  case h_1 p off len v =>
    split at e
    · next bar0 =>
      obtain ⟨rfl, rfl⟩ := Prod.mk.inj (Option.some.inj e)
      simp [exec, execRegisterWrite, bar0]
    · cases e
  case h_2 p off len =>
    split at e
    · next bar0 =>
      obtain ⟨rfl, rfl⟩ := Prod.mk.inj (Option.some.inj e)
      simp [exec, execRegisterRead, bar0]
    · cases e
  case h_3 | h_4 =>
    obtain ⟨rfl, rfl⟩ := Prod.mk.inj (Option.some.inj e)
    rfl
  case h_30 => cases e
  all_goals
    unfold exec
    refine State.writes_word e ?_
  case h_5 | h_6 | h_7 | h_20 | h_23 | h_27 | h_28 | h_29 => exact addr_few (st := 0) (n := 1) (by simp [fewPlaces]) (by decide)
  case h_8 n _ | h_9 n _ => exact (addr_weir rfl rfl n.isLt).trans (by omega)
  case h_10 q _ | h_11 q _ | h_12 q | h_13 q | h_14 q | h_15 q => exact (addr_queue rfl rfl q.isLt).trans (by omega)
  case h_16 p _ => exact addr_few (n := 8) (by simp [fewPlaces]) p.fn.isLt
  case h_17 l _ | h_18 l _ => exact addr_few (n := 32) (by simp [fewPlaces]) l.isLt
  case h_19 p _ | h_22 p _ | h_24 p _ => exact addr_few (n := 4) (by simp [fewPlaces]) p.isLt
  case h_21 d t _ => exact addr_st d t
  case h_25 b _ | h_26 b _ => exact addr_few (n := 8) (by simp [fewPlaces]) b.isLt

/-! ## Accesses outside a sluice window -/

theorem has_iff {l : List Nat} {n : Nat} : has l n = true ↔ n ∈ l := by simp [has]

/-- A host row outside a sluice window is an access. -/
theorem hostRow_access {i : Instr} {h : Port} {a : HostAcc} {s : State} (e : hostRow i = some (h, a)) (up : s.m.pci.up = true) (now : AtOnce s h) :
    exec i s = .next { s with m := s.m.access a } := by
  rw [hostRow_exec s e, State.host, State.when_true _ up, Mod.hostAcc_open a now]

/-- A host row that reaches its target is performed. -/
theorem hostRow_perform {i : Instr} {h : Port} {a : HostAcc} {s : State} (e : hostRow i = some (h, a)) (r : Reaches s h a) : exec i s = .next { s with m := s.m.perform a } := by
  obtain ⟨up, now, mem, allowed, live⟩ := r
  rw [hostRow_access e up now, Mod.access]
  simp [has_iff.2 mem, allowed, live]

theorem Mod.dropWrite_eq (s : Mod) : s.dropWrite = droppedWrite s := rfl

/-- What the hub does with an access for a stopped die (R379). -/
theorem Mod.holdFor_eq (s : Mod) (d : Nat) (a : HostAcc) :
    s.holdFor d a = if a.isRead = false ∧ 16 ≤ (s.pci.stuck.filter fun x => x.1 == d).length then droppedWrite s
      else { s with pci := { s.pci with stuck := s.pci.stuck ++ [(d, a)] } } := by
  by_cases full : 16 ≤ (s.pci.stuck.filter fun x => x.1 == d).length
  all_goals cases a <;> simp [Mod.holdFor, HostAcc.isRead, Mod.heldFor, Mod.dropWrite_eq, full]

/-- Settles O13: a row is its access, which the window holds; outside it the access is turned away by the function's enable, its form, and where it goes. -/
theorem hostAccessesAreHeldOrTurnedAway : Obligations.HostAccessesAreHeldOrTurnedAway := by
  unfold Obligations.HostAccessesAreHeldOrTurnedAway
  refine ⟨fun i h a s e up win running => ?_, fun i h a s e up now => ?_⟩
  · rw [hostRow_exec s e, State.host, State.when_true _ up, Mod.hostAcc_held a running win]
  · rw [hostRow_access e up now]
    refine ⟨fun off => ⟨_, rfl, ?_⟩, fun mem allowed dead => ⟨_, rfl, ?_⟩, fun d mem allowed stopped => ⟨_, rfl, ?_⟩⟩
    · have no : (!has s.m.pci.memEn a.fn || !a.allowed) = true := by
        rcases off with off | off
        · simp [Bool.eq_false_iff.2 fun c => off (has_iff.1 c)]
        · simp [off]
      rw [Mod.access, if_pos no]
      split <;> rfl
    · simp only [Mod.access, has_iff.2 mem, allowed, dead, Mod.dropWrite_eq]
      cases a.isRead <;> rfl
    · have held : s.m.access a = s.m.holdFor d a := by simp [Mod.access, has_iff.2 mem, allowed, stopped]
      rw [held, Mod.holdFor_eq]
      split <;> rfl

/-! ## Reads and writes of one register -/

/-- A register that is no half of a 64-bit quantity. -/
theorem pairAt_reg {fn off idx : Nat} {r : RegName} (t : targetAt fn off = some (.reg r idx)) (h : (regPairs.any fun p => p.1 == r || p.2 == r) = false) : pairAt fn off = none := by
  have lo : (regPairs.any fun p => p.1 == r) = false := List.any_eq_false.2 fun p hp c => List.any_eq_false.1 h p hp (by simp [c])
  have hi : (regPairs.any fun p => p.2 == r) = false := List.any_eq_false.2 fun p hp c => List.any_eq_false.1 h p hp (by simp [c])
  simp [pairAt, t, lo, hi]

/-- A 4-byte write of a register is its write, and then the port has moved. -/
theorem Mod.perform_write {s : Mod} {fn off idx : Nat} {r : RegName} (v : DWord) (t : targetAt fn off = some (.reg r idx)) (p : pairAt fn off = none) :
    s.perform (.write fn off 4 v) = (s.writeReg fn r idx (v.setWidth 32)).portMoved := by
  simp [Mod.perform, Mod.storeAt, Mod.store4, p, Mod.writeWord, t]

/-- A 4-byte read of a register. -/
theorem Mod.perform_read {s : Mod} {fn off : Nat} (p : pairAt fn off = none) :
    s.perform (.read fn off 4) = ((s.readWord fn off).2.emit (.completion fn (0#32 ++ (s.readWord fn off).1) 4)).portMoved := by
  simp [Mod.perform, Mod.readReg, Mod.read4, p]

theorem setWidth_append_zero (v : Word) : (0#32 ++ v : DWord).setWidth 32 = v := by
  have low : (0#32 ++ v : BitVec (32 + 32)).setWidth 32 = v := by
    rw [BitVec.setWidth_append]
    simp
  exact low

/-! ## Where the named rows lead -/

/-- A host row is a write of a register at one of its indices. -/
structure WritesReg (h : Port) (a : HostAcc) (r : RegName) (idx : Nat) (v : Word) : Prop where
  acc : ∃ off, a = .write h.fn off 4 (0#32 ++ v) ∧ targetAt h.fn off = some (.reg r idx)
  single : (regPairs.any fun p => p.1 == r || p.2 == r) = false

/-- A word at a register's own offset. -/
theorem WritesReg.of_addr {h p : Port} {a : HostAcc} {r : RegName} {idx off : Nat} {v : Word} (e : word p off v = some (h, a))
    (place : r.addr idx = off ∧ targetAt p.fn (r.addr idx) = some (.reg r idx)) (single : (regPairs.any fun p => p.1 == r || p.2 == r) = false) : WritesReg h a r idx v := by
  obtain ⟨rfl, t⟩ := place
  obtain ⟨rfl, rfl⟩ := Prod.mk.inj (Option.some.inj e)
  exact ⟨⟨_, rfl, t⟩, single⟩

theorem WritesReg.exec {i : Instr} {h : Port} {a : HostAcc} {r : RegName} {idx : Nat} {v : Word} {s : State} (w : WritesReg h a r idx v) (e : hostRow i = some (h, a)) (reach : Reaches s h a) :
    exec i s = .next { s with m := (s.m.writeReg h.fn r idx v).portMoved } := by
  obtain ⟨⟨off, rfl, t⟩, single⟩ := w
  rw [hostRow_perform e reach, Mod.perform_write _ t (pairAt_reg t single), setWidth_append_zero]

/-! ## Rows that stage a registered write (R53) -/

theorem stagedRow_spec {i : Instr} {h : Port} {a : HostAcc} {r : RegName} {idx : Nat} {v : Word} (e : hostRow i = some (h, a)) (g : stagedRow i = some (h, r, idx, v)) :
    WritesReg h a r idx v := by
  unfold stagedRow at g
  split at g
  case h_19 => cases g
  all_goals
    simp only [Option.some.injEq, Prod.mk.injEq] at g
    obtain ⟨rfl, rfl, hi, rfl⟩ := g
    subst hi
    unfold hostRow at e
    refine WritesReg.of_addr e ?_ rfl
  case h_1 n _ => exact ⟨(addr_weir rfl rfl n.isLt).trans (by omega), targetAt_weir (by simp [weirRows]) n.isLt⟩
  case h_2 q _ | h_3 q _ | h_4 q | h_5 q | h_6 q | h_7 q => exact ⟨(addr_queue rfl rfl q.isLt).trans (by omega), targetAt_queue (by simp [queueRows]) q.isLt⟩
  case h_8 p _ => exact ⟨addr_few (n := 8) (by simp [fewPlaces]) p.fn.isLt, targetAt_mqTail p.fn⟩
  case h_9 l _ | h_10 l _ => exact ⟨addr_few (n := 32) (by simp [fewPlaces]) l.isLt, targetAt_few (n := 32) (by simp [fewRows]) l.isLt⟩
  case h_11 d t _ => exact ⟨addr_st d t, targetAt_few (n := 192) (by simp [fewRows]) (by omega)⟩
  case h_12 p _ | h_14 p _ => exact ⟨addr_few (n := 4) (by simp [fewPlaces]) p.isLt, targetAt_few (n := 4) (by simp [fewRows]) p.isLt⟩
  case h_13 | h_17 | h_18 => exact ⟨addr_few (st := 0) (n := 1) (by simp [fewPlaces]) (by decide), targetAt_few (n := 1) (by simp [fewRows]) (by decide)⟩
  case h_15 b _ | h_16 b _ => exact ⟨addr_few (n := 8) (by simp [fewPlaces]) b.isLt, targetAt_few (n := 8) (by simp [fewRows]) b.isLt⟩

/-- A write that waits for step 5 of the sluice. -/
def Mod.stageReg (s : Mod) (w : RegWr) : Mod := { s with rf := { s.rf with stage := s.rf.stage ++ [w] } }

/-- The bits of a register outside its TX mark that a write can act on. -/
def RegName.acts (r : RegName) : Word := r.desc.w1c ||| r.desc.w1s ||| (r.desc.wo &&& ~~~r.desc.tx)

/-- The registers with a rule of their own for what a write does. -/
def ruledRegs : List RegName := [.FC_CT_SEL, .FC_CT_CMD, .WEIR_SIGNAL, .WEIR_CTRL, .OB_BANK_CTRL]

/-- A write of a register without a rule of its own waits for the sluice, or touches no bit that software may write. -/
theorem Mod.plainWrite_rest (s : Mod) (fn idx : Nat) {r : RegName} (v : Word) (h : r ∉ ruledRegs) :
    s.plainWrite fn r idx v = if r.desc.rw = 0 ∧ r ≠ .CQ_TAIL ∧ r ≠ .MQ_TAIL ∧ v &&& r.acts = 0 then s else s.stageReg ⟨fn, r, idx, v⟩ := by
  simp only [ruledRegs, List.mem_cons, List.not_mem_nil, or_false, not_or] at h
  obtain ⟨h1, h2, h3, h4, h5⟩ := h
  unfold Mod.plainWrite
  dsimp only
  split
  case h_1 | h_2 | h_3 | h_4 | h_5 => contradiction
  case h_6 | h_7 => exact (if_neg (by simp)).symm
  case h_8 =>
    by_cases c : (v &&& r.acts) = 0 ∧ r.desc.rw = 0
    · obtain ⟨hv, hr⟩ := c
      exact (if_pos (by simpa [RegName.acts, hr] using hv)).trans (if_pos ⟨hr, ‹_›, ‹_›, hv⟩).symm
    · exact (if_neg (by simpa [RegName.acts] using c)).trans (if_neg fun ⟨hr, _, _, hv⟩ => c ⟨hv, hr⟩).symm

/-- A write of a register that a function may make: its TX bits go to the open slot, the others act or wait. -/
theorem Mod.writeReg_own {s : Mod} {fn idx : Nat} {r : RegName} (v : Word) (f0 : (f0Only r && fn != 0) = false) (dike : s.diked fn (.reg r idx) = false) (own : s.notOwned fn (.reg r idx) = false) :
    s.writeReg fn r idx v = (if s.meansTx fn r idx v then s.txWrite fn r idx v false else s).plainWrite fn r idx v := by
  simp [Mod.writeReg, f0, dike, own]

/-- A TX write changes configuration slots and flags alone. -/
theorem Mod.txWrite_spec (s : Mod) (fn : Nat) (r : RegName) (idx : Nat) (v : Word) (no : Bool) :
    s.txWrite fn r idx v no = { s with ct := (s.txWrite fn r idx v no).ct, rf := { s.rf with flags := (s.txWrite fn r idx v no).rf.flags } } := by
  unfold Mod.txWrite
  dsimp only
  split_ifs <;> rfl

theorem Mod.meansTx_of_plain {s : Mod} {fn idx : Nat} {r : RegName} {v : Word} (h : r.desc.tx = 0) : s.meansTx fn r idx v = false := by simp [Mod.meansTx, h]

/-- What a registered write does beside its own stage: nothing to the weirs or the banks but what WEIR_CTRL.CLEAR and OB_BANK_CTRL ask for. -/
structure Stages (s t : Mod) (w : RegWr) : Prop where
  same : t = { s with rf := { s.rf with stage := s.rf.stage ++ [w] }, wr := t.wr, ob := t.ob }
  sigs : t.wr.sigs = s.wr.sigs
  clears : ∀ n, n ∈ t.wr.clears ↔ n ∈ s.wr.clears ∨ (w.reg = .WEIR_CTRL ∧ n = w.idx)
  banks : ∀ b, (t.bank b).armed = ((s.bank b).armed || (decide (w.reg = .OB_BANK_CTRL ∧ b = w.idx) && w.val.getLsbD 31))
    ∧ (t.bank b).ask = ((s.bank b).ask || (decide (w.reg = .OB_BANK_CTRL ∧ b = w.idx) && w.val.getLsbD 30))

theorem mem_addOnce {l : List Nat} {n x : Nat} : x ∈ addOnce l n ↔ x ∈ l ∨ x = n := by
  unfold addOnce
  split
  · next h => exact ⟨.inl, fun c => c.elim id fun e => e ▸ has_iff.1 h⟩
  · simp

theorem Mod.stageReg_stages (s : Mod) {w : RegWr} (h : w.reg ∉ ruledRegs) : Stages s (s.stageReg w) w := by
  have weir : w.reg ≠ .WEIR_CTRL := fun e => h (by simp [ruledRegs, e])
  have bank : w.reg ≠ .OB_BANK_CTRL := fun e => h (by simp [ruledRegs, e])
  exact ⟨rfl, rfl, fun n => by simp [Mod.stageReg, weir], fun b => by simp [Mod.stageReg, bank, Mod.bank]⟩

/-- A write of WEIR_CTRL with CLEAR stages the clear as well (R58). -/
theorem Mod.weirCtrl_stages (s : Mod) (fn n : Nat) {v : Word} (h : v.getLsbD 1 = true) : Stages s (s.plainWrite fn .WEIR_CTRL n v) ⟨fn, .WEIR_CTRL, n, v⟩ := by
  have e : s.plainWrite fn .WEIR_CTRL n v = ({ s with wr := { s.wr with clears := addOnce s.wr.clears n } } : Mod).stageReg ⟨fn, .WEIR_CTRL, n, v⟩ := by
    simp [Mod.plainWrite, h, Mod.stageReg]
  rw [e]
  exact ⟨rfl, rfl, fun k => by simp [Mod.stageReg, mem_addOnce], fun b => by simp [Mod.stageReg, Mod.bank]⟩

/-- A write of OB_BANK_CTRL stages the clear and the sample that it asks for as well (R438, R439). -/
theorem Mod.bankCtrl_stages (s : Mod) (fn n : Nat) {v : Word} (h : (v.getLsbD 31 || v.getLsbD 30) = true) : Stages s (s.plainWrite fn .OB_BANK_CTRL n v) ⟨fn, .OB_BANK_CTRL, n, v⟩ := by
  have e : s.plainWrite fn .OB_BANK_CTRL n v
      = (s.setBank n { s.bank n with armed := (s.bank n).armed || v.getLsbD 31, ask := (s.bank n).ask || v.getLsbD 30 }).stageReg ⟨fn, .OB_BANK_CTRL, n, v⟩ := by
    simp only [Mod.plainWrite, h, if_true, Mod.stageReg]
  rw [e]
  refine ⟨rfl, rfl, fun k => by simp [Mod.stageReg, Mod.setBank], fun b => ?_⟩
  by_cases hb : b = n
  · simp [Mod.stageReg, Mod.setBank, Mod.bank, hb]
  · simp [Mod.stageReg, Mod.setBank, Mod.bank, hb, Tbl.getD_set_ne]

theorem and_ne_zero_of_bit {v m : Word} (k : Nat) (hv : v.getLsbD k = true) (hm : m.getLsbD k = true) : v &&& m ≠ 0 := fun e => by
  have := congrArg (fun x => x.getLsbD k) e
  simp [hv, hm] at this

/-- A row's registered write stages. -/
theorem stagedRow_stages {i : Instr} {h : Port} {r : RegName} {idx : Nat} {v : Word} (s : Mod) (g : stagedRow i = some (h, r, idx, v)) :
    Stages s (s.plainWrite h.fn r idx v) ⟨h.fn, r, idx, v⟩ ∧ f0Only r = false := by
  have waits {fn idx : Nat} {r : RegName} {v : Word} (ruled : r ∉ ruledRegs) (acts : ¬ (r.desc.rw = 0 ∧ r ≠ .CQ_TAIL ∧ r ≠ .MQ_TAIL ∧ v &&& r.acts = 0)) :
      Stages s (s.plainWrite fn r idx v) ⟨fn, r, idx, v⟩ := by
    rw [Mod.plainWrite_rest s fn idx v ruled, if_neg acts]
    exact s.stageReg_stages ruled
  have acts {fn idx : Nat} {r : RegName} {v : Word} (k : Nat) (ruled : r ∉ ruledRegs) (hv : v.getLsbD k = true) (hm : r.acts.getLsbD k = true) :
      Stages s (s.plainWrite fn r idx v) ⟨fn, r, idx, v⟩ := waits ruled fun ⟨_, _, _, c⟩ => and_ne_zero_of_bit k hv hm c
  unfold stagedRow at g
  split at g
  case h_19 => cases g
  all_goals
    simp only [Option.some.injEq, Prod.mk.injEq] at g
    obtain ⟨rfl, rfl, hi, rfl⟩ := g
    subst hi
    refine ⟨?_, rfl⟩
  case h_1 => exact s.weirCtrl_stages _ _ (by simp)
  case h_2 | h_8 => exact waits (by decide) fun c => by simp at c
  case h_3 => exact waits (by decide) fun c => absurd c.1 (by decide)
  case h_4 | h_6 => exact acts 0 (by decide) (by decide) (by decide)
  case h_5 => exact acts 1 (by decide) (by decide) (by decide)
  case h_7 => exact acts 2 (by decide) (by decide) (by decide)
  case h_9 => exact acts 1 (by decide) (by simp) (by decide)
  case h_10 => exact acts 2 (by decide) (by simp) (by decide)
  case h_11 | h_12 | h_13 | h_17 => exact acts 31 (by decide) (by simp) (by decide)
  case h_14 => exact acts 29 (by decide) (by simp) (by decide)
  case h_18 => exact acts 30 (by decide) (by simp) (by decide)
  case h_15 | h_16 => exact s.bankCtrl_stages _ _ (by simp)

/-- A TX write leaves what no write changes before its sluice. -/
theorem Mod.ifTx_spec (s : Mod) (b : Bool) (fn : Nat) (r : RegName) (idx : Nat) (v : Word) :
    let u := if b then s.txWrite fn r idx v false else s
    u = { s with ct := u.ct, rf := { s.rf with flags := u.rf.flags } } := by
  cases b
  · rfl
  · exact s.txWrite_spec fn r idx v false

/-- Settles O14: a row writes its register, whose TX bits go to a slot and whose other bits stage. -/
theorem registeredWritesWaitForTheSluice : Obligations.RegisteredWritesWaitForTheSluice := by
  unfold Obligations.RegisteredWritesWaitForTheSluice
  intro i h a r idx v s e g reach dike own
  have f0 : (f0Only r && h.fn.val != 0) = false := by simp [(stagedRow_stages s.m g).2]
  refine ⟨_, (stagedRow_spec e g).exec e reach, ?_⟩
  have plain : r.desc.tx = 0 → (if s.m.meansTx h.fn r idx v then s.m.txWrite h.fn r idx v false else s.m) = s.m := fun tx => by simp [Mod.meansTx_of_plain tx]
  rw [Mod.writeReg_own v f0 dike own]
  have hu := s.m.ifTx_spec (s.m.meansTx h.fn r idx v) h.fn r idx v
  revert hu plain
  generalize (if s.m.meansTx h.fn r idx v then s.m.txWrite h.fn r idx v false else s.m) = u
  intro plain hu
  obtain ⟨⟨same, sigs, clears, banks⟩, -⟩ := stagedRow_stages u g
  have hwr : u.wr = s.m.wr := by rw [hu]
  have hob : u.ob = s.m.ob := by rw [hu]
  have hrf : u.rf = { s.m.rf with flags := u.rf.flags } := congrArg Mod.rf hu
  refine ⟨?_, ?_, sigs.trans (congrArg _ hwr), fun n => (clears n).trans (by rw [hwr]), fun b => ?_, fun tx => ?_, rfl, rfl, rfl⟩
  · change (u.plainWrite h.fn r idx v).rf.stage = _
    rw [same, hrf]
  · change SameUntilSluice s.m (u.plainWrite h.fn r idx v).portMoved
    rw [same, hu]
    exact ⟨rfl, rfl, rfl, rfl, rfl, rfl, rfl, rfl, rfl, rfl, rfl, rfl, rfl⟩
  · have hbank : u.bank b = s.m.bank b := by rw [Mod.bank, hob]; rfl
    have := banks b
    rwa [hbank] at this
  · change (u.plainWrite h.fn r idx v).ct = _ ∧ (u.plainWrite h.fn r idx v).rf.flags = _
    rw [same, plain tx]
    exact ⟨rfl, rfl⟩

end Sys2Proof.Machine
end

section
/-! SUPPORT. Configuration slots: their commands, and the TX writes that they take (R50, R51, R54, R418, R463). -/

namespace Sys2Proof.Machine

theorem Mod.ctSlot_setSlot_same (s : Mod) (fn k : Nat) (c : CtSlot) : (s.setSlot fn k c).ctSlot fn k = c := by simp [Mod.ctSlot, Mod.setSlot]

theorem Mod.ctSlot_setSlot_ne (s : Mod) {fn k g n : Nat} (c : CtSlot) (h : g * 16 + n ≠ fn * 16 + k) : (s.setSlot fn k c).ctSlot g n = s.ctSlot g n := by
  simp [Mod.ctSlot, Mod.setSlot, Tbl.getD_set_ne _ _ _ h]

/-- A change of the slots alone. -/
theorem SameUntilSluice.of_ct {s t : Mod} (h : t = { s with ct := t.ct }) : SameUntilSluice s t.portMoved ∧ t.portMoved.rf = s.rf ∧ t.portMoved.wr = s.wr ∧ t.portMoved.ob = s.ob := by
  rw [h]
  exact ⟨⟨rfl, rfl, rfl, rfl, rfl, rfl, rfl, rfl, rfl, rfl, rfl, rfl, rfl⟩, rfl, rfl, rfl⟩

/-! ## FC_CT_CMD -/

/-- FC_CT_CMD changes the slots alone. -/
theorem Mod.ctCmd_spec (s : Mod) (fn op k : Nat) : s.ctCmd fn op k = { s with ct := (s.ctCmd fn op k).ct } := by
  unfold Mod.ctCmd
  dsimp only
  split <;> rfl

/-- An open empties a free slot. -/
theorem Mod.ctCmd_open (s : Mod) (fn k : Nat) : s.ctCmd fn 1 k = if (s.ctSlot fn k).st = .free then s.setSlot fn k ⟨.opened, [], false, (s.ctSlot fn k).err⟩ else s := by
  unfold Mod.ctCmd
  cases h : (s.ctSlot fn k).st <;> simp [h]

/-- A close takes its place in the order of closes. -/
theorem Mod.ctCmd_close (s : Mod) (fn k : Nat) :
    s.ctCmd fn 2 k = if (s.ctSlot fn k).st = .opened then
        { s.setSlot fn k { s.ctSlot fn k with st := .closed s.ct.closes } with ct := { (s.setSlot fn k { s.ctSlot fn k with st := .closed s.ct.closes }).ct with closes := s.ct.closes + 1 } }
      else s := by
  unfold Mod.ctCmd
  cases h : (s.ctSlot fn k).st <;> simp [h]

/-- An abandon of a slot that is not free waits for the sluice. -/
theorem Mod.ctCmd_abandon (s : Mod) (fn k : Nat) :
    s.ctCmd fn 3 k = if (s.ctSlot fn k).st = .free then s else { s with ct := { s.ct with abandons := s.ct.abandons ++ [(fn, k)] } } := by
  unfold Mod.ctCmd
  cases h : (s.ctSlot fn k).st <;> simp [h]

/-- Every other slot stays. -/
theorem Mod.ctSlot_ctCmd_ne (s : Mod) {fn k g n : Nat} (op : Nat) (h : g * 16 + n ≠ fn * 16 + k) : (s.ctCmd fn op k).ctSlot g n = s.ctSlot g n := by
  unfold Mod.ctCmd
  dsimp only
  split
  · exact s.ctSlot_setSlot_ne _ h
  · exact s.ctSlot_setSlot_ne _ h
  all_goals rfl

/-- A row of FC_CT_CMD is the operation on the slot. -/
theorem ctRow_exec {i : Instr} {h : Port} {a : HostAcc} {s : State} (op : Nat) (k : Fin 16) (hop : op < 4) (e : hostRow i = some (h, a)) (reach : Reaches s h a)
    (w : word h 0x300044 (BitVec.ofNat 32 (k * 256 + op)) = some (h, a)) : exec i s = .next { s with m := (s.m.ctCmd h.fn op k).portMoved } := by
  have writes : WritesReg h a .FC_CT_CMD h.fn (BitVec.ofNat 32 (k * 256 + op)) := by
    have addr : RegName.addr .FC_CT_CMD 0 = 0x300044 := addr_few (st := 0) (n := 1) (by simp [fewPlaces]) (by decide)
    obtain ⟨-, rfl⟩ := Prod.mk.inj (Option.some.inj w)
    exact ⟨⟨_, rfl, addr ▸ targetAt_ctCmd h.fn⟩, rfl⟩
  have hk := k.isLt
  have value : (BitVec.ofNat 32 (k.val * 256 + op)).toNat = k.val * 256 + op := by
    rw [BitVec.toNat_ofNat]
    omega
  have dike : s.m.diked h.fn (.reg .FC_CT_CMD h.fn) = false := rfl
  have slot : bits (k.val * 256 + op) 11 8 = k.val := by
    unfold bits
    omega
  have op4 : (k.val * 256 + op) % 4 = op := by omega
  rw [writes.exec e reach, Mod.writeReg_own _ rfl dike rfl, Mod.meansTx_of_plain rfl]
  simp only [Mod.plainWrite, value, slot, op4, Bool.false_eq_true, if_false]

/-- FC_CT_CMD's operations act on the slot that they name. -/
theorem configurationSlotsOpenCloseAndAbandon : ConfigurationSlotsOpenCloseAndAbandon := by
  intro i h k a s mem e reach
  have frame (op : Nat) : SameUntilSluice s.m (s.m.ctCmd h.fn op k).portMoved ∧ (s.m.ctCmd h.fn op k).portMoved.rf = s.m.rf ∧ (s.m.ctCmd h.fn op k).portMoved.wr = s.m.wr
      ∧ (s.m.ctCmd h.fn op k).portMoved.ob = s.m.ob := SameUntilSluice.of_ct (s.m.ctCmd_spec h.fn op k)
  simp only [List.mem_cons, List.not_mem_nil, or_false] at mem
  rcases mem with rfl | rfl | rfl
  · obtain ⟨same, rf, wr, ob⟩ := frame 1
    refine ⟨_, ctRow_exec 1 k (by decide) e reach e, same, rf, wr, ob, fun fn n ne => s.m.ctSlot_ctCmd_ne 1 ne, fun _ => ?_, nofun, nofun⟩
    change (s.m.ctCmd h.fn 1 k).ct.closes = _ ∧ (s.m.ctCmd h.fn 1 k).ct.abandons = _ ∧ (s.m.ctCmd h.fn 1 k).ctSlot h.fn k = _
    rw [Mod.ctCmd_open]
    split
    · exact ⟨rfl, rfl, s.m.ctSlot_setSlot_same _ _ _⟩
    · exact ⟨rfl, rfl, rfl⟩
  · obtain ⟨same, rf, wr, ob⟩ := frame 2
    refine ⟨_, ctRow_exec 2 k (by decide) e reach e, same, rf, wr, ob, fun fn n ne => s.m.ctSlot_ctCmd_ne 2 ne, nofun, fun _ => ?_, nofun⟩
    change (s.m.ctCmd h.fn 2 k).ct.abandons = _ ∧ (s.m.ctCmd h.fn 2 k).ct.closes = _ ∧ (s.m.ctCmd h.fn 2 k).ctSlot h.fn k = _
    rw [Mod.ctCmd_close]
    split
    · exact ⟨rfl, rfl, s.m.ctSlot_setSlot_same _ _ _⟩
    · exact ⟨rfl, rfl, rfl⟩
  · obtain ⟨same, rf, wr, ob⟩ := frame 3
    refine ⟨_, ctRow_exec 3 k (by decide) e reach e, same, rf, wr, ob, fun fn n ne => s.m.ctSlot_ctCmd_ne 3 ne, nofun, nofun, fun _ => ?_⟩
    change (s.m.ctCmd h.fn 3 k).ctSlot h.fn k = _ ∧ (s.m.ctCmd h.fn 3 k).ct.closes = _ ∧ (s.m.ctCmd h.fn 3 k).ct.abandons = _
    rw [Mod.ctCmd_abandon]
    split <;> exact ⟨rfl, rfl, rfl⟩

/-! ## TX writes -/

theorem txRow_spec {i : Instr} {h : Port} {a : HostAcc} {r : RegName} {idx : Nat} {v : Word} (e : hostRow i = some (h, a)) (g : txRow i = some (h, r, idx, v)) :
    WritesReg h a r idx v := by
  unfold txRow at g
  split at g
  case h_4 => cases g
  all_goals
    simp only [Option.some.injEq, Prod.mk.injEq] at g
    obtain ⟨rfl, rfl, hi, rfl⟩ := g
    subst hi
    unfold hostRow at e
    refine WritesReg.of_addr e ?_ rfl
  case h_1 p _ => exact ⟨addr_few (n := 4) (by simp [fewPlaces]) p.isLt, targetAt_few (n := 4) (by simp [fewRows]) p.isLt⟩
  case h_2 | h_3 => exact ⟨addr_few (st := 0) (n := 1) (by simp [fewPlaces]) (by decide), targetAt_few (n := 1) (by simp [fewRows]) (by decide)⟩

/-- The registers of the TX rows: every bit that software writes is marked TX, and MC_DIE_CTRL is F0's. -/
theorem txRow_reg {i : Instr} {h : Port} {r : RegName} {idx : Nat} {v : Word} (g : txRow i = some (h, r, idx, v)) :
    r.desc.tx ≠ 0 ∧ r.desc.rw = 0 ∧ (r.desc.rw ||| r.desc.w1c ||| (r.desc.wo &&& ~~~r.desc.tx)) = 0 ∧ r.acts = 0 ∧ r ∉ ruledRegs ∧ r ≠ .CQ_TAIL ∧ r ≠ .MQ_TAIL ∧ (f0Only r = true ↔ r = .MC_DIE_CTRL)
      ∧ (r.own == .queue) = false ∧ (r == .MQ_CTRL || r == .MQ_TAIL || r == .MQ_HEAD) = false := by
  unfold txRow at g
  split at g
  case h_4 => cases g
  all_goals
    simp only [Option.some.injEq, Prod.mk.injEq] at g
    obtain ⟨-, rfl, -⟩ := g
    decide

/-- A write of a TX row's register is its TX write, with the dike's refusal. -/
theorem txRow_write {i : Instr} {h : Port} {r : RegName} {idx : Nat} {v : Word} (s : Mod) (g : txRow i = some (h, r, idx, v)) (f0 : (f0Only r && h.fn.val != 0) = false) :
    s.writeReg h.fn r idx v = if (s.ctSlot h.fn (s.ctSel h.fn)).st = .opened then s.txWrite h.fn r idx v (s.diked h.fn (.reg r idx))
      else (if s.diked h.fn (.reg r idx) then refusal s (s.polderOf h.fn) else s).raise .FC_CT_STATUS_BARE_WRITE h.fn := by
  obtain ⟨tx, rw, others, acts, ruled, cq, mq, -, queue, mgmt⟩ := txRow_reg g
  cases no : s.diked h.fn (.reg r idx)
  · have means : s.meansTx h.fn r idx v = true := by
      unfold Mod.meansTx
      simp only [others, beq_self_eq_true, Bool.or_true, Bool.true_or, Bool.and_true]
      exact bne_iff_ne.2 tx
    have plain (t : Mod) : t.plainWrite h.fn r idx v = t := by simp [Mod.plainWrite_rest t h.fn idx v ruled, rw, acts, cq, mq]
    rw [Mod.writeReg_own v f0 no (by simp [Mod.notOwned, queue, mgmt]), means, if_pos rfl, plain]
    split
    · rfl
    · next st => simp [Mod.txWrite, st]
  · simp only [Mod.writeReg, f0, no, tx, if_true, if_false, Bool.false_eq_true]
    rfl

/-- A TX write into an open slot is its last write, or fails it. -/
theorem Mod.txWrite_open {s : Mod} {fn : Nat} (r : RegName) (idx : Nat) (v : Word) (no : Bool) (st : (s.ctSlot fn (s.ctSel fn)).st = .opened) :
    let t := (s.txWrite fn r idx v no).portMoved
    let c := s.ctSlot fn (s.ctSel fn)
    SameUntilSluice s t ∧ t.rf = s.rf ∧ t.wr = s.wr ∧ t.ob = s.ob ∧ t.ct.closes = s.ct.closes ∧ t.ct.abandons = s.ct.abandons
      ∧ (∀ g n, g * 16 + n ≠ fn * 16 + s.ctSel fn → t.ctSlot g n = s.ctSlot g n)
      ∧ t.ctSlot fn (s.ctSel fn) = if 256 ≤ c.writes.length then { c with failed := true, err := 0x28 } else { c with writes := c.writes ++ [⟨r, idx, v &&& r.desc.tx, no⟩] } := by
  intro t c
  have slot (d : CtSlot) : SameUntilSluice s (s.setSlot fn (s.ctSel fn) d).portMoved ∧ (s.setSlot fn (s.ctSel fn) d).portMoved.rf = s.rf
      ∧ (s.setSlot fn (s.ctSel fn) d).portMoved.wr = s.wr ∧ (s.setSlot fn (s.ctSel fn) d).portMoved.ob = s.ob := SameUntilSluice.of_ct rfl
  have e : t = (s.setSlot fn (s.ctSel fn) (if 256 ≤ c.writes.length then { c with failed := true, err := 0x28 }
      else { c with writes := c.writes ++ [⟨r, idx, v &&& r.desc.tx, no⟩] })).portMoved := by
    unfold t Mod.txWrite
    dsimp only
    rw [if_neg (not_not.2 st)]
    split <;> rfl
  rw [e]
  obtain ⟨same, rf, wr, ob⟩ := slot (if 256 ≤ c.writes.length then { c with failed := true, err := 0x28 } else { c with writes := c.writes ++ [⟨r, idx, v &&& r.desc.tx, no⟩] })
  exact ⟨same, rf, wr, ob, rfl, rfl, fun g n ne => s.ctSlot_setSlot_ne _ ne, s.ctSlot_setSlot_same _ _ _⟩

/-- Writes of the TX rows. -/
theorem txWritesGoToTheOpenSlot : TxWritesGoToTheOpenSlot := by
  intro i h a r idx v s e g reach k c no
  have run := (txRow_spec e g).exec e reach
  obtain ⟨-, -, -, -, -, -, -, mine, -⟩ := txRow_reg g
  have free (f : r = .MC_DIE_CTRL → h.fn = 0) : (f0Only r && h.fn.val != 0) = false := by
    by_cases hr : r = .MC_DIE_CTRL
    · simp [f hr]
    · simp [Bool.eq_false_iff.2 fun x => hr (mine.1 x)]
  refine ⟨fun hr fn => ?_, fun f st => ?_, fun f st => ?_⟩
  · have only : f0Only r = true := mine.2 hr
    have other : (h.fn.val != 0) = true := by simpa using fn
    rw [run]
    simp [Mod.writeReg, only, other]
  · rw [run, txRow_write s.m g (free f), if_neg st]
  · refine ⟨_, run, ?_⟩
    rw [txRow_write s.m g (free f), if_pos st]
    exact Mod.txWrite_open r idx v no st

/-- Settles O15: FC_CT_CMD's operations, and the TX writes, each on the slot that it names. -/
theorem configurationSlotsTakeWrites : Obligations.ConfigurationSlotsTakeWrites := ⟨configurationSlotsOpenCloseAndAbandon, txWritesGoToTheOpenSlot⟩

end Sys2Proof.Machine
end

section
/-! SUPPORT. Reads and writes of any register, writes that are dropped, and the port's own structures (R13, R28, R52, R278, R418, R492 to R494). -/

namespace Sys2Proof.Machine

/-! ## Registers -/

/-- What a row of BAR0 reads is one completion. -/
theorem read_exec {h : Port} {off : BitVec 26} {s : State} (bar0 : h.space = .bar0) (reach : Reaches s h (.read h.fn off.toNat 4)) (p : pairAt h.fn off.toNat = none) :
    exec (.registerRead h off 4) s
      = .next { s with m := ((s.m.readWord h.fn off.toNat).2.emit (.completion h.fn (0#32 ++ (s.m.readWord h.fn off.toNat).1) 4)).portMoved } := by
  rw [hostRow_perform (by simp [hostRow, bar0]) reach, Mod.perform_read p]

theorem registerReadReturnsTheRegister : RegisterReadReturnsTheRegister := by
  intro h off r idx s bar0 reach t p
  rw [read_exec bar0 reach p]
  refine ⟨fun no => ?_, fun no own => ?_, fun no own => ?_⟩
  · have e : s.m.readWord h.fn off.toNat = (0, refusal s.m (s.m.polderOf h.fn)) := by
      simp only [Mod.readWord, t, no, if_true]
      rfl
    rw [e, show (0#32 ++ (0 : Word) : DWord) = 0 by decide]
  · have e : s.m.readWord h.fn off.toNat = (0, s.m) := by simp only [Mod.readWord, t, no, own, if_true, if_false, Bool.false_eq_true]
    rw [e, show (0#32 ++ (0 : Word) : DWord) = 0 by decide]
  · have e : s.m.readWord h.fn off.toNat = (s.m.seen h.fn r idx, s.m.bump) := by simp only [Mod.readWord, t, no, own, if_false, Bool.false_eq_true, Mod.readTarget]
    rw [e]
    exact ⟨_, rfl, rfl, rfl⟩

theorem registerWriteWaitsForTheSluice : RegisterWriteWaitsForTheSluice := by
  intro h off r idx v s bar0 reach t p tx f0 ruled dike own
  have acts : r.acts = r.desc.w1c ||| r.desc.w1s ||| r.desc.wo := by
    rw [RegName.acts, tx, show (~~~(0 : Word)) = BitVec.allOnes 32 by decide, BitVec.and_allOnes]
  have e : exec (.registerWrite h off 4 v) s = .next { s with m := (s.m.plainWrite h.fn r idx (v.setWidth 32)).portMoved } := by
    rw [hostRow_perform (by simp [hostRow, bar0]) reach, Mod.perform_write v t p, Mod.writeReg_own _ (by simp [f0]) dike own, Mod.meansTx_of_plain tx]
    rfl
  rw [Mod.plainWrite_rest _ _ _ _ ruled, acts] at e
  refine ⟨_, e, ?_⟩
  split <;> exact ⟨⟨rfl, rfl, rfl, rfl, rfl, rfl, rfl, rfl, rfl, rfl, rfl, rfl, rfl⟩, rfl, rfl, rfl, rfl⟩

theorem foreignRegisterWritesAreDropped : ForeignRegisterWritesAreDropped := by
  intro i h a r idx v s e g reach
  have f0 : (f0Only r && h.fn.val != 0) = false := by simp [(stagedRow_stages s.m g).2]
  rw [(stagedRow_spec e g).exec e reach]
  refine ⟨fun no tx => ?_, fun no own => ?_⟩
  · simp only [Mod.writeReg, f0, no, tx, if_true, if_false, Bool.false_eq_true]
    rfl
  · simp only [Mod.writeReg, f0, no, own, if_true, if_false, Bool.false_eq_true]

/-! ## The port's own structures -/

theorem mem_onOff {l : List Nat} {fn n : Nat} {on : Bool} : n ∈ onOff l fn on ↔ if n = fn then on = true else n ∈ l := by
  unfold onOff
  cases on <;> by_cases h : n = fn <;> simp [mem_addOnce, h]

/-- The entries of the other vectors stay. -/
theorem Mod.setVec_spec (s : Mod) (k : Nat) (v : Vec) :
    (s.setVec k v).pci.vecs.getD k .zero = v ∧ ∀ j, j ≠ k → (s.setVec k v).pci.vecs.get j = s.pci.vecs.get j := by
  unfold Mod.setVec
  dsimp only
  split
  · next h => exact ⟨by simp [h], fun j hj => lookupKey_removeKey_ne hj⟩
  · exact ⟨by simp, fun j hj => Tbl.get_set_ne _ _ hj⟩

theorem portStructuresAnswerTheHost : PortStructuresAnswerTheHost := by
  intro h off len v s up
  refine ⟨fun r cfg => ?_, fun bar4 bad => ?_, fun bar4 mem word table => ?_⟩
  · have read : exec (.registerRead h off len) s = .next { s with m := s.m.emit (.completion h.fn (s.m.cfgRead s.fuse h.fn r) 4) } := by
      simp [exec, execRegisterRead, cfg, State.when, up]
    have write : exec (.registerWrite h off len v) s = .next { s with m := s.m.cfgWrite h.fn r v } := by
      simp [exec, execRegisterWrite, cfg, State.when, up]
    refine ⟨read, ?_, ?_, ?_, ?_, fun fixed => ?_, ?_⟩
    · rintro rfl; rfl
    · rintro rfl; rfl
    · rintro rfl; rfl
    · rintro rfl; rfl
    · rw [write]
      simp only [List.mem_cons, List.not_mem_nil, or_false] at fixed
      rcases fixed with rfl | rfl | rfl | rfl | rfl | rfl | rfl <;> rfl
    · rintro rfl
      exact ⟨_, write, rfl, fun n => mem_onOff⟩
  · have no : (!has s.m.pci.memEn h.fn || !bar4Ok off.toNat len) = true := by
      rcases bad with bad | bad | ⟨four, eight⟩
      · simp [Bool.eq_false_iff.2 fun c => bad (has_iff.1 c)]
      · simp [bar4Ok, Nat.not_le.2 bad]
      · simp [bar4Ok, four, eight]
    exact ⟨by simp [exec, execRegisterRead, bar4, State.when, up, Mod.bar4Read, no], by simp [exec, execRegisterWrite, bar4, State.when, up, Mod.bar4Write, no]⟩
  · have data : off.toNat / 4 % 4 = 2 := by omega
    have ok : (!has s.m.pci.memEn h.fn || !bar4Ok off.toNat 4) = false := by
      have form : off.toNat % 4 = 0 := by omega
      have fits : off.toNat + 4 ≤ 0x8100 := by omega
      simp [has_iff.2 mem, bar4Ok, form, fits]
    let k := h.fn.val * 2048 + off.toNat / 16
    have write : exec (.registerWrite h off 4 v) s = .next { s with m := s.m.setVec k { s.m.pci.vecs.getD k .zero with data := v.setWidth 32 } } := by
      simp [exec, execRegisterWrite, bar4, State.when, up, Mod.bar4Write, ok, Mod.setBar4, table, data, k]
    obtain ⟨same, others⟩ := s.m.setVec_spec k { s.m.pci.vecs.getD k .zero with data := v.setWidth 32 }
    exact ⟨_, write, rfl, congrArg Vec.data same, others⟩

/-- Settles O16: a read and a write of a register, a write that is dropped, and the port's own structures. -/
theorem registerAccessesOfTheHost : Obligations.RegisterAccessesOfTheHost :=
  ⟨registerReadReturnsTheRegister, registerWriteWaitsForTheSluice, foreignRegisterWritesAreDropped, portStructuresAnswerTheHost⟩

end Sys2Proof.Machine
end

section
/-! SUPPORT. Granted packets: their plans run, and what that leaves as it was (R33, R45, R286, R290, R292, R508). -/

namespace Sys2Proof.Machine

/-! ## Plans -/

/-- What a plan stages depends on its context by the step alone. -/
theorem Plan.staged_congr (p : Plan) {c d : Ctx} (f m : Nat) (hs : c.step = d.step) (hp : c.pol = d.pol) : p.staged c f m = p.staged d f m := by
  simp only [Plan.staged, Plan.one, hs, hp]

/-- An open number of frames lies within its bound. -/
theorem spanOf_bounds (bound : Nat) (key : List Nat) : 1 ≤ spanOf bound key ∧ spanOf bound key ≤ max 1 bound := by
  unfold spanOf
  split
  · omega
  · have := Nat.mod_lt (Config.span (bound :: key)) (by omega : 0 < bound)
    omega

theorem Plan.span_runsFor (p : Plan) (key : List Nat) : RunsFor p (p.span key) := by
  obtain ⟨lo, hi⟩ := spanOf_bounds (p.bound + 1 - p.least) key
  refine ⟨?_, ?_, fun least => ?_⟩
  all_goals
    unfold Plan.span
    omega

/-! ## A command becomes another -/

/-- The commands once x has become y. -/
def Mod.become (s : Mod) (x y : Cmd) : Mod := { s with cq := { s.cq with cmds := s.cq.cmds.map fun z => if z.same x then y else z } }

/-- A command of the same queue and number is put back in its place. -/
theorem Mod.setCmd_eq_become (s : Mod) {x y : Cmd} (m : y.mgmt = x.mgmt) (q : y.qn = x.qn) (n : y.seq = x.seq) : s.setCmd y = s.become x y := by
  have e (z : Cmd) : z.same y = z.same x := by simp only [Cmd.same, m, q, n]
  simp only [Mod.setCmd, Mod.become, e]

theorem Mod.finish_eq (s : Mod) (x : Cmd) (st d : Nat) : s.finish x st d = s.become x (endedNow s x st d) := by
  have first : (if x.first = 0 then 0 else x.first) = x.first := by
    split
    · exact Eq.symm ‹_›
    · rfl
  unfold Mod.finish endedNow
  rw [first]
  exact s.setCmd_eq_become rfl rfl rfl

/-- What a plan stages in the frame in which it starts. -/
def Plan.stagedNow (p : Plan) (c : Ctx) (f m : Nat) : List Staged := ((p.staged c f m).filter fun e => decide (e.1 ≤ f)).map (·.2)

theorem Mod.landIn_eq {s : Mod} {x : Cmd} (p : Plan) (m : Nat) (h : s.closedTo x = false) :
    s.landIn x p m = (s.become x (ranFor s x p m)).stageAll (p.stagedNow (s.ctxOf x) s.fc.num m) := by
  simp only [Mod.landIn, h, Bool.false_eq_true, if_false]
  exact congrArg (fun u : Mod => u.stageAll (p.stagedNow (s.ctxOf x) s.fc.num m)) (s.setCmd_eq_become rfl rfl rfl)

/-- The counter of open numbers does not enter what a command becomes. -/
theorem ranFor_bump (s : Mod) (x : Cmd) (p : Plan) (m : Nat) : ranFor s.bump x p m = ranFor s x p m := by
  have e : p.staged (s.bump.ctxOf x) s.bump.fc.num m = p.staged (s.ctxOf x) s.fc.num m := p.staged_congr _ _ rfl rfl
  simp only [ranFor, e]
  rfl

theorem Plan.stagedNow_bump (p : Plan) (s : Mod) (x : Cmd) (f m : Nat) : p.stagedNow (s.bump.ctxOf x) f m = p.stagedNow (s.ctxOf x) f m := by
  unfold Plan.stagedNow
  rw [p.staged_congr f m (c := s.bump.ctxOf x) (d := s.ctxOf x) rfl rfl]

/-! ## What work in a frame leaves as it was -/

/-- Two states of the module that agree but in what the work of a frame changes: the commands, what is staged, weirs, steps, the open numbers, and the engines that stop. -/
def Sends (s t : Mod) : Prop :=
  t = { s with cq := t.cq, stg := t.stg, wr := t.wr, ue := t.ue, io := { s.io with free := t.io.free }, fc := { s.fc with stuck := t.fc.stuck }, rel := { s.rel with stalled := t.rel.stalled } }

theorem Sends.untouched {s t : Mod} (h : Sends s t) : UntouchedBySending s t := by
  unfold Sends at h
  rw [h]
  exact ⟨rfl, rfl, rfl, rfl, rfl, rfl, rfl, rfl, rfl, rfl, rfl, rfl, rfl, rfl, rfl, rfl⟩

theorem Sends.moved {s t : Mod} {x y : Cmd} (h : Sends s t) (c : t.cq = (s.become x y).cq) : OneCommandMoved s t x y := ⟨h.untouched, c⟩

/-! ## A packet's plan runs, or its failed check ends it -/

/-- A granted packet whose checks pass runs its plan. -/
theorem Mod.runPlan_ok {s : Mod} {x : Cmd} (p : Plan) (h : s.closedTo x = false) :
    ∃ m, RunsFor p m ∧ s.bump.runPlan x (.ok p) = (s.bump.become x (ranFor s x p m)).stageAll (p.stagedNow (s.ctxOf x) s.fc.num m) := by
  refine ⟨p.span (s.placeOf x.step x.pol ++ x.words.map (·.toNat)), p.span_runsFor _, ?_⟩
  have closed : s.bump.closedTo x = false := h
  have e : s.bump.runPlan x (.ok p) = s.bump.landIn x p (p.span (s.placeOf x.step x.pol ++ x.words.map (·.toNat))) := by
    simp only [Mod.runPlan, closed, Bool.false_eq_true, if_false]
    rfl
  rw [e, Mod.landIn_eq p _ closed, ranFor_bump, Plan.stagedNow_bump]
  rfl

/-- What a packet's plan that runs leaves behind. -/
theorem Mod.runPlan_ok_moved {s : State} {x : Cmd} {m : Mod} (p : Plan) (h : s.m.closedTo x = false) (e : m = s.m.bump.runPlan x (.ok p)) :
    ∃ n, RunsFor p n ∧ OnlyModule s { s with m := m } ∧ OneCommandMoved s.m m x (ranFor s.m x p n)
      ∧ m.stg = s.m.stg ++ ((p.staged (s.m.ctxOf x) s.m.fc.num n).filter fun e => decide (e.1 ≤ s.m.fc.num)).map (·.2) ∧ m.wr = s.m.wr ∧ m.ue = s.m.ue := by
  obtain ⟨n, runs, r⟩ := Mod.runPlan_ok p h
  rw [e, r]
  exact ⟨n, runs, rfl, Sends.moved rfl rfl, rfl, rfl, rfl⟩

/-- What the end of a command without its work leaves behind. -/
theorem Mod.ended_moved {s : State} {x : Cmd} {m : Mod} {st d k : Nat}
    (e : m = ({ s.m with io := { s.m.io with free := k } } : Mod).become x (endedNow s.m x st d)) :
    OnlyModule s { s with m := m } ∧ OneCommandMoved s.m m x (endedNow s.m x st d) ∧ m.stg = s.m.stg ∧ m.wr = s.m.wr ∧ m.ue = s.m.ue := by
  rw [e]
  exact ⟨rfl, Sends.moved rfl rfl, rfl, rfl, rfl⟩

theorem Mod.runPlan_closed {s : Mod} {x : Cmd} (p : Chk Plan) (h : s.closedTo x = true) : s.bump.runPlan x p = s.bump.become x (endedNow s x 0x05 0xFF) := by
  have closed : s.bump.closedTo x = true := h
  simp only [Mod.runPlan, closed, if_true]
  exact s.bump.finish_eq x _ _

theorem Mod.runPlan_fails {s : Mod} {x : Cmd} {st d : Nat} (h : s.closedTo x = false) : s.bump.runPlan x (.error (st, d)) = s.bump.become x (endedNow s x st d) := by
  have closed : s.bump.closedTo x = false := h
  simp only [Mod.runPlan, closed, Bool.false_eq_true, if_false]
  exact s.bump.finish_eq x _ _

theorem Mod.runCmd_run {s : Mod} {c : CmdId} {x : Cmd} {plan : Mod → Ctx → List Word → Chk Plan} (h : s.cmd c = some x) (go : stalls (plan s (s.ctxOf x) x.params) = none) :
    s.runCmd c plan = s.bump.runPlan x (plan s (s.ctxOf x) x.params) := by
  rcases Mod.runCmd_cases plan h with ⟨d, hd, -⟩ | ⟨-, e⟩
  · exact absurd (hd.symm.trans go) (by simp)
  · exact e

/-! ## The rows of packets -/

theorem granted_of {s : Mod} {c : CmdId} {op : Nat} {ops : List Nat} {x : Cmd} (h : Granted s c op ops x) : s.granted c op = true := by
  obtain ⟨frame, cmd, phase, opcode, -⟩ := h
  exact Mod.granted_iff.2 ⟨frame, x, cmd, phase, opcode⟩

theorem inTurn_of {s : Mod} {c : CmdId} {op : Nat} {ops : List Nat} {x : Cmd} (h : Granted s c op ops x) : s.inTurn c ops = true := by
  obtain ⟨-, cmd, -, -, turn⟩ := h
  simp only [Mod.inTurn, cmd]
  rw [Bool.not_eq_true']
  refine List.any_eq_false.2 fun y hy => ?_
  simp only [Bool.and_eq_true, decide_eq_true_eq, beq_iff_eq, not_and, and_imp]
  exact fun phase op => Nat.not_lt.2 (turn y hy phase (has_iff.1 op))

/-- A row of a granted packet whose data fits runs its command. -/
theorem packetRow_exec {i : Instr} {c : CmdId} {op : Nat} {ops : List Nat} {plan : Mod → Ctx → List Word → Chk Plan} {s : State} {x : Cmd} (e : packetRow s.fuse i = some (c, op, ops, plan))
    (g : Granted s.m c op ops x) (fits : DataFits s.m i x) : exec i s = .next { s with m := s.m.runCmd c plan } := by
  have granted := granted_of g
  have turn := inTurn_of g
  obtain ⟨-, cmd, -⟩ := g
  unfold packetRow at e
  split at e
  case h_26 => cases e
  all_goals
    obtain ⟨rfl, rfl, rfl, rfl⟩ := e
    refine State.when_true _ ?_
  case h_3 | h_6 | h_9 => exact Bool.and_eq_true_iff.2 ⟨granted, turn⟩
  case h_11 data bad =>
    obtain ⟨len, small⟩ := fits
    simp only [granted, cmd, Bool.true_and]
    split
    · simpa [len] using small
    · rfl
  case h_12 | h_15 => exact Bool.and_eq_true_iff.2 ⟨granted, Bool.or_eq_true_iff.2 (.inl fits)⟩
  case h_22 | h_23 | h_24 | h_25 => exact Bool.and_eq_true_iff.2 ⟨granted, by simp only [cmd]; exact beq_iff_eq.2 fits⟩
  all_goals exact granted

/-- Settles O18: the row runs its command, whose plan runs, or which ends with its step's status. -/
theorem packetCommandsRunTheirPlans : Obligations.PacketCommandsRunTheirPlans := by
  unfold Obligations.PacketCommandsRunTheirPlans
  intro i c op ops plan s x p e g fits ok
  have cmd : s.m.cmd c = some x := g.2.1
  have run : exec i s = .next { s with m := s.m.bump.runPlan x (.ok p) } := by
    rw [packetRow_exec e g fits, Mod.runCmd_run cmd (by rw [ok]; rfl), ok]
  refine ⟨fun open_ => ?_, fun closed => ?_⟩
  · obtain ⟨n, h⟩ := Mod.runPlan_ok_moved p open_ rfl
    exact ⟨_, n, run, h⟩
  · exact ⟨_, run, Mod.ended_moved (Mod.runPlan_closed (.ok p) closed)⟩

/-! ## A row that is not its packet's -/

/-- A granted CONFIGURE of TRACE_CTRL (OP 0) whose buffer lies in no object. -/
def strayConfigure : Cmd :=
  { mgmt := false, qn := 0, seq := 5, fn := 0, pol := 0, ord := 0, accepted := 1, words := 0xF001 :: List.replicate 23 0, slots := 1, waits := [], relAt := 1, phase := .granted, first := 0
    fin := 0, status := 0, detail := 0, result := 0, sr := false, inexact := false, replayed := false, sigs := [], caps := [], land := [], told := false, note := 0 }

/-- The state after reset with that packet alone in flight. -/
def strayState : State := { State.reset with m := { State.reset.m with cq := { State.reset.m.cq with cmds := [strayConfigure] } } }

theorem exec_start (c : CmdId) (s : State) : exec (.start c) s = s.when (s.m.traceReady c 1) (s.m.runTrace c) := rfl

/-- Refutes O19: a CONFIGURE of TRACE_CTRL that fails its checks is granted with the opcode and the plan of the START row, which is not its row and is refused as not enabled. -/
theorem not_failedChecksEndTheCommandWithoutWork : ¬ Obligations.FailedChecksEndTheCommandWithoutWork := by
  unfold Obligations.FailedChecksEndTheCommandWithoutWork
  intro h
  have granted : Granted strayState.m ⟨0, 5⟩ 0xF001 [] strayConfigure := by
    unfold Granted
    decide +kernel
  obtain ⟨t, run, -⟩ := h (.start ⟨0, 5⟩) ⟨0, 5⟩ 0xF001 [] (planTraceCtrl (9 * 65536 + 0)) strayState strayConfigure 0x04 18 rfl granted (by decide +kernel) (by decide +kernel) (by decide)
  have other : strayState.m.traceReady ⟨0, 5⟩ 1 = false := by decide +kernel
  rw [exec_start] at run
  exact absurd ((State.when_next.1 run).1.symm.trans other) (by decide)

end Sys2Proof.Machine
end

section
/-! SUPPORT. Engine work of packets and of frame programs (R286, R290, R294, R320, R392, R418). -/

namespace Sys2Proof.Machine

/-- A row of work that may run now runs it. -/
theorem workRow_exec {i : Instr} {w : Work} {op : Nat} {ops : List Nat} {mine : List Word → Bool} {blk : Mod → Nat → List Word → Chk Unit} {plan : Mod → Ctx → List Word → Chk Plan}
    {eng : List Word → Option Engine} {s : State} (e : workRow s.m i = some (w, op, ops, mine, blk, plan, eng)) (ready : s.m.workReady w op = true) (turn : s.m.workTurn w ops = true)
    (own : mine (s.m.workParams w) = true) : exec i s = .next { s with m := s.m.runWork op w blk plan eng } := by
  unfold workRow at e
  split at e
  case h_23 => cases e
  all_goals
    obtain ⟨rfl, rfl, rfl, rfl, rfl, rfl, rfl⟩ := e
    refine State.when_true _ ?_
  case h_4 | h_5 | h_6 | h_7 | h_8 | h_9 | h_13 | h_14 | h_15 | h_16 | h_17 | h_18 => exact Bool.and_eq_true_iff.2 ⟨ready, own⟩
  case h_19 => exact Bool.and_eq_true_iff.2 ⟨ready, turn⟩
  all_goals exact ready

/-- An engine that serves is no sequencer of a tile marked failed. -/
theorem onFailed_of_serves {s : Mod} {e : Option Engine} (h : EngineServes s e) : s.onFailed e = false := by
  unfold Mod.onFailed
  split
  · next d t => exact h d t rfl
  · rfl

/-! ## Packets -/

theorem Mod.runWork_packet {s : Mod} {op : Nat} {c : CmdId} {x : Cmd} {blk : Mod → Nat → List Word → Chk Unit} {plan : Mod → Ctx → List Word → Chk Plan} {eng : List Word → Option Engine}
    (cmd : s.cmd c = some x) (serves : EngineServes s (eng x.params)) (go : stalls (plan s (s.ctxOf x) x.params) = none) :
    s.runWork op (.packet c) blk plan eng = s.bump.runPlan x (plan s (s.ctxOf x) x.params) := by
  simp only [Mod.runWork, cmd, onFailed_of_serves serves, go, Bool.false_eq_true, if_false]

theorem enginesRunThePacketsWork : EnginesRunThePacketsWork := by
  intro i c op ops mine blk plan eng s x e g own
  have cmd : s.m.cmd c = some x := g.2.1
  have params : s.m.workParams (.packet c) = x.params := by simp only [Mod.workParams, cmd]
  have run : exec i s = .next { s with m := s.m.runWork op (.packet c) blk plan eng } := workRow_exec e (granted_of g) (inTurn_of g) (params.symm ▸ own)
  refine ⟨fun p serves ok open_ => ?_, fun st d serves bad small open_ => ?_, fun d t tile marked => ?_⟩
  · obtain ⟨n, h⟩ := Mod.runPlan_ok_moved p open_ rfl
    refine ⟨_, n, ?_, h⟩
    rw [run, Mod.runWork_packet cmd serves (by rw [ok]; rfl), ok]
  · have go : stalls (plan s.m (s.m.ctxOf x) x.params) = none := by
      rw [bad]
      exact if_neg (Nat.not_le.2 small)
    refine ⟨_, ?_, Mod.ended_moved (Mod.runPlan_fails open_)⟩
    rw [run, Mod.runWork_packet cmd serves go, bad]
  · have failed : s.m.runWork op (.packet c) blk plan eng = s.m.become x (endedNow s.m x 0xF9 0xFF) := by
      simp only [Mod.runWork, cmd, tile, Mod.onFailed, marked, if_true]
      exact s.m.finish_eq x _ _
    exact ⟨_, run.trans (by rw [failed]), Mod.ended_moved (k := s.m.io.free) rfl⟩

/-! ## Frame programs -/

/-- What a program is once work of it runs. -/
def Prog.atWork (q : Prog) (eng : Option Engine) (job : Job) (after : List (Nat × Staged)) : Prog :=
  { q with used := q.used ++ (eng.toList.filter fun e => !q.used.any (· == e)), jobs := q.jobs ++ [job], land := q.land ++ after }

/-- The engine of a program's work is one that it uses. -/
theorem Prog.mem_used_atWork {q : Prog} {eng : Option Engine} {job : Job} {after : List (Nat × Staged)} {e : Engine} (h : eng = some e) : e ∈ (q.atWork eng job after).used := by
  by_cases c : e ∈ q.used
  · simp [Prog.atWork, c]
  · have : ∀ x ∈ q.used, x ≠ e := fun x hx same => c (same ▸ hx)
    simpa [Prog.atWork, h, c] using this

/-- A running program is found where it is after a change of it alone. -/
theorem find_runner_map {l : List Prog} {r : Runner} {q : Prog} (f : Prog → Prog) (hf : ∀ p, (f p).runner = p.runner) (h : l.find? (fun p => p.runner == r) = some q) :
    (l.map f).find? (fun p => p.runner == r) = some (f q) := by
  rw [List.find?_map]
  have : (fun p : Prog => p.runner == r) ∘ f = fun p => p.runner == r := funext fun p => by simp [hf]
  rw [this, h]
  rfl

theorem Mod.prog_runner {s : Mod} {r : Runner} {q : Prog} (h : s.prog r = some q) : q.runner = r := by
  simpa using List.find?_some h

/-- The command of a program is told of its work, and nothing else changes. -/
theorem Mod.tellCmd_spec (s : Mod) (r : Runner) (last : Nat) (p : Plan) :
    ToldOfWork s (s.tellCmd r last p.sr p.inexact) r last p ∧ s.tellCmd r last p.sr p.inexact = { s with cq := (s.tellCmd r last p.sr p.inexact).cq } := by
  cases r with
  | step _ _ => exact ⟨rfl, rfl⟩
  | cmd i =>
    cases h : s.cmd i with
    | none =>
      have e : s.tellCmd (.cmd i) last p.sr p.inexact = s := by simp only [Mod.tellCmd, h]
      rw [e]
      exact ⟨⟨fun _ => rfl, fun x hx => absurd (h.symm.trans hx) (by simp)⟩, rfl⟩
    | some x =>
      have e : s.tellCmd (.cmd i) last p.sr p.inexact = s.become x { x with fin := max x.fin last, sr := x.sr || p.sr, inexact := x.inexact || p.inexact } := by
        simp only [Mod.tellCmd, h]
        exact s.setCmd_eq_become rfl rfl rfl
      rw [e]
      refine ⟨⟨fun none => absurd (h.symm.trans none) (by simp), fun y hy => ?_⟩, rfl⟩
      obtain rfl : x = y := Option.some.inj (h.symm.trans hy)
      rfl

/-- The program of a runner, at work. -/
def Mod.putToWork (s : Mod) (q : Prog) (eng : Option Engine) (job : Job) (after : List (Nat × Staged)) : Mod :=
  { s with ue := { s.ue with running := s.ue.running.map fun z => if z.runner ≠ q.runner then z else z.atWork eng job after } }

/-- What work of a frame program does when its plan runs for m frames. -/
def Mod.progRan (s : Mod) (q : Prog) (op : Nat) (eng : Option Engine) (ps : List Word) (p : Plan) (m : Nat) : Mod :=
  let l := p.staged (s.progCtx q) s.fc.num m
  let t := s.tellCmd q.runner (s.fc.num + (m - 1)) p.sr p.inexact
  (t.putToWork q eng ⟨op, ps, p.note, s.fc.num, s.fc.num + (m - 1)⟩ (l.filter fun e => decide (s.fc.num < e.1))).stageAll ((l.filter fun e => decide (e.1 ≤ t.fc.num)).map (·.2))

theorem Mod.progRan_eq (s : Mod) (q : Prog) (op : Nat) (eng : Option Engine) (ps : List Word) (p : Plan) (m : Nat) :
    s.progRan q op eng ps p m
      = (({ s with cq := (s.tellCmd q.runner (s.fc.num + (m - 1)) p.sr p.inexact).cq } : Mod).putToWork q eng ⟨op, ps, p.note, s.fc.num, s.fc.num + (m - 1)⟩
          ((p.staged (s.progCtx q) s.fc.num m).filter fun e => decide (s.fc.num < e.1))).stageAll
        (((p.staged (s.progCtx q) s.fc.num m).filter fun e => decide (e.1 ≤ s.fc.num)).map (·.2)) := by
  unfold Mod.progRan
  dsimp only
  rw [(s.tellCmd_spec q.runner (s.fc.num + (m - 1)) p).2]

/-- Work of a frame program on a die of its own runs its plan. -/
theorem Mod.runProg_ok (s : Mod) {q : Prog} (op : Nat) {eng : Option Engine} (ps : List Word) (p : Plan) (inside : ∀ e d, eng = some e → Engine.die? e = some d → d ∈ q.dies) :
    ∃ m, RunsFor p m ∧ s.runProg q op eng ps (.ok p) = s.progRan q op eng ps p m := by
  refine ⟨p.span (s.placeOf q.step q.pol ++ ps.map (·.toNat)), p.span_runsFor _, ?_⟩
  unfold Mod.runProg
  cases h : eng.bind Engine.die? with
  | none => rfl
  | some d =>
    obtain ⟨e, he, hd⟩ := Option.bind_eq_some_iff.1 h
    dsimp only
    rw [has_iff.2 (inside e d he hd)]
    rfl

/-- An engine of a program stops, with the dies whose accesses it is owed. -/
def Mod.stopEngine (s : Mod) (q : Prog) (e : Engine) (owe : List Nat) : Mod :=
  { s with fc := { s.fc with stuck := s.fc.stuck ++ [e] }
           ue := { s.ue with running := s.ue.running.map fun z => if z.runner = q.runner then { z with used := z.used ++ [e] } else z }
           rel := { s.rel with stalled := s.rel.stalled ++ owe.map fun d => (unitOf e, d) } }

/-- Work of a frame program whose check fails stops its engine, and counts a refusal of the dike (R320, R418). -/
theorem Mod.runProg_error (s : Mod) (q : Prog) (op : Nat) (e : Engine) (ps : List Word) (st d : Nat) :
    ∃ owe, s.runProg q op (some e) ps (.error (st, d)) = (if st = 0x50 then refusal s q.pol else s).stopEngine q e owe := by
  refine ⟨(stalls (.error (st, d))).toList, ?_⟩
  by_cases h : st = 0x50
  · subst h
    rfl
  · rw [if_neg h]
    simp only [Mod.runProg, refusedBy, beq_eq_false_iff_ne.2 h, Bool.false_eq_true, if_false]
    cases stalls (.error (st, d)) <;> rfl

/-- What work of a frame program whose check fails leaves. -/
theorem Mod.runProg_fails (s : Mod) (q : Prog) (op : Nat) (e : Engine) (ps : List Word) (st d : Nat) :
    let t := s.runProg q op (some e) ps (.error (st, d))
    Sends s t ∧ t.cq = s.cq ∧ t.ue.later = s.ue.later ∧ t.stg = (if st = 0x50 then refusal s q.pol else s).stg ∧ t.fc.stuck = s.fc.stuck ++ [e] := by
  intro t
  obtain ⟨owe, h⟩ := s.runProg_error q op e ps st d
  unfold t
  rw [h]
  split <;> exact ⟨rfl, rfl, rfl, rfl, rfl⟩

theorem Sends.of_bump {s t : Mod} (h : Sends s.bump t) : Sends s t := by
  unfold Sends at *
  rw [h]
  rfl

theorem Mod.runWork_program {s : Mod} {op : Nat} {r : Runner} {q : Prog} {ps : List Word} {blk : Mod → Nat → List Word → Chk Unit} {plan : Mod → Ctx → List Word → Chk Plan}
    {eng : List Word → Option Engine} (prog : s.prog r = some q) (serves : EngineServes s (eng ps)) :
    s.runWork op (.program r ps) blk plan eng = s.bump.runProg q op (eng ps) ps (do blk s q.pol ps; plan s (s.progCtx q) ps) := by
  simp only [Mod.runWork, prog, onFailed_of_serves serves, Bool.false_eq_true, if_false]

theorem enginesRunTheProgramsWork : EnginesRunTheProgramsWork := by
  intro i r ps op ops mine blk plan eng s q e issues own serves
  obtain ⟨frame, prog, first, last, halted⟩ := issues
  have ready : s.m.workReady (.program r ps) op = true := by simp [Mod.workReady, frame, prog, first, last, halted]
  have run : exec i s = .next { s with m := s.m.bump.runProg q op (eng ps) ps (do blk s.m q.pol ps; plan s.m (s.m.progCtx q) ps) } := by
    rw [workRow_exec e ready rfl own, Mod.runWork_program prog serves]
  have runner : q.runner = r := Mod.prog_runner prog
  refine ⟨fun p inside blkOk ok => ?_, fun x st d hx bad => ?_⟩
  · have passes : (do blk s.m q.pol ps; plan s.m (s.m.progCtx q) ps) = .ok p := by
      rw [blkOk, ok]
      rfl
    rw [passes] at run
    obtain ⟨m, runs, result⟩ := Mod.runProg_ok s.m.bump op ps p inside
    obtain ⟨told, tell⟩ := s.m.bump.tellCmd_spec q.runner (s.m.fc.num + (m - 1)) p
    have staged : p.staged (s.m.bump.progCtx q) s.m.fc.num m = p.staged (s.m.progCtx q) s.m.fc.num m := p.staged_congr _ _ rfl rfl
    have ran := s.m.bump.progRan_eq q op (eng ps) ps p m
    change _ = ((_ : Mod).putToWork q (eng ps) _ ((p.staged (s.m.bump.progCtx q) s.m.fc.num m).filter _)).stageAll (((p.staged (s.m.bump.progCtx q) s.m.fc.num m).filter _).map _) at ran
    rw [staged] at ran
    refine ⟨_, m, run, runs, rfl, ?_⟩
    dsimp only
    rw [result, ran]
    refine ⟨Sends.untouched rfl, rfl, rfl, runner ▸ told, rfl, rfl, q.atWork (eng ps) ⟨op, ps, p.note, s.m.fc.num, s.m.fc.num + (m - 1)⟩
      ((p.staged (s.m.progCtx q) s.m.fc.num m).filter fun e => decide (s.m.fc.num < e.1)), ?_, rfl, rfl, rfl, fun e he => ?_⟩
    · refine (find_runner_map _ (fun z => ?_) prog).trans ?_
      · split <;> rfl
      · rw [if_neg (not_not.2 rfl)]
        rfl
    · exact Prog.mem_used_atWork he
  · have fails : (do blk s.m q.pol ps; plan s.m (s.m.progCtx q) ps) = .error (st, d) := by
      rcases bad with bad | ⟨blkOk, bad⟩
      · rw [bad]
        rfl
      · rw [blkOk, bad]
        rfl
    rw [fails, hx] at run
    obtain ⟨sends, cq, later, stg, stuck⟩ := Mod.runProg_fails s.m.bump q op x ps st d
    refine ⟨_, run, rfl, sends.of_bump.untouched, cq, later, stg.trans ?_, stuck⟩
    split <;> rfl

/-- Settles O20: the row runs its work, a packet's as its command's plan, a program's with the program. -/
theorem enginesRunTheirWork : Obligations.EnginesRunTheirWork := ⟨enginesRunThePacketsWork, enginesRunTheProgramsWork⟩

end Sys2Proof.Machine
end

section
/-! SUPPORT. SIGNAL and WEIR_CLEAR, whose work is their list alone (R55, R58, R318). -/

namespace Sys2Proof.Machine

/-- A command without effects of its own executes for one frame. -/
theorem Mod.landIn_idle {s : Mod} {x : Cmd} (h : s.closedTo x = false) : s.landIn x (.ok 0 none [] 1) 1 = s.become x (ranFor s x (.ok 0 none [] 1) 1) := by
  rw [Mod.landIn_eq _ _ h]
  exact congrArg (fun l => { s.become x (ranFor s x (.ok 0 none [] 1) 1) with stg := l }) (List.append_nil s.stg)

/-- The signal of a word, field by field. -/
theorem signalOf_eq (w : Word) (seq : Nat) (eng : Option Engine) (src : Nat) :
    ({ weir := bits w.toNat 29 16, add := bits w.toNat 15 0, seq := seq, eng := eng, src := src } : Sig) = signalOf w seq eng src := by
  simp [signalOf, bits]

/-- A packet's SIGNAL stages its list with its command. -/
theorem signal_packet {c : CmdId} {s : State} {x : Cmd} (g : Granted s.m c 0x0002 [] x) (open_ : s.m.closedTo x = false) :
    ∃ t y, exec (.signal (.packet c)) s = .next t ∧ OnlyModule s t ∧ OneCommandMoved s.m t.m x y ∧ t.m.stg = s.m.stg ∧ t.m.wr = s.m.wr ∧ y.sigs = x.params.map (signalOf · x.seq none x.src)
      ∧ y.phase = .running ∧ y.fin = s.m.fc.num ∧ y.status = 0x00 := by
  let z : Cmd := { x with sigs := x.params.map (signalOf · x.seq none x.src) }
  have cmd : s.m.cmd c = some x := g.2.1
  have run : exec (.signal (.packet c)) s = .next { s with m := s.m.runSignal (.packet c) } := State.when_true _ (granted_of g)
  have e : s.m.runSignal (.packet c) = s.m.become z (ranFor s.m z (.ok 0 none [] 1) 1) := by
    have idle : s.m.closedTo z = false := open_
    rw [← Mod.landIn_idle idle]
    simp only [Mod.runSignal, cmd, open_, Bool.false_eq_true, if_false, signalOf_eq, z]
  rw [e] at run
  exact ⟨_, _, run, rfl, Sends.moved rfl rfl, rfl, rfl, rfl, rfl, rfl, rfl⟩

/-- A frame program's SIGNAL stages its list in the frame, or stops its sequencer. -/
theorem signal_program {r : Runner} {ps : List Word} {s : State} {q : Prog} (issues : Issues s.m r q) :
    (blkSignal s.m q.pol ps = .ok () → ∃ t, exec (.signal (.program r ps)) s = .next t ∧ OnlyModule s t ∧ UntouchedBySending s.m t.m ∧ t.m.cq = s.m.cq ∧ t.m.stg = s.m.stg
      ∧ t.m.wr = { s.m.wr with sigs := s.m.wr.sigs ++ ps.map (signalOf · 0 q.fsq (q.dies.headD 0 * 2 ^ 22 + 65536)) })
    ∧ (∀ st d, blkSignal s.m q.pol ps = .error (st, d) → ∃ t, exec (.signal (.program r ps)) s = .next t ∧ OnlyModule s t ∧ UntouchedBySending s.m t.m ∧ t.m.wr = s.m.wr ∧ t.m.cq = s.m.cq
      ∧ t.m.stg = (if st = 0x50 then refusal s.m q.pol else s.m).stg
      ∧ t.m.fc.stuck = s.m.fc.stuck ++ q.fsq.toList) := by
  obtain ⟨frame, prog, first, last, halted⟩ := issues
  have ready : s.m.workReady (.program r ps) 0x0002 = true := by simp [Mod.workReady, frame, prog, first, last, halted]
  have run : exec (.signal (.program r ps)) s = .next { s with m := s.m.runSignal (.program r ps) } := State.when_true _ ready
  refine ⟨fun ok => ?_, fun st d bad => ?_⟩
  · have e : s.m.runSignal (.program r ps) = { s.m with wr := { s.m.wr with sigs := s.m.wr.sigs ++ ps.map (signalOf · 0 q.fsq (q.dies.headD 0 * 2 ^ 22 + 65536)) } } := by
      simp only [Mod.runSignal, prog, ok, signalOf_eq]
    rw [e] at run
    exact ⟨_, run, rfl, Sends.untouched rfl, rfl, rfl, rfl⟩
  · have e : s.m.runSignal (.program r ps) = { (if st = 0x50 then refusal s.m q.pol else s.m) with
        fc := { (if st = 0x50 then refusal s.m q.pol else s.m).fc with stuck := (if st = 0x50 then refusal s.m q.pol else s.m).fc.stuck ++ q.fsq.toList } } := by
      simp only [Mod.runSignal, prog, bad]
      rfl
    rw [e] at run
    refine ⟨_, run, rfl, ?_⟩
    split <;> exact ⟨Sends.untouched rfl, rfl, rfl, rfl, rfl⟩

/-- WEIR_CLEAR stages the clear of its list. -/
theorem weirClear_packet {c : CmdId} {s : State} {x : Cmd} (g : Granted s.m c 0x0003 [] x) (open_ : s.m.closedTo x = false) :
    ∃ t y, exec (.weirClear c) s = .next t ∧ OnlyModule s t ∧ OneCommandMoved s.m t.m x y ∧ t.m.stg = s.m.stg ∧ y.phase = .running ∧ y.fin = s.m.fc.num ∧ y.status = 0x00
      ∧ t.m.wr = { s.m.wr with clears := s.m.wr.clears ++ x.params.map fun w => w.toNat % 16384 } := by
  have cmd : s.m.cmd c = some x := g.2.1
  have run : exec (.weirClear c) s = .next { s with m := s.m.runWeirClear c } := State.when_true _ (granted_of g)
  have e : s.m.runWeirClear c = { s.m.become x (ranFor s.m x (.ok 0 none [] 1) 1) with wr := { s.m.wr with clears := s.m.wr.clears ++ x.params.map fun w => w.toNat % 16384 } } := by
    simp only [Mod.runWeirClear, cmd, open_, Bool.false_eq_true, if_false, Mod.landIn_idle open_]
    rfl
  rw [e] at run
  exact ⟨_, _, run, rfl, Sends.moved rfl rfl, rfl, rfl, rfl, rfl, rfl⟩

/-- Settles O21: the lists of a packet's and of a program's SIGNAL, and of WEIR_CLEAR. -/
theorem signalAndWeirClearStageTheirLists : Obligations.SignalAndWeirClearStageTheirLists := by
  unfold Obligations.SignalAndWeirClearStageTheirLists
  exact ⟨fun _ _ _ g open_ => signal_packet g open_, fun _ _ _ _ issues => signal_program issues, fun _ _ _ g open_ => weirClear_packet g open_⟩

end Sys2Proof.Machine
end

section
/-! SUPPORT. The step loop's commands and CKPT_TAKE: commands that wait for their end (R337, R338). -/

namespace Sys2Proof.Machine

theorem Mod.beginRun_eq (s : Mod) (x : Cmd) (ws : List WaitOn) : s.beginRun x ws = s.become x (waitingFor s x ws) := s.setCmd_eq_become rfl rfl rfl

theorem Mod.failAt_eq (s : Mod) (x : Cmd) {st : Nat} (d : Nat) (h : st < 256) : s.failAt x st d = s.become x (endedNow s x st d) := by
  rw [Mod.failAt, if_neg (Nat.not_le.2 h), Mod.finish_eq]

/-- What is left where a command alone has moved. -/
theorem Mod.become_moved (s : State) (x y : Cmd) :
    OnlyModule s { s with m := s.m.become x y } ∧ OneCommandMoved s.m (s.m.become x y) x y ∧ (s.m.become x y).ue = s.m.ue ∧ (s.m.become x y).stg = s.m.stg ∧ (s.m.become x y).wr = s.m.wr :=
  ⟨rfl, Sends.moved rfl rfl, rfl, rfl, rfl⟩

/-! ## STEP_RUN, LOOP_START and REPLAY_DIAG -/

/-- STEP_RUN and LOOP_START of a polder without a loaded step program end with PARAM_INVALID. -/
theorem stepLoop_unloaded {s : Mod} {c : CmdId} {x : Cmd} (cmd : s.cmd c = some x) (open_ : s.closedTo x = false) (none : s.ue.progs.get x.pol = none) :
    s.runStepRun c = s.become x (endedNow s x 0x04 0xFF) ∧ s.runLoopStart c = s.become x (endedNow s x 0x04 0xFF) := by
  simp only [Mod.runStepRun, Mod.runLoopStart, cmd, open_, none, Option.isNone_none, Bool.false_eq_true, if_true, if_false, Mod.finish_eq]
  exact ⟨rfl, rfl⟩

theorem stepLoopCommandsBegin : StepLoopCommandsBegin := by
  intro c s x open_
  refine ⟨fun g loaded => ?_, fun g loaded => ?_, fun i op row g none => ?_, fun g => ⟨fun ok => ?_, fun st d bad small => ?_⟩⟩
  · have cmd : s.m.cmd c = some x := g.2.1
    have run : exec (.stepRun c) s = .next { s with m := s.m.runStepRun c } := State.when_true _ (granted_of g)
    have e : s.m.runStepRun c = s.m.become x (waitingFor s.m x [⟨pw x.params 0, 0⟩]) := by
      simp only [Mod.runStepRun, cmd, open_, Option.isNone_iff_eq_none, loaded, Bool.false_eq_true, if_false, Mod.beginRun_eq]
    exact ⟨_, run.trans (by rw [e]), Mod.become_moved s x _⟩
  · have cmd : s.m.cmd c = some x := g.2.1
    have run : exec (.loopStart c) s = .next { s with m := s.m.runLoopStart c } := State.when_true _ (granted_of g)
    have e : s.m.runLoopStart c = { s.m.become x (waitingFor s.m x []) with ue := { s.m.ue with loops := s.m.ue.loops.set x.pol (newLoop x) } } := by
      simp only [Mod.runLoopStart, cmd, open_, Option.isNone_iff_eq_none, loaded, Bool.false_eq_true, if_false, Mod.beginRun_eq]
      rfl
    rw [e] at run
    exact ⟨_, run, rfl, Sends.moved rfl rfl, rfl, rfl, rfl⟩
  · have cmd : s.m.cmd c = some x := g.2.1
    obtain ⟨stepRun, loopStart⟩ := stepLoop_unloaded cmd open_ none
    simp only [List.mem_cons, Prod.mk.injEq, List.not_mem_nil, or_false] at row
    rcases row with ⟨rfl, rfl⟩ | ⟨rfl, rfl⟩
    · have run : exec (.stepRun c) s = .next { s with m := s.m.runStepRun c } := State.when_true _ (granted_of g)
      exact ⟨_, run.trans (by rw [stepRun]), Mod.become_moved s x _⟩
    · have run : exec (.loopStart c) s = .next { s with m := s.m.runLoopStart c } := State.when_true _ (granted_of g)
      exact ⟨_, run.trans (by rw [loopStart]), Mod.become_moved s x _⟩
  · have cmd : s.m.cmd c = some x := g.2.1
    have run : exec (.replayDiag c) s = .next { s with m := s.m.runReplayDiag c } := State.when_true _ (granted_of g)
    have e : s.m.runReplayDiag c = s.m.become x (waitingFor s.m x []) := by
      simp only [Mod.runReplayDiag, cmd, open_, ok, Bool.false_eq_true, if_false, Mod.beginRun_eq]
    exact ⟨_, run.trans (by rw [e]), Mod.become_moved s x _⟩
  · have cmd : s.m.cmd c = some x := g.2.1
    have run : exec (.replayDiag c) s = .next { s with m := s.m.runReplayDiag c } := State.when_true _ (granted_of g)
    have e : s.m.runReplayDiag c = s.m.become x (endedNow s.m x st d) := by
      simp only [Mod.runReplayDiag, cmd, open_, bad, Bool.false_eq_true, if_false, Mod.failAt_eq _ _ _ small]
    exact ⟨_, run.trans (by rw [e]), Mod.become_moved s x _⟩

/-! ## A loop's end -/

/-- A command has completed at sluice f with OK. -/
def Cmd.doneAt (f : Nat) (y : Cmd) : Prop := y.phase = .decided ∧ y.fin = f ∧ y.status = 0x00

/-- A command's outcome moves it alone. -/
theorem Mod.conclude_rest (s : Mod) (q k f st r : Nat) : s.conclude q k f st r = { s with cq := { s.cq with cmds := (s.conclude q k f st r).cq.cmds } } := by
  unfold Mod.conclude
  split <;> rfl

/-- A command after another's outcome: one that was there, or the one that is concluded. -/
theorem Mod.mem_conclude {s : Mod} {q k f r : Nat} {y : Cmd} (h : y ∈ (s.conclude q k f 0x00 r).cq.cmds) :
    y ∈ s.cq.cmds ∨ (y.qn = q ∧ y.seq = k ∧ y.doneAt f ∧ y.result = BitVec.ofNat 64 r) := by
  unfold Mod.conclude at h
  split at h
  · exact .inl h
  · next c found =>
    obtain ⟨z, hz, rfl⟩ := List.mem_map.1 h
    have isIt := List.find?_some found
    simp only [Bool.and_eq_true, beq_iff_eq] at isIt
    obtain ⟨⟨⟨-, qn⟩, seq⟩, -⟩ := isIt
    split
    · exact .inr ⟨qn, seq, ⟨rfl, rfl, rfl⟩, rfl⟩
    · exact .inl hz

/-- A command that has been concluded had its outcome before, or has it now. -/
theorem Mod.conclude_own {s : Mod} {q k f r : Nat} {y : Cmd} (h : y ∈ (s.conclude q k f 0x00 r).cq.cmds) (cmd : y.mgmt = false) (qn : y.qn = q) (seq : y.seq = k) :
    (y ∈ s.cq.cmds ∧ y.phase = .decided) ∨ (y.doneAt f ∧ y.result = BitVec.ofNat 64 r) := by
  unfold Mod.conclude at h
  split at h
  · next none =>
    have := List.find?_eq_none.1 none y h
    simp only [cmd, qn, seq, Bool.not_false, beq_self_eq_true, Bool.true_and, bne_iff_ne, ne_eq, not_not] at this
    exact .inl ⟨h, this⟩
  · next c found =>
    obtain ⟨z, hz, rfl⟩ := List.mem_map.1 h
    have isIt := List.find?_some found
    simp only [Bool.and_eq_true, beq_iff_eq, Bool.not_eq_true'] at isIt
    obtain ⟨⟨⟨mgmt, qnc⟩, seqc⟩, -⟩ := isIt
    split
    · exact .inr ⟨⟨rfl, rfl, rfl⟩, rfl⟩
    · next other =>
      rw [if_neg other] at cmd qn seq
      exact absurd (by simp [Cmd.same, cmd, qn, seq, mgmt, qnc, seqc]) other

/-- The commands of a list, concluded in order. -/
def Mod.concludeAll (s : Mod) (f : Nat) (l : List (Nat × Nat)) : Mod := l.foldl (fun s x => s.conclude x.1 x.2 f 0x00 0) s

theorem Mod.concludeAll_rest (f : Nat) (l : List (Nat × Nat)) (s : Mod) : s.concludeAll f l = { s with cq := { s.cq with cmds := (s.concludeAll f l).cq.cmds } } := by
  induction l generalizing s with
  | nil => rfl
  | cons x l ih =>
    have e : s.concludeAll f (x :: l) = (s.conclude x.1 x.2 f 0x00 0).concludeAll f l := rfl
    rw [e, ih, Mod.conclude_rest]

/-- A command of none of the list's numbers stays as it was. -/
theorem Mod.mem_concludeAll_of_notMem {f : Nat} {l : List (Nat × Nat)} {s : Mod} {y : Cmd} (h : y ∈ (s.concludeAll f l).cq.cmds) (out : (y.qn, y.seq) ∉ l) : y ∈ s.cq.cmds := by
  induction l generalizing s with
  | nil => exact h
  | cons x l ih =>
    rw [List.mem_cons, not_or] at out
    rcases Mod.mem_conclude (ih (s := s.conclude x.1 x.2 f 0x00 0) h out.2) with old | ⟨qn, seq, -⟩
    · exact old
    · exact absurd (Prod.ext qn seq) out.1

/-- Of commands without outcome but those that are done, the ones in a list are done after the list. -/
theorem Mod.concludeAll_done {f : Nat} {l : List (Nat × Nat)} {s : Mod} (pre : ∀ y ∈ s.cq.cmds, y.mgmt = false → (y.qn, y.seq) ∈ l → y.phase = .decided → y.doneAt f) :
    ∀ y ∈ (s.concludeAll f l).cq.cmds, y.mgmt = false → (y.qn, y.seq) ∈ l → y.doneAt f := by
  induction l generalizing s with
  | nil => exact fun y _ _ h => absurd h List.not_mem_nil
  | cons x l ih =>
    intro y hy cmd mine
    have next : ∀ z ∈ (s.conclude x.1 x.2 f 0x00 0).cq.cmds, z.mgmt = false → (z.qn, z.seq) ∈ l → z.phase = .decided → z.doneAt f := fun z hz c m p =>
      (Mod.mem_conclude hz).elim (fun old => pre z old c (.tail _ m) p) fun ⟨_, _, done, _⟩ => done
    by_cases later : (y.qn, y.seq) ∈ l
    · exact ih next y hy cmd later
    · have first : (y.qn, y.seq) = x := (List.mem_cons.1 mine).resolve_right later
      have there := Mod.mem_concludeAll_of_notMem (s := s.conclude x.1 x.2 f 0x00 0) hy later
      rcases Mod.conclude_own there cmd (congrArg Prod.fst first) (congrArg Prod.snd first) with ⟨old, p⟩ | ⟨done, -⟩
      · exact pre y old cmd mine p
      · exact done

/-- A loop whose commands have no outcome yet ends: they are done, and LOOP_START's shows the steps committed. -/
theorem Mod.endLoop_spec {s : Mod} {p f : Nat} {l : Loop} (fresh : ∀ y ∈ s.cq.cmds, y.mgmt = false → (y.qn, y.seq) ∈ (l.q, l.seq) :: l.stop → y.phase ≠ .decided) :
    s.endLoop p f 0x00 l = { s with ue := { s.ue with loops := s.ue.loops.del p }, cq := { s.cq with cmds := (s.endLoop p f 0x00 l).cq.cmds } }
    ∧ (∀ y ∈ (s.endLoop p f 0x00 l).cq.cmds, y.mgmt = false → (y.qn, y.seq) ∈ (l.q, l.seq) :: l.stop → y.doneAt f)
    ∧ ∀ y ∈ (s.endLoop p f 0x00 l).cq.cmds, y.mgmt = false → y.qn = l.q → y.seq = l.seq → (l.q, l.seq) ∉ l.stop → y.result = BitVec.ofNat 64 l.committed := by
  let u : Mod := { s with ue := { s.ue with loops := s.ue.loops.del p } }
  let v : Mod := u.conclude l.q l.seq f 0x00 l.committed
  have e : s.endLoop p f 0x00 l = v.concludeAll f l.stop := rfl
  have own {y : Cmd} (hy : y ∈ v.cq.cmds) (cmd : y.mgmt = false) (qn : y.qn = l.q) (seq : y.seq = l.seq) : y.doneAt f ∧ y.result = BitVec.ofNat 64 l.committed :=
    (Mod.conclude_own hy cmd qn seq).resolve_left fun ⟨old, p⟩ => fresh y old cmd (by simp [qn, seq]) p
  have after : ∀ y ∈ v.cq.cmds, y.mgmt = false → (y.qn, y.seq) ∈ l.stop → y.phase = .decided → y.doneAt f := fun y hy cmd mine p =>
    (Mod.mem_conclude hy).elim (fun old => absurd p (fresh y old cmd (.tail _ mine))) fun ⟨_, _, done, _⟩ => done
  rw [e]
  refine ⟨?_, fun y hy cmd mine => ?_, fun y hy cmd qn seq out => ?_⟩
  · rw [Mod.concludeAll_rest, show v = _ from u.conclude_rest ..]
  · by_cases stop : (y.qn, y.seq) ∈ l.stop
    · exact Mod.concludeAll_done after y hy cmd stop
    · have first : (y.qn, y.seq) = (l.q, l.seq) := (List.mem_cons.1 mine).resolve_right stop
      exact (own (Mod.mem_concludeAll_of_notMem hy stop) cmd (congrArg Prod.fst first) (congrArg Prod.snd first)).1
  · exact (own (Mod.mem_concludeAll_of_notMem hy (by rwa [qn, seq])) cmd qn seq).2

theorem loopStopEndsTheLoop : LoopStopEndsTheLoop := by
  intro c s x g open_
  have cmd : s.m.cmd c = some x := g.2.1
  have run : exec (.loopStop c) s = .next { s with m := s.m.runLoopStop c } := State.when_true _ (granted_of g)
  refine ⟨fun none => ?_, fun l loop => ⟨fun busy => ?_, fun idle waits fresh => ?_⟩⟩
  · have e : s.m.runLoopStop c = s.m.become x (ranFor s.m x (.empty []) 1) := by
      simp only [Mod.runLoopStop, cmd, open_, none, Bool.false_eq_true, if_false, Mod.landIn_eq _ _ open_]
      exact congrArg (fun l => { s.m.become x (ranFor s.m x (.empty []) 1) with stg := l }) (List.append_nil s.m.stg)
    rw [e] at run
    exact ⟨_, _, run, rfl, Sends.moved rfl rfl, rfl, rfl, rfl, rfl, rfl⟩
  · have goes : ((s.m.ue.steps.get x.pol).isNone && !l.released) = false := by
      rcases busy with step | released
      · simp [step]
      · simp [released]
    have e : s.m.runLoopStop c = { s.m.become x (waitingFor s.m x []) with ue := { s.m.ue with loops := s.m.ue.loops.set x.pol (stoppedBy l x) } } := by
      simp only [Mod.runLoopStop, cmd, open_, loop, Bool.false_eq_true, if_false, Mod.beginRun_eq]
      exact if_neg (by rw [Bool.not_eq_true]; exact goes)
    rw [e] at run
    exact ⟨_, run, rfl, Sends.moved rfl rfl, rfl, rfl, rfl⟩
  · let u := s.m.become x (waitingFor s.m x [])
    have e : s.m.runLoopStop c = u.endLoop x.pol s.m.fc.num 0x00 (stoppedBy l x) := by
      simp only [Mod.runLoopStop, cmd, open_, loop, Bool.false_eq_true, if_false, Mod.beginRun_eq]
      exact if_pos (by change ((s.m.ue.steps.get x.pol).isNone && !l.released) = true; simp [idle, waits])
    have still : ∀ y ∈ u.cq.cmds, y.mgmt = false → (y.qn, y.seq) ∈ (l.q, l.seq) :: (stoppedBy l x).stop → y.phase ≠ .decided := by
      intro y hy mgmt mine
      obtain ⟨z, hz, rfl⟩ := List.mem_map.1 hy
      by_cases same : z.same x = true
      · rw [if_pos same]
        exact nofun
      · rw [if_neg same] at mgmt mine ⊢
        have other : (z.qn, z.seq) ≠ (x.qn, x.seq) := fun h => same (by
          obtain ⟨qn, seq⟩ := Prod.mk.inj h
          obtain ⟨-, xm, -⟩ := Mod.cmd_spec cmd
          simp [Cmd.same, mgmt, xm, qn, seq])
        refine fresh z hz mgmt ?_
        simpa [stoppedBy, other] using mine
    obtain ⟨rest, done, result⟩ := Mod.endLoop_spec (p := x.pol) (f := s.m.fc.num) (l := stoppedBy l x) still
    rw [e] at run
    refine ⟨_, run, rfl, ?_⟩
    dsimp only
    refine ⟨?_, ?_, ?_, ?_, ?_, done, result⟩
    all_goals rw [rest]
    · exact Sends.untouched rfl
    · exact Tbl.get_del_same _ _
    all_goals rfl

/-- Settles O23: what begins a step or a loop, and what ends it. -/
theorem stepLoopsBeginAndEnd : Obligations.StepLoopsBeginAndEnd := ⟨stepLoopCommandsBegin, loopStopEndsTheLoop⟩

/-! ## CKPT_TAKE -/

theorem ensure_true {b : Bool} (h : b = true) (st d : Nat) : ensure b st d = .ok () := if_pos h

theorem ensure_false {b : Bool} (h : b = false) (st d : Nat) : ensure b st d = .error (st, d) := if_neg (by rw [h]; exact nofun)

/-- The checks of CKPT_TAKE, in order. -/
def Mod.ckptChk (s : Mod) (x : Cmd) : Chk Unit := do
  ensure (s.ckptObjOk x.pol (pw x.params 0) ((takeRanges x.params).map (·.2)).sum) 0x56 16
  ensure ((takeRanges x.params).all fun r => s.mapped x.pol r.1 r.2) 0x16 18

/-- CKPT_TAKE as its checks decide. -/
theorem Mod.runCkptTake_of {s : Mod} {c : CmdId} {x : Cmd} (cmd : s.cmd c = some x) (open_ : s.closedTo x = false) :
    s.runCkptTake c = match s.ckptChk x with
      | .error (st, d) => s.finish x st d
      | .ok () => { s.setCmd (waitingFor s x x.waits) with ue := { s.ue with takes := s.ue.takes ++ [(x.qn, x.seq)] } } := by
  unfold Mod.runCkptTake
  rw [cmd]
  simp only [open_, Bool.false_eq_true, if_false]
  rfl

theorem Mod.runCkptTake_ok {s : Mod} {c : CmdId} {x : Cmd} (cmd : s.cmd c = some x) (open_ : s.closedTo x = false) (chk : s.ckptChk x = .ok ()) :
    s.runCkptTake c = { s.become x (waitingFor s x x.waits) with ue := { s.ue with takes := s.ue.takes ++ [(x.qn, x.seq)] } } := by
  have begins : s.setCmd (waitingFor s x x.waits) = s.become x (waitingFor s x x.waits) := s.setCmd_eq_become rfl rfl rfl
  rw [Mod.runCkptTake_of cmd open_, chk, begins]

theorem Mod.runCkptTake_error {s : Mod} {c : CmdId} {x : Cmd} {st d : Nat} (cmd : s.cmd c = some x) (open_ : s.closedTo x = false) (chk : s.ckptChk x = .error (st, d)) :
    s.runCkptTake c = s.become x (endedNow s x st d) := by
  rw [Mod.runCkptTake_of cmd open_, chk]
  exact s.finish_eq x st d

/-- Settles O24: the checks of CKPT_TAKE in order, and the wait for its sluice. -/
theorem ckptTakeWaitsForItsSluice : Obligations.CkptTakeWaitsForItsSluice := by
  intro c s x g open_ rs ok
  have cmd : s.m.cmd c = some x := g.2.1
  have run : exec (.ckptTake c) s = .next { s with m := s.m.runCkptTake c } := State.when_true _ (granted_of g)
  refine ⟨fun serves mapped => ?_, fun serves ⟨r, hr, out⟩ => ?_, fun fails => ?_⟩
  · have chk : s.m.ckptChk x = .ok () := by
      rw [Mod.ckptChk, ensure_true serves, ensure_true (List.all_eq_true.2 mapped)]
      rfl
    rw [Mod.runCkptTake_ok cmd open_ chk] at run
    exact ⟨_, run, rfl, rfl, rfl, Sends.moved rfl rfl, rfl⟩
  · have chk : s.m.ckptChk x = .error (0x16, 18) := by
      rw [Mod.ckptChk, ensure_true serves, ensure_false (List.all_eq_false.2 ⟨r, hr, by simp [out]⟩)]
      rfl
    rw [Mod.runCkptTake_error cmd open_ chk] at run
    exact ⟨_, run, rfl, Sends.moved rfl rfl, rfl, rfl⟩
  · have chk : s.m.ckptChk x = .error (0x56, 16) := by
      rw [Mod.ckptChk, ensure_false fails]
      rfl
    rw [Mod.runCkptTake_error cmd open_ chk] at run
    exact ⟨_, run, rfl, Sends.moved rfl rfl, rfl, rfl⟩

end Sys2Proof.Machine
end

section
/-! SUPPORT. Fields of registers: what a field reads as after it, or another, is written or raised (R14, R15). -/

namespace Sys2Proof.Machine

/-! ## Fields of a word -/

/-- A field of a word. -/
def Fld.of (f : Fld) (w : Word) : Nat := bits w.toNat f.hi f.lo

/-- A word with a field set. -/
def Fld.into (f : Fld) (w : Word) (v : Nat) : Word := (w &&& ~~~f.mask) ||| (BitVec.ofNat 32 (v * 2 ^ f.lo) &&& f.mask)

/-- A field that lies in a word, from its lowest bit to its highest. -/
def Fld.fits (f : Fld) : Bool := decide (f.lo ≤ f.hi) && decide (f.hi < 32)

/-- Two fields of a word that share no bit. -/
def Fld.apart (f g : Fld) : Bool := f.fits && g.fits && (decide (f.hi < g.lo) || decide (g.hi < f.lo))

/-- The bits of a field's mask are those of the field. -/
theorem Fld.mask_getLsbD {f : Fld} (h : f.fits = true) (j : Nat) : f.mask.getLsbD j = (decide (f.lo ≤ j) && decide (j ≤ f.hi)) := by
  simp only [Fld.fits, Bool.and_eq_true, decide_eq_true_eq] at h
  obtain ⟨order, inside⟩ := h
  rw [Fld.mask, BitVec.getLsbD_ofNat, Nat.testBit_mul_two_pow, Nat.testBit_two_pow_sub_one, Bool.eq_iff_iff]
  simp only [Bool.and_eq_true, decide_eq_true_eq]
  omega

theorem Fld.of_testBit (f : Fld) (w : Word) (i : Nat) : (f.of w).testBit i = (decide (i < f.hi - f.lo + 1) && w.getLsbD (f.lo + i)) := by
  rw [Fld.of, bits, Nat.testBit_mod_two_pow, Nat.testBit_div_two_pow, BitVec.testBit_toNat, Nat.add_comm i]

theorem Fld.into_getLsbD (f : Fld) (w : Word) (v : Nat) {j : Nat} (h : j < 32) :
    (f.into w v).getLsbD j = ((w.getLsbD j && !f.mask.getLsbD j) || ((decide (f.lo ≤ j) && v.testBit (j - f.lo)) && f.mask.getLsbD j)) := by
  rw [Fld.into, BitVec.getLsbD_or, BitVec.getLsbD_and, BitVec.getLsbD_and, BitVec.getLsbD_not, BitVec.getLsbD_ofNat, Nat.testBit_mul_two_pow]
  simp only [h, decide_true, Bool.true_and]

/-- A field that is set reads as the value, as far as it fits. -/
theorem Fld.of_into_same {f : Fld} (w : Word) (v : Nat) (h : f.fits = true) : f.of (f.into w v) = v % 2 ^ (f.hi - f.lo + 1) := by
  refine Nat.eq_of_testBit_eq fun i => ?_
  rw [Fld.of_testBit, Nat.testBit_mod_two_pow]
  by_cases hi : i < f.hi - f.lo + 1
  · have bounds : f.lo ≤ f.hi ∧ f.hi < 32 := by simpa [Fld.fits] using h
    have own : f.mask.getLsbD (f.lo + i) = true := by
      rw [Fld.mask_getLsbD h]
      simp only [Bool.and_eq_true, decide_eq_true_eq]
      omega
    rw [Fld.into_getLsbD f w v (by omega), own]
    simp
  · simp only [hi, decide_false, Bool.false_and]

/-- A bit of one of two fields without a common bit is none of the other's mask. -/
theorem Fld.mask_of_apart {f g : Fld} (h : f.apart g = true) {i : Nat} (hi : i < g.hi - g.lo + 1) : f.mask.getLsbD (g.lo + i) = false ∧ g.lo + i < 32 := by
  simp only [Fld.apart, Bool.and_eq_true, Bool.or_eq_true, decide_eq_true_eq] at h
  obtain ⟨⟨hf, hg⟩, away⟩ := h
  simp only [Fld.fits, Bool.and_eq_true, decide_eq_true_eq] at hg
  rw [Fld.mask_getLsbD hf, Bool.and_eq_false_iff, decide_eq_false_iff_not, decide_eq_false_iff_not]
  omega

/-- A field keeps what it held where another is set. -/
theorem Fld.of_into_apart {f g : Fld} (w : Word) (v : Nat) (h : f.apart g = true) : g.of (f.into w v) = g.of w := by
  refine Nat.eq_of_testBit_eq fun i => ?_
  rw [Fld.of_testBit, Fld.of_testBit]
  by_cases hi : i < g.hi - g.lo + 1
  · obtain ⟨out, low⟩ := Fld.mask_of_apart h hi
    rw [Fld.into_getLsbD f w v low, out]
    simp
  · simp only [hi, decide_false, Bool.false_and]

/-- A raised field has every bit set. -/
theorem Fld.of_or_mask_same {f : Fld} (w : Word) (h : f.fits = true) : f.of (w ||| f.mask) = 2 ^ (f.hi - f.lo + 1) - 1 := by
  have order : f.lo ≤ f.hi := by
    simp only [Fld.fits, Bool.and_eq_true, decide_eq_true_eq] at h
    exact h.1
  refine Nat.eq_of_testBit_eq fun i => ?_
  rw [Fld.of_testBit, Nat.testBit_two_pow_sub_one, BitVec.getLsbD_or, Fld.mask_getLsbD h, Bool.eq_iff_iff]
  simp only [Bool.and_eq_true, Bool.or_eq_true, decide_eq_true_eq]
  omega

/-- A field keeps what it held where another is raised. -/
theorem Fld.of_or_mask_apart {f g : Fld} (w : Word) (h : f.apart g = true) : g.of (w ||| f.mask) = g.of w := by
  refine Nat.eq_of_testBit_eq fun i => ?_
  rw [Fld.of_testBit, Fld.of_testBit]
  by_cases hi : i < g.hi - g.lo + 1
  · rw [BitVec.getLsbD_or, (Fld.mask_of_apart h hi).1, Bool.or_false]
  · simp only [hi, decide_false, Bool.false_and]

/-! ## Fields of the module's registers -/

theorem Mod.fld_eq (s : Mod) (f : Fld) (i : Nat) : s.fld f i = f.of (s.rd f.reg i) := rfl

/-- A field depends on its register alone. -/
theorem Mod.fld_congr {s t : Mod} {f : Fld} {i : Nat} (h : t.rd f.reg i = s.rd f.reg i) : t.fld f i = s.fld f i := by
  rw [Mod.fld_eq, h, Mod.fld_eq]

theorem Mod.bit_congr {s t : Mod} {f : Fld} {i : Nat} (h : t.rd f.reg i = s.rd f.reg i) : t.bit f i = s.bit f i := congrArg (· != 0) (Mod.fld_congr h)

theorem Mod.rd_setFld_same (s : Mod) (f : Fld) (i v : Nat) : (s.setFld f i v).rd f.reg i = f.into (s.rd f.reg i) v := s.rd_put_same f.reg i _

theorem Mod.rd_setFld_of_reg_ne (s : Mod) {f : Fld} {r : RegName} (i j v : Nat) (h : r ≠ f.reg) : (s.setFld f i v).rd r j = s.rd r j := s.rd_put_of_reg_ne i j _ h

theorem Mod.rd_setFld_of_idx_ne (s : Mod) {f : Fld} {r : RegName} {i j : Nat} (v : Nat) (h : j ≠ i) : (s.setFld f i v).rd r j = s.rd r j := s.rd_put_of_idx_ne f.reg r _ h

theorem Mod.rd_raiseNow_same (s : Mod) (f : Fld) (i : Nat) : (s.raiseNow f i).rd f.reg i = s.rd f.reg i ||| f.mask := s.rd_put_same f.reg i _

theorem Mod.rd_raiseNow_of_reg_ne (s : Mod) {f : Fld} {r : RegName} (i j : Nat) (h : r ≠ f.reg) : (s.raiseNow f i).rd r j = s.rd r j := s.rd_put_of_reg_ne i j _ h

theorem Mod.rd_raiseNow_of_idx_ne (s : Mod) {f : Fld} {r : RegName} {i j : Nat} (h : j ≠ i) : (s.raiseNow f i).rd r j = s.rd r j := s.rd_put_of_idx_ne f.reg r _ h

theorem Mod.fld_setFld_same (s : Mod) (f : Fld) (i v : Nat) (h : f.fits = true) : (s.setFld f i v).fld f i = v % 2 ^ (f.hi - f.lo + 1) := by
  rw [Mod.fld_eq, Mod.rd_setFld_same, Fld.of_into_same _ v h]

/-- Another field of the register keeps what it held. -/
theorem Mod.fld_setFld_apart (s : Mod) (f g : Fld) (i j v : Nat) (hr : g.reg = f.reg) (h : f.apart g = true) : (s.setFld f i v).fld g j = s.fld g j := by
  by_cases hij : j = i
  · rw [Mod.fld_eq, Mod.fld_eq, hij, hr, Mod.rd_setFld_same, Fld.of_into_apart _ v h]
  · exact Mod.fld_congr (s.rd_setFld_of_idx_ne v hij)

theorem Mod.bit_raiseNow_same (s : Mod) (f : Fld) (i : Nat) (h : f.fits = true) : (s.raiseNow f i).bit f i = true := by
  have pos : 1 < 2 ^ (f.hi - f.lo + 1) := Nat.one_lt_two_pow (Nat.succ_ne_zero _)
  have e : (s.raiseNow f i).fld f i = 2 ^ (f.hi - f.lo + 1) - 1 := by rw [Mod.fld_eq, Mod.rd_raiseNow_same, Fld.of_or_mask_same _ h]
  rw [Mod.bit, e, bne_iff_ne]
  omega

theorem Mod.fld_raiseNow_apart (s : Mod) (f g : Fld) (i j : Nat) (hr : g.reg = f.reg) (h : f.apart g = true) : (s.raiseNow f i).fld g j = s.fld g j := by
  by_cases hij : j = i
  · rw [Mod.fld_eq, Mod.fld_eq, hij, hr, Mod.rd_raiseNow_same, Fld.of_or_mask_apart _ h]
  · exact Mod.fld_congr (s.rd_raiseNow_of_idx_ne hij)

end Sys2Proof.Machine
end

section
/-! SUPPORT. Breakpoints that are hit (R447, R448, R450), and the management packets that an open window turns away (R306). -/

namespace Sys2Proof.Machine

/-! ## Breakpoints -/

/-- An event of the frame that runs waits for the frame's sluice. -/
theorem Mod.note_now (s : Mod) (p : Nat) (r : Rec) : s.note p s.fc.num r = { s with ob := { s.ob with traces := (s.note p s.fc.num r).ob.traces } } := by
  unfold Mod.note
  split
  · rfl
  · rw [if_neg (Nat.lt_irrefl _)]
    rfl

/-- A breakpoint that is hit, as one of a weir is, marks the hit; one of a PC takes an open number. -/
def Mod.brkMarked (s : Mod) (k : Nat) (b : Brk) : Mod :=
  { s with io := if b.weir then s.io else { s.io with free := s.io.free + 1 }, ob := { s.ob with hits := if b.weir then s.ob.hits ++ [k] else s.ob.hits } }

/-- A hit that meets a step's work counts a miss. -/
def Mod.brkMissed (s : Mod) (p : Nat) (r : Rec) : Mod := (s.setFld .OB_BRK_STATUS_MISSED p (min 65535 (s.fld .OB_BRK_STATUS_MISSED p + 1))).note p s.fc.num r

theorem Mod.brkMissed_eq (s : Mod) (p : Nat) (r : Rec) :
    ∃ traces, s.brkMissed p r = { s.setFld .OB_BRK_STATUS_MISSED p (min 65535 (s.fld .OB_BRK_STATUS_MISSED p + 1)) with ob := { s.ob with traces := traces } } :=
  ⟨_, Mod.note_now (s.setFld .OB_BRK_STATUS_MISSED p _) p r⟩

/-- The halt that a breakpoint makes. -/
def haltOf (k f : Nat) (b : Brk) (miss : Bool) : Halt := { key := k, at_ := if miss then f + 1 else if b.weir then f + 1 else f, others := f + 1, brk := b }

/-- A breakpoint that halts its cores. -/
def Mod.brkHalts (s : Mod) (h : Halt) : Mod := { s with ob := { s.ob with halted := s.ob.halted ++ [h] } }

/-- What a hit does: it counts a miss where it meets a step's work, and halts its cores but where it meets a step's work alone within one core. -/
theorem Mod.brkHit_eq {s : Mod} {p id : Nat} {b : Brk} (h : s.ob.brks.get (p * 8 + id) = some b) :
    ∃ r₁ r₂, s.brkHit p id =
      let t := s.brkMarked (p * 8 + id) b
      let miss := s.brkStep p b s.fc.num
      let u := if miss || (b.polder && (t.brkProgs p b s.fc.num).any (·.step)) then t.brkMissed p r₁ else t
      if miss && !b.polder then u else (if miss then u else u.note p s.fc.num r₂).brkHalts (haltOf (p * 8 + id) s.fc.num b miss) := by
  unfold Mod.brkHit
  rw [h]
  exact ⟨_, _, rfl⟩

/-- A module that differs in registers, and in its traces. -/
def Mod.retraced (s : Mod) (rf : Regs) (traces : Tbl Trace) : Mod := { s with rf := rf, ob := { s.ob with traces := traces } }

/-- Counting a miss, or not, leaves all but registers and traces. -/
theorem Mod.missed_retraced (s : Mod) (p : Nat) (r : Rec) (c : Bool) : ∃ rf traces, (if c = true then s.brkMissed p r else s) = s.retraced rf traces := by
  obtain ⟨traces, missed⟩ := s.brkMissed_eq p r
  split
  · exact ⟨_, _, missed⟩
  · exact ⟨_, _, rfl⟩

/-- A hit without a miss, or of a polder, halts. -/
theorem Mod.brkHit_halts {s : Mod} {p id : Nat} {b : Brk} (h : s.ob.brks.get (p * 8 + id) = some b) (halts : (s.brkStep p b s.fc.num && !b.polder) = false) :
    ∃ rf traces, s.brkHit p id = ((s.brkMarked (p * 8 + id) b).retraced rf traces).brkHalts (haltOf (p * 8 + id) s.fc.num b (s.brkStep p b s.fc.num)) := by
  obtain ⟨r₁, r₂, hit⟩ := Mod.brkHit_eq h
  obtain ⟨rf, traces, u⟩ := (s.brkMarked (p * 8 + id) b).missed_retraced p r₁ (s.brkStep p b s.fc.num || (b.polder && ((s.brkMarked (p * 8 + id) b).brkProgs p b s.fc.num).any (·.step)))
  rw [hit]
  dsimp only
  rw [halts, if_neg Bool.false_ne_true, u]
  split
  · exact ⟨rf, traces, rfl⟩
  · refine ⟨rf, _, congrArg (Mod.brkHalts · _) (Mod.note_now ((s.brkMarked (p * 8 + id) b).retraced rf traces) p r₂)⟩

/-- A hit of a core that meets a step's work alone counts its miss. -/
theorem Mod.brkHit_misses {s : Mod} {p id : Nat} {b : Brk} (h : s.ob.brks.get (p * 8 + id) = some b) (miss : s.brkStep p b s.fc.num = true) (core : b.polder = false) :
    ∃ r, s.brkHit p id = (s.brkMarked (p * 8 + id) b).brkMissed p r := by
  obtain ⟨r, _, hit⟩ := Mod.brkHit_eq h
  refine ⟨r, hit.trans ?_⟩
  dsimp only
  rw [miss, core]
  rfl

/-- Settles O26: a hit that meets a step's work alone within one core counts; another halts. -/
theorem breakpointsHaltOrCountTheirMiss : Obligations.BreakpointsHaltOrCountTheirMiss := by
  unfold Obligations.BreakpointsHaltOrCountTheirMiss
  intro p id s b k brk ready f
  have run : exec (.breakpointHit p id) s = .next { s with m := (s.m.brkHit p id).resume } := State.when_true _ ready
  refine ⟨_, run, ?_⟩
  cases misses : (s.m.brkStep p b f && !b.polder) with
  | false =>
    obtain ⟨rf, traces, hit⟩ := Mod.brkHit_halts brk misses
    rw [hit]
    refine ⟨rfl, rfl, rfl, rfl, rfl, rfl, fun miss => ⟨_, rfl, rfl, rfl, ?_⟩, fun miss core => ?_⟩
    · exact if_neg (by rw [miss]; exact Bool.false_ne_true)
    · rw [miss, core] at misses
      exact absurd misses (by decide)
  | true =>
    obtain ⟨miss, core⟩ : s.m.brkStep p b f = true ∧ b.polder = false := by simpa using misses
    obtain ⟨r, hit⟩ := Mod.brkHit_misses brk miss core
    obtain ⟨traces, missed⟩ := (s.m.brkMarked k b).brkMissed_eq p r
    rw [hit, missed]
    refine ⟨rfl, rfl, rfl, rfl, rfl, rfl, fun other => absurd (other.symm.trans miss) (by decide), fun _ _ => ⟨rfl, ?_⟩⟩
    refine ((s.m.brkMarked k b).fld_setFld_same .OB_BRK_STATUS_MISSED p _ (by decide)).trans (Nat.mod_eq_of_lt ?_)
    exact Nat.lt_of_le_of_lt (Nat.min_le_left _ _) (by decide)

/-! ## Management packets in an open window -/

/-- A management packet of F0, accepted, with its words. -/
def acceptedPacket (words : List Word) : Cmd :=
  { mgmt := true, qn := 0, seq := 0, fn := 0, pol := 0, ord := 0, accepted := 1, words := words, slots := 1, waits := [], relAt := 1, phase := .accepted, first := 0
    fin := 0, status := 0, detail := 0, result := 0, sr := false, inexact := false, replayed := false, sigs := [], caps := [], land := [], told := false, note := 0 }

/-- A module that runs with that packet alone, while the window of a sluice is open. -/
def windowState (words : List Word) : State :=
  let m := State.reset.m.setFld .MC_START_STATUS_DONE 0 1
  { State.reset with m := { m with
      cq := { m.cq with cmds := [acceptedPacket words] }
      rel := { m.rel with resets := [] }
      fc := { m.fc with window := some ⟨.commits, [], [], false, false, false, []⟩ } } }

/-- TELEMETRY with a LEN of 0. -/
def shortTelemetry : List Word := 0xE005 :: List.replicate 23 0

/-- SELFTEST of die 0 with OP 2. -/
def restartTest : List Word := 0xE006 :: 8 :: List.replicate 14 0 ++ [2, 0]

/-- Refutes O27: a packet that may execute by its own conditions is not executed while a sluice's window is open. -/
theorem not_managementPacketsRun : ¬ Obligations.ManagementPacketsRun := by
  unfold Obligations.ManagementPacketsRun
  rintro ⟨fails, -⟩
  have may : MayExecute (windowState shortTelemetry).m (.telemetry 0 0) (acceptedPacket shortTelemetry) := ⟨0, 0, 0xE005, none, rfl, by decide +kernel, by decide +kernel, by decide +kernel⟩
  have run : (windowState shortTelemetry).mgmt 0 0 0xE005 Mod.actTelemetry = .next _ := fails (.telemetry 0 0) (windowState shortTelemetry) (acceptedPacket shortTelemetry) 0x04 1 may (by decide +kernel)
  obtain ⟨-, closed, -⟩ := State.mgmt_next run
  exact absurd closed (by decide)

theorem exec_restart (f : Fin 8) (k : Fin 16) (s : State) :
    exec (.restart f k) s = s.when (s.m.selftestReady f k 2) (match s.m.mgmtCmd f k with
      | some c => s.m.mgmtRun c Mod.actRestart
      | none => s.m) := rfl

/-- Refutes O28: a self-test that may execute by its own conditions is not executed while a sluice's window is open. -/
theorem not_selfTestsRunAndMarkWhatFails : ¬ Obligations.SelfTestsRunAndMarkWhatFails := by
  unfold Obligations.SelfTestsRunAndMarkWhatFails
  intro tests
  have may : MayExecute (windowState restartTest).m (.restart 0 0) (acceptedPacket restartTest) := ⟨0, 0, 0xE006, some 2, rfl, by decide +kernel, by decide +kernel, by decide +kernel⟩
  have asks : AsksFor (.restart 0 0) (acceptedPacket restartTest) := by
    rintro f k op v row
    obtain ⟨-, -, -, rfl⟩ : f = 0 ∧ k = 0 ∧ op = 0xE006 ∧ v = 2 := by simpa [mgmtRow, eq_comm] using row
    decide
  obtain ⟨t, run, -⟩ := tests (.restart 0 0) (windowState restartTest) (acceptedPacket restartTest) may asks (by decide +kernel)
  rw [exec_restart] at run
  exact absurd (State.when_next.1 run).1 (by decide +kernel)

end Sys2Proof.Machine
end

section
/-! SUPPORT. What the weirs' signals and releases, the replies and messages of a sluice, and the ends of commands change (R45, R55 to R58, R290, R296 to R302). -/

namespace Sys2Proof.Machine

/-- The registers that signals, replies and alerts set, beside those of the trace. -/
def postRegs : List RegName := [.WEIR_COUNT, .WEIR_CTRL, .SP_DIKE_DENIED, .CQ_ALERT_CAUSE]

/-- Two states of the module that agree but in what signals, releases, replies and messages change: device memory and the observation of it, weirs, commands, loops, steps and running programs, messages due
or pending, what is sent, and the registers of those. -/
structure OnlyPosted (s t : Mod) : Prop where
  rest : t = { s with mem := t.mem, ob := t.ob, rf := t.rf, wr := t.wr, cq := t.cq, ue := t.ue, pci := { s.pci with due := t.pci.due, pend := t.pci.pend }, io := { s.io with out := t.io.out } }
  regs : ∀ r i, r ∉ traceRegs → r ∉ postRegs → t.rd r i = s.rd r i
  quiet : s.pci.msixEn = [] → t.pci.pend = s.pci.pend

theorem OnlyPosted.refl (s : Mod) : OnlyPosted s s := ⟨rfl, fun _ _ _ _ => rfl, fun _ => rfl⟩

theorem OnlyPosted.trans {s t u : Mod} (h : OnlyPosted s t) (k : OnlyPosted t u) : OnlyPosted s u where
  rest := by rw [k.rest, h.rest]
  regs r i hr hp := (k.regs r i hr hp).trans (h.regs r i hr hp)
  quiet off := (k.quiet (by rw [h.rest]; exact off)).trans (h.quiet off)

theorem OnlyPosted.foldl {α : Type} {s t : Mod} {g : Mod → α → Mod} (h : OnlyPosted s t) (hg : ∀ t a, OnlyPosted t (g t a)) (l : List α) : OnlyPosted s (l.foldl g t) :=
  foldl_keeps (P := OnlyPosted s) (fun t a ht => ht.trans (hg t a)) l h

theorem OnlyPosted.ite {s t u : Mod} {c : Prop} [Decidable c] (h : OnlyPosted s t) (k : OnlyPosted s u) : OnlyPosted s (if c then t else u) := by
  split
  · exact h
  · exact k

theorem OnlyPosted.fc {s t : Mod} (h : OnlyPosted s t) : t.fc = s.fc := by rw [h.rest]
theorem OnlyPosted.rel {s t : Mod} (h : OnlyPosted s t) : t.rel = s.rel := by rw [h.rest]
theorem OnlyPosted.sec {s t : Mod} (h : OnlyPosted s t) : t.sec = s.sec := by rw [h.rest]
theorem OnlyPosted.zl {s t : Mod} (h : OnlyPosted s t) : t.zl = s.zl := by rw [h.rest]
theorem OnlyPosted.stuck {s t : Mod} (h : OnlyPosted s t) : t.pci.stuck = s.pci.stuck := by rw [h.rest]

theorem OnlyObserved.posted {s t : Mod} (h : OnlyObserved s t) : OnlyPosted s t where
  rest := by rw [h.rest]
  regs r i hr _ := h.regs r i hr
  quiet _ := by rw [h.rest]

/-- Commands, loops and steps that change alone. -/
theorem Mod.cque_posted (s : Mod) (cq : Cqs) (ue : Update) : OnlyPosted s { s with cq := cq, ue := ue } := ⟨rfl, fun _ _ _ _ => rfl, fun _ => rfl⟩

theorem Mod.released_posted (s : Mod) (wr : Weirs) (cq : Cqs) (ue : Update) : OnlyPosted s { s with wr := wr, cq := cq, ue := ue } := ⟨rfl, fun _ _ _ _ => rfl, fun _ => rfl⟩

theorem Mod.wr_posted (s : Mod) (wr : Weirs) : OnlyPosted s { s with wr := wr } := ⟨rfl, fun _ _ _ _ => rfl, fun _ => rfl⟩

theorem Mod.put_posted (s : Mod) {q : RegName} (j : Nat) (v : Word) (h : q ∈ postRegs) : OnlyPosted s (s.put q j v) :=
  ⟨rfl, fun _ i _ hp => s.rd_put_of_reg_ne j i v fun e => hp (e ▸ h), fun _ => rfl⟩

/-! ## Messages -/

theorem Mod.emit_posted (s : Mod) (e : Out) : OnlyPosted s (s.emit e) := ⟨rfl, fun _ _ _ _ => rfl, fun _ => rfl⟩

theorem Mod.due_posted (s : Mod) (fn vec : Nat) : OnlyPosted s (s.due fn vec) := ⟨rfl, fun _ _ _ _ => rfl, fun _ => rfl⟩

theorem Mod.sendVec_posted (s : Mod) (k : Nat) : OnlyPosted s (s.sendVec k) := by
  unfold Mod.sendVec
  dsimp only
  split
  · exact .refl s
  · next enabled =>
    split
    · exact ⟨rfl, fun _ _ _ _ => rfl, fun off => absurd (by rw [off]; rfl) enabled⟩
    · exact s.emit_posted _

theorem Mod.sendDue_posted (s : Mod) : OnlyPosted s s.sendDue :=
  OnlyPosted.foldl (t := { s with pci := { s.pci with due := [] } }) ⟨rfl, fun _ _ _ _ => rfl, fun _ => rfl⟩ Mod.sendVec_posted _

/-- A port that has MSI-X enabled in no function sends no message, and has none due any more. -/
theorem Mod.sendDue_off {s : Mod} (off : s.pci.msixEn = []) : s.sendDue = { s with pci := { s.pci with due := [] } } := by
  refine foldl_keeps (P := fun t : Mod => t = { s with pci := { s.pci with due := [] } }) (fun t k ht => ?_) _ rfl
  refine Eq.trans (if_pos ?_) ht
  rw [ht]
  show (!has s.pci.msixEn _) = true
  rw [off]
  rfl

theorem Mod.alertNow_posted (s : Mod) {f : Fld} (p : Nat) (h : f.reg = .CQ_ALERT_CAUSE) : OnlyPosted s (s.alertNow f p) := by
  have raised : OnlyPosted s (s.raiseNow f p) := s.put_posted p _ (by rw [h]; decide)
  unfold Mod.alertNow
  dsimp only
  split
  · exact .refl s
  · split
    · exact raised.trans (Mod.due_posted _ _ _)
    · exact raised

/-! ## Signals and releases -/

theorem Mod.addSignal_posted (f : Nat) (s : Mod) (g : Sig) : OnlyPosted s (Mod.addSignal f s g) := by
  have noted : OnlyPosted s ((s.note (s.weirPol g.weir) f (.of 2 g.src g.weir g.add g.seq 0)).hubEvent f (s.weirPol g.weir) 3 1) :=
    ((s.note_observed _ _ _).trans (Mod.hubEvent_observed _ _ _ _ _)).posted
  unfold Mod.addSignal
  dsimp only
  split
  · exact noted
  · refine noted.trans ?_
    refine OnlyPosted.ite ?_ ?_
    · refine OnlyPosted.trans ?_ (Mod.put_posted _ _ _ (by decide))
      exact (OnlyPosted.ite (Mod.wr_posted _ _) (.refl _)).trans (Mod.put_posted _ _ _ (by decide))
    · exact (OnlyPosted.ite (Mod.wr_posted _ _) (.refl _)).trans (Mod.put_posted _ _ _ (by decide))

theorem Mod.releaseWeir_posted (f : Nat) (s : Mod) (n : Nat) : OnlyPosted s (Mod.releaseWeir f s n) := by
  unfold Mod.releaseWeir
  dsimp only
  split
  · exact .refl s
  · refine OnlyPosted.trans ?_ (Mod.released_posted _ _ _ _)
    refine OnlyPosted.foldl ?_ (fun t c => (t.noteWaits_observed _ _ _).posted) _
    refine OnlyPosted.trans ?_ ((Mod.note_observed _ _ _ _).trans (Mod.hubEvent_observed _ _ _ _ _)).posted
    exact OnlyPosted.ite (Mod.put_posted _ _ _ (by decide)) (.refl _)

/-! ## Replies -/

theorem Mod.mqReply_posted (s : Mod) (c : Cmd) (b : Bool) : OnlyPosted s (s.mqReply c b) := by
  unfold Mod.mqReply
  dsimp only
  split
  · exact OnlyPosted.trans (s.cque_posted _ _) (Mod.due_posted _ _ _)
  · exact s.cque_posted _ _

theorem Mod.setQueue_posted (s : Mod) (q : Nat) (v : Queue) : OnlyPosted s (s.setQueue q v) := s.cque_posted _ _

theorem Mod.cqReply_posted (s : Mod) (c : Cmd) (b : Bool) : OnlyPosted s (s.cqReply c b) := by
  unfold Mod.cqReply
  dsimp only
  have sent := fun (e : Out) (v : Queue) => (s.emit_posted e).trans (Mod.setQueue_posted _ c.qn v)
  exact OnlyPosted.ite ((sent _ _).trans (Mod.due_posted _ _ _)) (sent _ _)

theorem Mod.dropCmd_posted (s : Mod) (c : Cmd) : OnlyPosted s (s.dropCmd c) := s.cque_posted _ _

theorem Mod.postReply_posted (s : Mod) (c : Cmd) : OnlyPosted s (s.postReply c) := by
  unfold Mod.postReply
  dsimp only
  refine OnlyPosted.trans ?_ (Mod.dropCmd_posted _ _)
  refine OnlyPosted.trans ?_ ((Mod.hubEvent_observed _ _ _ _ _).trans (Mod.hubEvent_observed _ _ _ _ _)).posted
  have noted : OnlyPosted s ((if c.mgmt then s.mqReply c ((s.signalsOf c).any (·.add != 0)) else s.cqReply c ((s.signalsOf c).any (·.add != 0))).note c.pol c.fin
      (.of 7 c.src c.qn c.seq c.status c.frames)) :=
    (OnlyPosted.ite (s.mqReply_posted c _) (s.cqReply_posted c _)).trans (Mod.note_observed _ _ _ _).posted
  split
  · exact noted.trans (Mod.put_posted _ _ _ (by decide))
  · exact noted

theorem Mod.stopQueue_posted (s : Mod) (q st seq : Nat) : OnlyPosted s (s.stopQueue q st seq) := by
  unfold Mod.stopQueue
  dsimp only
  split
  · exact s.setQueue_posted _ _
  · exact s.setQueue_posted _ _
  · exact .refl s

theorem Mod.postOne_posted (f : Nat) (s : Mod) (c : Cmd) : OnlyPosted s (Mod.postOne f s c) := by
  have posted : OnlyPosted s (if c.status = 0x06 then (s.noteWaits f 0x06 c).postReply { c with waits := [] } else s.postReply c) :=
    OnlyPosted.ite ((s.noteWaits_observed f 0x06 c).posted.trans (Mod.postReply_posted _ _)) (s.postReply_posted c)
  unfold Mod.postOne
  dsimp only
  split
  · exact posted.trans (Mod.stopQueue_posted _ _ _ _)
  · exact posted

theorem Mod.postReplies_posted (s : Mod) (cs : List Cmd) (f : Nat) : OnlyPosted s (s.postReplies cs f) :=
  OnlyPosted.foldl (OnlyPosted.foldl (.refl s) (Mod.postOne_posted f) _) Mod.postReply_posted _

theorem Mod.grants_posted (s : Mod) (f : Nat) : OnlyPosted s (s.grants f) := s.cque_posted _ _

/-! ## Ends of commands -/

theorem Mod.noteAll_posted (s : Mod) (f st : Nat) (l : List Cmd) : OnlyPosted s (l.foldl (Mod.noteWaits f st) s) :=
  OnlyPosted.foldl (.refl s) (fun t c => (t.noteWaits_observed f st c).posted) l

theorem Mod.endCmds_posted (s : Mod) (pick : Cmd → Bool) (st f : Nat) : OnlyPosted s (s.endCmds pick st f) := by
  have noted := s.noteAll_posted f (if st = 0x21 then 0x21 else 0x06) (s.cq.cmds.filter pick)
  unfold Mod.endCmds
  dsimp only
  split
  · refine OnlyPosted.trans (OnlyPosted.ite noted (noted.trans (Mod.wr_posted _ _))) (Mod.cque_posted _ _ _)
  · exact ((noted.trans (Mod.wr_posted _ _)).trans (Mod.postReplies_posted _ _ _)).trans (Mod.grants_posted _ _)

theorem Mod.setCmd_posted (s : Mod) (c : Cmd) : OnlyPosted s (s.setCmd c) := s.cque_posted _ _

theorem Mod.completeAt_posted (s : Mod) (c : Cmd) (f : Nat) : OnlyPosted s (s.completeAt c f) := by
  unfold Mod.completeAt
  dsimp only
  split
  · exact s.setCmd_posted _
  · refine OnlyPosted.trans ?_ (Mod.sendDue_posted _)
    refine OnlyPosted.trans ?_ (Mod.grants_posted _ _)
    refine OnlyPosted.trans ?_ (Mod.postReplies_posted _ _ _)
    exact OnlyPosted.foldl (OnlyPosted.foldl (.refl s) (Mod.addSignal_posted f) _) (Mod.releaseWeir_posted f) _

end Sys2Proof.Machine
end

section
/-! SUPPORT. How a reset ends, and what a tile's fault waits for (R190, R383, R384, R388, R409). -/

namespace Sys2Proof.Machine

/-- From one state of the module to another no reset ends or begins, no die stops, no access is held that was not, and the polders stay. -/
structure Frees (s t : Mod) : Prop where
  resets : t.rel.resets = s.rel.resets
  stopped : ∀ d ∈ t.rel.stopped, d ∈ s.rel.stopped
  stuck : ∀ x ∈ t.pci.stuck, x ∈ s.pci.stuck
  layout : t.rd .SP_LAYOUT 0 = s.rd .SP_LAYOUT 0

theorem Frees.refl (s : Mod) : Frees s s := ⟨rfl, fun _ h => h, fun _ h => h, rfl⟩

theorem Frees.trans {s t u : Mod} (h : Frees s t) (k : Frees t u) : Frees s u :=
  ⟨k.resets.trans h.resets, fun d hd => h.stopped d (k.stopped d hd), fun x hx => h.stuck x (k.stuck x hx), k.layout.trans h.layout⟩

theorem Frees.foldl {α : Type} {s t : Mod} {g : Mod → α → Mod} (h : Frees s t) (hg : ∀ t a, Frees t (g t a)) (l : List α) : Frees s (l.foldl g t) :=
  foldl_keeps (P := Frees s) (fun t a ht => ht.trans (hg t a)) l h

theorem Frees.ite {s t u : Mod} {c : Prop} [Decidable c] (h : Frees s t) (k : Frees s u) : Frees s (if c then t else u) := by
  split
  · exact h
  · exact k

/-- A register other than SP_LAYOUT is set. -/
theorem Mod.put_frees (s : Mod) {r : RegName} (i : Nat) (v : Word) (h : .SP_LAYOUT ≠ r) : Frees s (s.put r i v) := ⟨rfl, fun _ h => h, fun _ h => h, s.rd_put_of_reg_ne i 0 v h⟩

theorem Mod.setFld_frees (s : Mod) {f : Fld} (i v : Nat) (h : .SP_LAYOUT ≠ f.reg) : Frees s (s.setFld f i v) := s.put_frees i _ h

theorem OnlyPosted.frees {s t : Mod} (h : OnlyPosted s t) : Frees s t :=
  ⟨by rw [h.rel], fun d hd => by rwa [h.rel] at hd, fun x hx => by rwa [h.stuck] at hx, h.regs _ _ (by decide) (by decide)⟩

/-- The dies of a domain are told by the polders alone. -/
theorem Frees.domainDies {s t : Mod} (h : Frees s t) (kind index : Nat) : t.domainDies kind index = s.domainDies kind index := by
  have polders : t.polders = s.polders := Mod.fld_congr h.layout
  have dieOf : t.dieOf = s.dieOf := funext fun d => by simp only [Mod.dieOf, polders]
  unfold Mod.domainDies
  split <;> simp only [dieOf]

/-! ## Start fields and start tests -/

theorem Mod.startFields_frees (s : Mod) (kind index : Nat) : Frees s (s.startFields kind index) := by
  unfold Mod.startFields
  refine Frees.foldl (Frees.ite ?_ (.refl s)) (fun t d => Frees.foldl (.refl t) (fun t n => ?_) _) _
  · exact ((s.setFld_frees 0 _ (by decide)).trans (Mod.setFld_frees _ 0 _ (by decide))).trans (Mod.put_frees _ 0 _ (by decide))
  · exact (t.setFld_frees _ _ (by decide)).trans (Mod.setFld_frees _ _ _ (by decide))

/-- The tables of tiles and spares change alone. -/
theorem Mod.tiles_frees (s : Mod) (rel : Rel) (h : rel.resets = s.rel.resets) (k : rel.stopped = s.rel.stopped) : Frees s { s with rel := rel } :=
  ⟨h, fun d hd => by rwa [← k], fun _ h => h, rfl⟩

theorem Mod.startFail_frees (s : Mod) (ph mode : Nat) : Frees s (s.startFail ph mode) := by
  have bumped : Frees s s.bump := ⟨rfl, fun _ h => h, fun _ h => h, rfl⟩
  unfold Mod.startFail Mod.firstFail'
  dsimp only
  refine bumped.trans ?_
  split
  · exact .refl _
  · exact (((Mod.put_frees _ _ _ (by decide)).trans (Mod.put_frees _ _ _ (by decide))).trans (Mod.put_frees _ _ _ (by decide))).trans (Mod.put_frees _ _ _ (by decide))

theorem Mod.countSpares_frees (s : Mod) (d : Nat) : Frees s (s.countSpares d) := s.setFld_frees _ _ (by decide)

theorem Mod.failTile_frees (s : Mod) (ph : Nat) : Frees s (s.failTile ph) := by
  unfold Mod.failTile
  refine Frees.trans ?_ (Mod.countSpares_frees _ _)
  refine Frees.trans ?_ (Mod.setFld_frees _ _ _ (by decide))
  refine Frees.trans ?_ (Mod.setFld_frees _ _ _ (by decide))
  refine Frees.trans ?_ (Mod.setFld_frees _ _ _ (by decide))
  exact s.tiles_frees _ rfl rfl

theorem tileFailed_ne_layout (k : Nat) : .SP_LAYOUT ≠ (tileFailed k).1 := by
  unfold tileFailed
  split
  · exact (by decide : RegName.SP_LAYOUT ≠ .MC_TILE_FAILED_LO)
  · exact (by decide : RegName.SP_LAYOUT ≠ .MC_TILE_FAILED_HI)

theorem Mod.markTile_frees (s : Mod) (t : Nat) (on : Bool) : Frees s (s.markTile t on) := s.put_frees _ _ (tileFailed_ne_layout _)

theorem Mod.restartPass_frees (s : Mod) (ph : Nat) : Frees s (s.restartPass ph) := (s.setFld_frees ph 0 (by decide)).trans (Mod.tiles_frees _ _ rfl rfl)

theorem Mod.takeSpare_frees (s : Mod) (ph t : Nat) : Frees s (s.takeSpare ph t) := by
  unfold Mod.takeSpare
  refine Frees.trans ?_ (Mod.countSpares_frees _ _)
  refine Frees.trans ?_ (Mod.markTile_frees _ _ _)
  refine Frees.trans ?_ (Mod.restartPass_frees _ _)
  refine Frees.trans ?_ (Mod.setFld_frees _ _ _ (by decide))
  refine Frees.trans ?_ (Mod.setFld_frees _ _ _ (by decide))
  exact s.tiles_frees _ rfl rfl

theorem Mod.findTile_frees (s : Mod) (t : Nat) : Frees s (s.findTile t) := by
  unfold Mod.findTile
  dsimp only
  split
  · split
    · exact s.takeSpare_frees _ _
    · exact s.markTile_frees _ _
  · exact s.markTile_frees _ _

theorem Mod.testTiles_frees (s : Mod) (kind index : Nat) (failed : List Nat) : Frees s (s.testTiles kind index failed) := by
  unfold Mod.testTiles
  exact Frees.foldl (Frees.foldl (.refl s) (fun t ph => (t.startFail_frees ph 0).trans (Mod.failTile_frees _ ph)) _) Mod.findTile_frees _

/-! ## The release -/

theorem Mod.clockOn_frees (s : Mod) (d : Nat) : Frees s (s.clockOn d) ∧ d ∉ (s.clockOn d).rel.stopped := by
  have going : Frees s { s with rel := { s.rel with stopped := s.rel.stopped.filter (· != d) } } := ⟨rfl, fun e he => (List.mem_filter.1 he).1, fun _ h => h, rfl⟩
  refine ⟨going.trans ⟨rfl, fun _ h => h, fun _ h => h, ?_⟩, fun h => ?_⟩
  · exact ((Mod.setFld_frees _ _ _ (by decide)).trans (Mod.setFld_frees _ _ _ (by decide))).layout
  · exact absurd (List.mem_filter.1 h).2 (by simp)

/-- An access that was held completes or is dropped, and none is held for the die any more. -/
theorem Mod.failHeld_frees (s : Mod) (d : Nat) : Frees s (s.failHeld d) ∧ ∀ x ∈ (s.failHeld d).pci.stuck, x.1 ≠ d := by
  let t : Mod := { s with pci := { s.pci with stuck := s.pci.stuck.filter fun x => x.1 != d } }
  have cleared : Frees s t := ⟨rfl, fun _ h => h, fun x hx => (List.mem_filter.1 hx).1, rfl⟩
  have ended : Frees t (s.failHeld d) := by
    refine Frees.foldl (.refl t) (fun u x => ?_) _
    split
    · exact ⟨rfl, fun _ h => h, fun _ h => h, rfl⟩
    · exact ⟨rfl, fun _ h => h, fun _ h => h, rfl⟩
    · exact u.setFld_frees _ _ (by decide)
  exact ⟨cleared.trans ended, fun x hx => by simpa using (List.mem_filter.1 (ended.stuck x hx)).2⟩

theorem Mod.leaveConf_frees (s : Mod) (p : Nat) : Frees s (s.leaveConf p) :=
  Frees.ite ((s.setFld_frees _ _ (by decide)).trans (Mod.setFld_frees _ _ _ (by decide))) (.refl s)

theorem Mod.setLink_frees (s : Mod) (l : Nat) (v : LinkS) : Frees s (s.setLink l v) := ⟨rfl, fun _ h => h, fun _ h => h, rfl⟩

theorem Mod.beginTraining_frees (s : Mod) (l : Nat) : Frees s (s.beginTraining l) := s.setLink_frees _ _

/-- The dies of a list run again, and hold nothing. -/
theorem Mod.diesOn_frees (l : List Nat) (s : Mod) :
    let t := l.foldl (fun s d => (s.clockOn d).failHeld d) s
    Frees s t ∧ ∀ d ∈ l, d ∉ t.rel.stopped ∧ ∀ x ∈ t.pci.stuck, x.1 ≠ d := by
  induction l generalizing s with
  | nil => exact ⟨.refl s, nofun⟩
  | cons d l ih =>
    obtain ⟨runs, gone⟩ := s.clockOn_frees d
    obtain ⟨fails, none⟩ := (s.clockOn d).failHeld_frees d
    obtain ⟨rest, others⟩ := ih ((s.clockOn d).failHeld d)
    refine ⟨(runs.trans fails).trans rest, fun e he => ?_⟩
    rcases List.mem_cons.1 he with rfl | he
    · exact ⟨fun h => gone (fails.stopped _ (rest.stopped _ h)), fun x hx => none x (rest.stuck x hx)⟩
    · exact others e he

/-- What a released domain does before its reset is over. -/
def Mod.freeDomain (s : Mod) (r : ResetS) : Mod :=
  let s := (s.domainDies r.kind r.index).foldl (fun s d => (s.clockOn d).failHeld d) s
  let s := if r.kind = 4 then s.leaveConf r.index else if r.kind = 2 then (List.range s.polders).foldl Mod.leaveConf s else s
  let train (s : Mod) (l : Nat) : Mod := if s.bit .ZL_CTRL_ENABLE l then s.beginTraining l else s
  if r.kind = 3 then train s r.index else if r.kind = 2 then (List.range 32).foldl train s else s

theorem Mod.freeDomain_frees (s : Mod) (r : ResetS) :
    Frees s (s.freeDomain r) ∧ ∀ d ∈ s.domainDies r.kind r.index, d ∉ (s.freeDomain r).rel.stopped ∧ ∀ x ∈ (s.freeDomain r).pci.stuck, x.1 ≠ d := by
  obtain ⟨runs, gone⟩ := Mod.diesOn_frees (s.domainDies r.kind r.index) s
  have after : Frees ((s.domainDies r.kind r.index).foldl (fun s d => (s.clockOn d).failHeld d) s) (s.freeDomain r) := by
    unfold Mod.freeDomain
    generalize (s.domainDies r.kind r.index).foldl (fun s d => (s.clockOn d).failHeld d) s = t
    have conf : Frees t (if r.kind = 4 then t.leaveConf r.index else if r.kind = 2 then (List.range t.polders).foldl Mod.leaveConf t else t) :=
      Frees.ite (t.leaveConf_frees _) (Frees.ite (Frees.foldl (.refl t) Mod.leaveConf_frees _) (.refl t))
    have train (u : Mod) (l : Nat) : Frees u (if u.bit .ZL_CTRL_ENABLE l then u.beginTraining l else u) := Frees.ite (u.beginTraining_frees l) (.refl u)
    exact conf.trans (Frees.ite (train _ _) (Frees.ite (Frees.foldl (.refl _) train _) (.refl _)))
  exact ⟨runs.trans after, fun d hd => ⟨fun h => (gone d hd).1 (after.stopped d h), fun x hx => (gone d hd).2 x (after.stuck x hx)⟩⟩

/-- One of the commands that asked for a reset completes. -/
def Mod.completeOne (s : Mod) (x : Nat × Nat) : Mod :=
  match s.cq.cmds.find? fun c => c.mgmt && c.qn == x.1 && c.seq == x.2 with
  | some c => s.completeAt { c with status := 0, detail := noDetail } (if s.fc.window.isSome then s.fc.num else s.fc.mgmt)
  | none => s

theorem Mod.completeOne_posted (s : Mod) (x : Nat × Nat) : OnlyPosted s (s.completeOne x) := by
  unfold Mod.completeOne
  split
  · exact s.completeAt_posted _ _
  · exact .refl s

/-- The resets without one of them, and a word that shows it. -/
def Mod.overWith (s : Mod) (r : ResetS) (v : Word) : Mod := ({ s with rel := { s.rel with resets := s.rel.resets.filter (· != r) } } : Mod).put .MC_RESET_STATUS 0 v

theorem Mod.closeReset_eq (s : Mod) (r : ResetS) : ∃ v, s.closeReset r = r.cmds.foldl Mod.completeOne (s.overWith r v) := ⟨_, rfl⟩

/-- A reset that is over is no reset any more, and the replies to those that asked for it change no other. -/
theorem Mod.closeReset_rel (s : Mod) (r : ResetS) : (s.closeReset r).rel = { s.rel with resets := s.rel.resets.filter (· != r) } ∧ (s.closeReset r).pci.stuck = s.pci.stuck := by
  obtain ⟨v, e⟩ := s.closeReset_eq r
  have posted := OnlyPosted.foldl (.refl (s.overWith r v)) Mod.completeOne_posted r.cmds
  rw [e, posted.rel, posted.stuck]
  exact ⟨rfl, rfl⟩

theorem Mod.releaseDomain_eq (s : Mod) (r : ResetS) : s.releaseDomain r = (s.freeDomain r).closeReset r := rfl

/-- A domain that waits for no spare is released. -/
theorem Mod.onRelease_released {s : Mod} {kind index : Nat} {r : ResetS} (failed : List Nat) (h : (s.rel.resets.find? fun r => r.kind == kind && r.index == index) = some r)
    (spare : s.waitsSpare kind index = none) :
    (s.onRelease kind index failed).rel.resets = s.rel.resets.filter (· ≠ r)
      ∧ ∀ d ∈ s.domainDies kind index, d ∉ (s.onRelease kind index failed).rel.stopped ∧ ∀ x ∈ (s.onRelease kind index failed).pci.stuck, x.1 ≠ d := by
  let t := (s.startFields kind index).testTiles kind index failed
  have tested : Frees s t := (s.startFields_frees kind index).trans (Mod.testTiles_frees _ kind index failed)
  have e : s.onRelease kind index failed = (t.freeDomain r).closeReset r := by
    simp only [Mod.onRelease, h, spare, t, Mod.releaseDomain_eq]
  obtain ⟨rel, stuck⟩ := (t.freeDomain r).closeReset_rel r
  obtain ⟨free, gone⟩ := t.freeDomain_frees r
  obtain ⟨rk, ri⟩ : r.kind = kind ∧ r.index = index := by simpa using List.find?_some h
  rw [e, rel, stuck]
  refine ⟨?_, fun d hd => gone d ?_⟩
  · change List.filter _ (t.freeDomain r).rel.resets = _
    rw [free.resets, tested.resets]
    exact List.filter_congr fun x _ => by simp [bne, Bool.beq_eq_decide_eq]
  · rw [rk, ri, tested.domainDies]
    exact hd

/-- A domain that waits for a spare under test stays in reset, and the spare knows its tile. -/
theorem Mod.onRelease_waits {s : Mod} {kind index : Nat} {r : ResetS} (failed : List Nat) (h : (s.rel.resets.find? fun r => r.kind == kind && r.index == index) = some r)
    {ph tile : Nat} (spare : s.waitsSpare kind index = some (ph, tile)) :
    s.onRelease kind index failed = { s with rel := { s.rel with spareTest := s.rel.spareTest.map fun x => if x.1 = ph then (ph, some tile) else x } } := by
  simp only [Mod.onRelease, h, spare]

/-- A reset that may be released is the one that the release finds. -/
theorem Mod.releasable_find {s : Mod} {kind index : Nat} {r : ResetS} (h : s.releasable kind index = some r) : (s.rel.resets.find? fun r => r.kind == kind && r.index == index) = some r := by
  unfold Mod.releasable at h
  split at h
  · cases h
  · obtain ⟨x, hx, hr⟩ := Option.bind_eq_some_iff.1 h
    split at hr
    · exact Option.some.inj hr ▸ hx
    · cases hr

theorem releasesEndTheirResets : ReleasesEndTheirResets := by
  refine ⟨fun kind index failed s r ready => ⟨fun other => ?_, fun hub => ?_⟩, fun m kind index failed r h => ⟨fun spare => m.onRelease_released failed h spare, fun ph tile spare => ?_⟩⟩
  · have run : exec (.domainRelease kind index failed) s = .next { s with m := s.m.endChecks kind index.toNat (failed.map (·.val)) } := State.when_true _ (by rw [ready]; rfl)
    have k : (kind : Nat) ≠ 2 := fun e => other (Fin.ext e)
    rw [run, Mod.endChecks, if_neg k]
  · subst hub
    have run : exec (.domainRelease 2 index failed) s = .next { s with m := s.m.endChecks 2 index.toNat (failed.map (·.val)) } := State.when_true _ (Option.isSome_iff_exists.2 ⟨r, ready⟩)
    obtain ⟨resets, -⟩ := s.m.onRelease_released (failed.map (·.val)) (Mod.releasable_find ready) rfl
    refine ⟨_, run, rfl, ?_⟩
    dsimp only
    have sent := (s.m.onRelease 2 index.toNat (failed.map (·.val))).sendDue_posted
    exact (congrArg Rel.resets sent.rel).trans resets
  · rw [Mod.onRelease_waits failed h spare]
    exact ⟨rfl, rfl⟩

theorem tileFaultsWaitForTheSluice : TileFaultsWaitForTheSluice := fun _ _ _ frame live => State.when_true _ (Bool.and_eq_true_iff.2 ⟨frame, live⟩)

/-- Settles O30: releases, and the faults of tiles. -/
theorem releasesAndTileFaults : Obligations.ReleasesAndTileFaults := ⟨releasesEndTheirResets, tileFaultsWaitForTheSluice⟩

end Sys2Proof.Machine
end

section
/-! SUPPORT. Uncorrectable reads, the patrol, and the zeroing of frames (R220, R235 to R237). -/

namespace Sys2Proof.Machine

/-! ## Tables and flags -/

theorem lookupKey_map {α : Type} (f : Nat → α → α) (k : Nat) (l : List (Nat × α)) : lookupKey k (l.map fun c => (c.1, f c.1 c.2)) = (lookupKey k l).map (f k) := by
  induction l with
  | nil => rfl
  | cons c l ih =>
    by_cases h : c.1 = k
    · simp [lookupKey, h]
    · simp [lookupKey, h, ih]

theorem Tbl.get_map {α : Type} (t : Tbl α) (f : Nat → α → α) (k : Nat) : (t.map f).get k = (t.get k).map (f k) := lookupKey_map f k t.cells

theorem mem_foldl_addOnce {gs l : List Nat} {x : Nat} : x ∈ gs.foldl addOnce l ↔ x ∈ l ∨ x ∈ gs := by
  induction gs generalizing l with
  | nil => simp
  | cons g gs ih => rw [List.foldl_cons, ih, mem_addOnce, List.mem_cons, or_assoc]

/-- A raised flag waits for the frame's sluice. -/
theorem Mod.raise_eq (s : Mod) {f : Fld} (i : Nat) (h : f.mask ≠ 0) : s.raise f i = { s with rf := { s.rf with flags := s.rf.flags ++ [⟨f.reg, i, f.mask⟩] } } := if_neg h

theorem Mod.dieOf_le (s : Mod) {d : Nat} (h : d < 4) : s.dieOf d < 4 := by
  unfold Mod.dieOf
  split
  · exact h
  · split <;> omega

/-! ## Uncorrectable reads -/

/-- The word of MT_ECC_FIRST that shows a place. -/
def eccFirst (pol id : Nat) (patrol : Bool) : Nat := 2 ^ 31 + id / 2 ^ 22 % 2 * 2 ^ 30 + (if patrol then 2 ^ 29 else 0) + pol * 2 ^ 24 + id % 2 ^ 22

/-- The first uncorrectable read is recorded with its place and frame. -/
def Mod.recordEcc (s : Mod) (pol id ofs : Nat) (patrol : Bool) : Mod :=
  if s.bit .MT_ECC_FIRST_VALID 0 then s
  else ((s.put .MT_ECC_FIRST 0 (BitVec.ofNat 32 (eccFirst pol id patrol))).put .MT_ECC_OFS 0 (BitVec.ofNat 32 (ofs / 32 * 32))).putPair .MT_ECC_WHEN_LO .MT_ECC_WHEN_HI 0 s.fc.num

theorem Mod.uncorrAt_eq (s : Mod) (pol id ofs : Nat) (patrol : Bool) :
    s.uncorrAt pol id ofs patrol = ((((s.countLater .MT_ECC_UNCORR 0 1).stage 0 (.retire id)).recordEcc pol id ofs patrol).addPoison [(id * 2 ^ 21 + ofs) / 32]) := rfl

/-- Bit 31 of a word's number. -/
theorem top_bit {n : Nat} (lo : 2 ^ 31 ≤ n) (hi : n < 2 ^ 32) : bits (BitVec.ofNat 32 n).toNat 31 31 = 1 := by
  rw [BitVec.toNat_ofNat, Nat.mod_eq_of_lt hi]
  unfold bits
  omega

/-- The words of a first uncorrectable read. -/
def Mod.putEcc (s : Mod) (first place : Word) : Mod := ((s.put .MT_ECC_FIRST 0 first).put .MT_ECC_OFS 0 place).putPair .MT_ECC_WHEN_LO .MT_ECC_WHEN_HI 0 s.fc.num

theorem Mod.putEcc_spec (s : Mod) (first place : Word) :
    s.putEcc first place = { s with rf := { s.rf with vals := (s.putEcc first place).rf.vals } } ∧ (s.putEcc first place).rd .MT_ECC_FIRST 0 = first ∧ (s.putEcc first place).rd .MT_ECC_OFS 0 = place := by
  refine ⟨rfl, ?_, ?_⟩
  · rw [Mod.putEcc, Mod.putPair, Mod.rd_put_of_reg_ne _ _ _ _ (by decide), Mod.rd_put_of_reg_ne _ _ _ _ (by decide), Mod.rd_put_of_reg_ne _ _ _ _ (by decide), Mod.rd_put_same]
  · rw [Mod.putEcc, Mod.putPair, Mod.rd_put_of_reg_ne _ _ _ _ (by decide), Mod.rd_put_of_reg_ne _ _ _ _ (by decide), Mod.rd_put_same]

/-- What recording the first uncorrectable read leaves: registers alone, VALID set, and the place of the first. -/
theorem Mod.recordEcc_spec (s : Mod) {pol : Nat} (id : Nat) {ofs : Nat} (patrol : Bool) (hp : pol < 4) (ho : ofs < 2 ^ 21) :
    let t := s.recordEcc pol id ofs patrol
    t = { s with rf := { s.rf with vals := t.rf.vals } } ∧ t.bit .MT_ECC_FIRST_VALID 0 = true ∧ (s.bit .MT_ECC_FIRST_VALID 0 = true → t.rf.vals = s.rf.vals)
      ∧ (s.bit .MT_ECC_FIRST_VALID 0 = false → (t.rd .MT_ECC_OFS 0).toNat = ofs / 32 * 32) := by
  have e : s.recordEcc pol id ofs patrol = if s.bit .MT_ECC_FIRST_VALID 0 then s else s.putEcc (BitVec.ofNat 32 (eccFirst pol id patrol)) (BitVec.ofNat 32 (ofs / 32 * 32)) := rfl
  cases h : s.bit .MT_ECC_FIRST_VALID 0 with
  | true =>
    rw [e, h, if_pos rfl]
    exact ⟨rfl, h, fun _ => rfl, nofun⟩
  | false =>
    obtain ⟨rest, first, place⟩ := s.putEcc_spec (BitVec.ofNat 32 (eccFirst pol id patrol)) (BitVec.ofNat 32 (ofs / 32 * 32))
    have range : 2 ^ 31 ≤ eccFirst pol id patrol ∧ eccFirst pol id patrol < 2 ^ 32 := by
      unfold eccFirst
      split <;> omega
    rw [e, h, if_neg Bool.false_ne_true]
    refine ⟨rest, ?_, nofun, fun _ => ?_⟩
    · rw [Mod.bit, Mod.fld, show Fld.reg .MT_ECC_FIRST_VALID = .MT_ECC_FIRST from rfl, first]
      exact bne_iff_ne.2 ((top_bit range.1 range.2).trans_ne (by decide))
    · rw [place, BitVec.toNat_ofNat]
      omega

theorem Mod.uncorrAt_spec (s : Mod) {pol : Nat} (id : Nat) {ofs : Nat} (patrol : Bool) (hp : pol < 4) (ho : ofs < 2 ^ 21) :
    let t := s.uncorrAt pol id ofs patrol
    UncorrAt s t id ofs ∧ t.rf.flags = s.rf.flags := by
  let u := (s.countLater .MT_ECC_UNCORR 0 1).stage 0 (.retire id)
  obtain ⟨rest, valid, keeps, place⟩ := u.recordEcc_spec id patrol hp ho
  intro t
  have e : t = (u.recordEcc pol id ofs patrol).addPoison [(id * 2 ^ 21 + ofs) / 32] := rfl
  rw [rest] at e
  have stg : t.stg = s.stg ++ [⟨0, none, none, .count .MT_ECC_UNCORR 0 1⟩, ⟨0, none, none, .retire id⟩] := by
    rw [e]
    exact List.append_assoc _ _ _
  refine ⟨⟨stg, fun g => ?_, ?_, ?_, ?_, valid, keeps, place⟩, ?_⟩
  · rw [e]
    exact mem_addOnce
  all_goals
    rw [e]
    rfl

/-- The patrol's read of a frame that cannot be corrected, and the memory alert of its polder. -/
theorem Mod.patrol_uncorr (s : Mod) {d c : Nat} (addr : Nat) (hd : d < 4) (hc : c / 14 = d) :
    let id := (ctlFrame c (addr / 2 ^ 21 % 65536)).1 * 2 ^ 22 + (ctlFrame c (addr / 2 ^ 21 % 65536)).2
    let t := s.patrol c addr true
    UncorrAt s t id (addr % 2 ^ 21) ∧ t.rf.flags = s.rf.flags ++ [⟨.CQ_ALERT_CAUSE, s.dieOf d, Fld.mask .CQ_ALERT_CAUSE_MEMORY⟩] := by
  intro id t
  obtain ⟨found, flags⟩ := s.uncorrAt_spec id true (s.dieOf_le hd) (Nat.mod_lt addr (by decide : 0 < 2 ^ 21))
  have e : t = (s.uncorrAt (s.dieOf d) id (addr % 2 ^ 21) true).raise .CQ_ALERT_CAUSE_MEMORY (s.dieOf d) := by
    rw [← hc]
    rfl
  rw [e, Mod.raise_eq _ _ (by decide)]
  exact ⟨found, congrArg (· ++ [⟨.CQ_ALERT_CAUSE, s.dieOf d, Fld.mask .CQ_ALERT_CAUSE_MEMORY⟩]) flags⟩

theorem uncorrectableReadsPoisonAndRetire : UncorrectableReadsPoisonAndRetire := by
  refine ⟨fun p addr s id window page => ?_, fun m id k => ?_, fun d ctl addr s window running on up => ⟨?_, ?_⟩⟩
  · have there : (s.m.page p addr.toNat).isSome = true := by
      obtain ⟨e, he, -⟩ := Option.map_eq_some_iff.1 page
      rw [he]
      rfl
    have run : exec (.memUncorr p addr) s = .next { s with m := match s.m.physPage p addr.toNat with
        | some id => s.m.uncorrAt p id (addr.toNat % 2 ^ 21) false
        | none => s.m } := State.when_true _ (by rw [window, there]; rfl)
    rw [page] at run
    exact ⟨_, run, rfl, s.m.uncorrAt_spec id false p.isLt (Nat.mod_lt _ (by decide))⟩
  · exact Tbl.get_map m.mem.pages _ k
  · have run : exec (.patrolScrub d ctl addr true) s = .next { s with m := s.m.patrol (d * 14 + ctl) addr.toNat true } := State.when_true _ (by rw [window, running, on, up]; rfl)
    exact ⟨_, run, rfl, s.m.patrol_uncorr addr.toNat d.isLt (by omega)⟩
  · have run : exec (.patrolScrub d ctl addr false) s = .next { s with m := s.m.patrol (d * 14 + ctl) addr.toNat false } := State.when_true _ (by rw [window, running, on, up]; rfl)
    have hbm : ctlHbm (d * 14 + ctl) = decide (ctl.val < 2) := by
      unfold ctlHbm
      rw [show (d.val * 14 + ctl.val) % 14 = ctl.val by omega]
    rw [run, Mod.patrol, hbm]
    simp only [Bool.not_false, if_true, decide_eq_true_eq]
    rfl

/-! ## Zeroed frames -/

/-- A frame that becomes free is one more. -/
theorem rangeCount_pushRange (f : Nat) (l : List (Nat × Nat)) : rangeCount (pushRange f l) = rangeCount l + 1 := by
  induction l with
  | nil => rfl
  | cons x rest ih =>
    obtain ⟨a, n⟩ := x
    simp only [rangeCount, List.map_cons, List.sum_cons] at ih ⊢
    unfold pushRange
    split
    · simp only [List.map_cons, List.sum_cons]
      omega
    · split
      · simp only [List.map_cons, List.sum_cons]
        omega
      · split
        · cases rest with
          | nil => rfl
          | cons y rest' =>
            obtain ⟨b, m⟩ := y
            dsimp only
            split <;> simp only [List.map_cons, List.sum_cons] <;> omega
        · simp only [List.map_cons, List.sum_cons]
          omega

theorem zeroedFramesBecomeFree : ZeroedFramesBecomeFree := by
  intro d ctl s c due
  have run : exec (.pageZeroed d ctl) s = .next { s with m := (s.m.onZeroed c).resume } := State.when_true _ due
  have some : (popRange (s.m.mem.ctl c).zq).isSome = true := by
    simp only [Mod.zeroDue, Bool.and_eq_true] at due
    exact due.1.1.1
  obtain ⟨⟨f, rest⟩, pop⟩ := Option.isSome_iff_exists.1 some
  let k : Ctl := { s.m.mem.ctl c with zq := rest, free := pushRange f (s.m.mem.ctl c).free, zdone := 0 }
  have e : s.m.onZeroed c = { s.m with mem := { s.m.mem with ctls := s.m.mem.ctls.set c k } } := by
    simp only [Mod.onZeroed, pop, k]
  have own : (s.m.onZeroed c).mem.ctl c = k := by
    rw [e]
    exact Tbl.getD_set_same _ _ _ _
  refine ⟨_, f, rest, run, pop, own, fun c' other => ?_, ?_, ?_⟩
  · rw [e]
    exact Tbl.getD_set_ne _ _ _ other
  · rw [e]
  · rw [own]
    exact rangeCount_pushRange f _

/-- Settles O31: reads that cannot be corrected, and frames that were zeroed. -/
theorem uncorrectableReadsAndZeroing : Obligations.UncorrectableReadsAndZeroing := ⟨uncorrectableReadsPoisonAndRetire, zeroedFramesBecomeFree⟩

end Sys2Proof.Machine
end

section
/-! SUPPORT. The background self-test: slices, starved passes, rounds of spare tests and their ends (R392, R407 to R411). -/

namespace Sys2Proof.Machine

/-- An event of a counter bank changes the banks alone. -/
theorem Mod.event_eq (s : Mod) (f b i n : Nat) : ∃ ob, s.event f b i n = { s with ob := ob } := by
  unfold Mod.event
  split
  · exact ⟨_, rfl⟩
  · exact ⟨_, rfl⟩

/-! ## Slices -/

/-- A frame donated to a tile, with a count of slices behind it. -/
theorem Mod.donated_mayDonate {s : Mod} {t n : Nat} (hn : n = 0 ∨ n = 1) {new : List Staged} (h : ⟨rankTile t, none, none, .count .BC_SLICES_DONE (t / 48) n⟩ ∈ new) (hs : s.stg = new) :
    s.mayDonate t = false := by
  have there : (s.stg.any fun e => e.rank == rankTile t && (e.eff == .count .BC_SLICES_DONE (t / 48) 1 || e.eff == .count .BC_SLICES_DONE (t / 48) 0)) = true := by
    rw [hs]
    refine List.any_eq_true.2 ⟨_, h, ?_⟩
    rcases hn with rfl | rfl <;> simp
  rw [Mod.mayDonate, there, Bool.not_true, Bool.and_false]

/-- The words of a first failure of a self-test. -/
def Mod.putFail (s : Mod) (d : Nat) (first place : Word) : Mod :=
  let t := s.put .BC_FIRST_FAIL d first
  (t.put .BC_FAIL_ADDR d place).putPair .BC_FAIL_FRAME_LO .BC_FAIL_FRAME_HI d (t.fc.last.getD t.fc.num)

theorem Mod.putFail_spec (s : Mod) (d : Nat) (first place : Word) :
    s.putFail d first place = { s with rf := (s.putFail d first place).rf } ∧ (s.putFail d first place).rd .BC_FIRST_FAIL d = first
      ∧ ∀ i, (s.putFail d first place).rd .BC_TILE_STATUS i = s.rd .BC_TILE_STATUS i := by
  refine ⟨rfl, ?_, fun i => ?_⟩
  · rw [Mod.putFail, Mod.putPair, Mod.rd_put_of_reg_ne _ _ _ _ (by decide), Mod.rd_put_of_reg_ne _ _ _ _ (by decide), Mod.rd_put_of_reg_ne _ _ _ _ (by decide), Mod.rd_put_same]
  · rw [Mod.putFail, Mod.putPair, Mod.rd_put_of_reg_ne _ _ _ _ (by decide), Mod.rd_put_of_reg_ne _ _ _ _ (by decide), Mod.rd_put_of_reg_ne _ _ _ _ (by decide),
      Mod.rd_put_of_reg_ne _ _ _ _ (by decide)]

/-- A first failure is recorded if there is none, in a word whose VALID is set. -/
theorem Mod.firstFail_cases (s : Mod) (ph : Nat) {mode slice : Nat} (bank line : Nat) (hm : mode < 4) (hs : slice < 256) :
    (s.bit .BC_FIRST_FAIL_VALID (ph / 52) = true ∧ s.firstFail' ph mode slice bank line = s)
      ∨ ∃ n place, 2 ^ 31 ≤ n ∧ n < 2 ^ 32 ∧ s.firstFail' ph mode slice bank line = s.putFail (ph / 52) (BitVec.ofNat 32 n) place := by
  unfold Mod.firstFail'
  dsimp only
  split
  · next h => exact .inl ⟨h, rfl⟩
  · exact .inr ⟨2 ^ 31 + mode * 2 ^ 28 + ph % 52 * 2 ^ 22 + slice * 256, BitVec.ofNat 32 (bank * 65536 + line), by omega, by omega, rfl⟩

/-- A first failure is recorded: registers alone, the tiles' status stays, and VALID is set. -/
theorem Mod.firstFail_spec (s : Mod) (ph : Nat) {mode slice : Nat} (bank line : Nat) (hm : mode < 4) (hs : slice < 256) :
    s.firstFail' ph mode slice bank line = { s with rf := (s.firstFail' ph mode slice bank line).rf } ∧ (s.firstFail' ph mode slice bank line).bit .BC_FIRST_FAIL_VALID (ph / 52) = true
      ∧ ∀ i, (s.firstFail' ph mode slice bank line).rd .BC_TILE_STATUS i = s.rd .BC_TILE_STATUS i := by
  rcases s.firstFail_cases ph bank line hm hs with ⟨valid, e⟩ | ⟨n, place, lo, hi, e⟩
  · rw [e]
    exact ⟨rfl, valid, fun _ => rfl⟩
  · obtain ⟨rest, first, status⟩ := s.putFail_spec (ph / 52) (BitVec.ofNat 32 n) place
    rw [e]
    refine ⟨rest, ?_, status⟩
    rw [Mod.bit, Mod.fld, show Fld.reg .BC_FIRST_FAIL_VALID = .BC_FIRST_FAIL from rfl, first]
    exact bne_iff_ne.2 ((top_bit lo hi).trans_ne (by decide))

/-- A frame's slice is counted, and traced by the die's bank. -/
def Mod.sliced (s : Mod) (tile d n : Nat) : Mod := (s.stage (rankTile tile) (.count .BC_SLICES_DONE d n)).event s.fc.num d 30 1

theorem Mod.sliced_eq (s : Mod) (tile d n : Nat) : ∃ ob, s.sliced tile d n = { s with stg := s.stg ++ [⟨tile, none, none, .count .BC_SLICES_DONE d n⟩], ob := ob } :=
  (s.stage (rankTile tile) (.count .BC_SLICES_DONE d n)).event_eq _ _ _ _

/-- A slice that passes moves its tile's pass on. -/
def Mod.slicePasses (s : Mod) (ph next : Nat) : Mod :=
  if next = 18 then
    let t := (s.setFld .BC_TILE_STATUS_NEXT ph 0).setFld .BC_TILE_STATUS_PASSES ph ((s.fld .BC_TILE_STATUS_PASSES ph + 1) % 256)
    { t with rel := { t.rel with passStart := t.rel.passStart.set ph (2 * (t.fc.num + 1)) } }
  else s.setFld .BC_TILE_STATUS_NEXT ph (next + 1)

theorem Mod.slicePasses_spec (s : Mod) (ph : Nat) {next : Nat} (h : next ≤ 18) :
    (s.slicePasses ph next).rel.faults = s.rel.faults ∧ (s.slicePasses ph next).stg = s.stg ∧ (s.slicePasses ph next).fld .BC_TILE_STATUS_NEXT ph = (next + 1) % 19
      ∧ (s.slicePasses ph next).fld .BC_TILE_STATUS_PASSES ph = if next = 18 then (s.fld .BC_TILE_STATUS_PASSES ph + 1) % 256 else s.fld .BC_TILE_STATUS_PASSES ph := by
  unfold Mod.slicePasses
  split
  · next last =>
    refine ⟨rfl, rfl, ?_, ?_⟩
    · refine (Mod.fld_setFld_apart _ .BC_TILE_STATUS_PASSES .BC_TILE_STATUS_NEXT ph ph _ rfl (by decide)).trans ?_
      rw [Mod.fld_setFld_same _ _ _ _ (by decide), last]
      rfl
    · refine (Mod.fld_setFld_same _ .BC_TILE_STATUS_PASSES ph _ (by decide)).trans ?_
      exact Nat.mod_mod _ _
  · refine ⟨rfl, rfl, ?_, s.fld_setFld_apart _ _ _ _ _ rfl (by decide)⟩
    rw [Mod.fld_setFld_same _ _ _ _ (by decide)]
    change (next + 1) % 32 = (next + 1) % 19
    omega

theorem Mod.runSlice_pass {s : Mod} {tile ph : Nat} (h : s.physTile tile = some ph) :
    s.runSlice tile none = (s.sliced tile (tile / 48) 1).slicePasses ph (s.fld .BC_TILE_STATUS_NEXT ph) := by
  simp only [Mod.runSlice, h]
  rfl

/-- A failed slice is the die's first failure if none was, and a fault of its tile. -/
def Mod.sliceFails (s : Mod) (tile ph next bank line : Nat) : Mod :=
  let s := s.stage (rankTile tile) (.count .BC_SLICES_FAILED (tile / 48) 1)
  let s := s.firstFail' ph 1 next bank line
  { s with rel := { s.rel with faults := s.rel.faults ++ [(tile, true)] } }

theorem Mod.sliceFails_spec (s : Mod) (tile ph : Nat) {next : Nat} (bank line : Nat) (h : next < 256) :
    (s.sliceFails tile ph next bank line).rel.faults = s.rel.faults ++ [(tile, true)] ∧ (s.sliceFails tile ph next bank line).stg = s.stg ++ [⟨tile, none, none, .count .BC_SLICES_FAILED (tile / 48) 1⟩]
      ∧ (s.sliceFails tile ph next bank line).bit .BC_FIRST_FAIL_VALID (ph / 52) = true
      ∧ ∀ i, (s.sliceFails tile ph next bank line).rd .BC_TILE_STATUS i = s.rd .BC_TILE_STATUS i := by
  obtain ⟨rest, valid, status⟩ := (s.stage (rankTile tile) (.count .BC_SLICES_FAILED (tile / 48) 1)).firstFail_spec ph bank line (mode := 1) (by decide) h
  unfold Mod.sliceFails
  dsimp only
  generalize Mod.firstFail' _ ph 1 next bank line = u at rest valid status ⊢
  refine ⟨?_, ?_, valid, status⟩
  · rw [rest]
    rfl
  · rw [rest]
    rfl

/-- A slice that fails. -/
theorem Mod.runSlice_fail {s : Mod} {tile ph : Nat} (x : TestFail) (h : s.physTile tile = some ph) :
    s.runSlice tile (some x) = (s.sliced tile (tile / 48) 1).sliceFails tile ph (s.fld .BC_TILE_STATUS_NEXT ph) x.bank.toNat x.line.toNat := by
  simp only [Mod.runSlice, h]
  rfl

/-- The frame of a slice runs it. -/
theorem sliceReady_donates {s : Mod} {tile : Nat} (h : s.sliceReady tile = true) : s.mayDonate tile = true := by
  simp only [Mod.sliceReady, Bool.and_eq_true] at h
  exact h.2

theorem slice_exec {d : Fin 4} {k : Fin 48} {s : State} (x : Option TestFail) (frame : s.m.inFrame = true) (may : s.m.mayDonate (d * 48 + k) = true) :
    exec (.inServiceSlice d k x) s = .next { s with m := if s.m.sliceReady (d * 48 + k) then s.m.runSlice (d * 48 + k) x else s.m.idleSlice (d * 48 + k) } :=
  State.when_true _ (Bool.and_eq_true_iff.2 ⟨frame, may⟩)

theorem slicesAdvanceTheirPass : SlicesAdvanceTheirPass := by
  constructor
  · intro d k x s frame may idle
    have die : (d.val * 48 + k.val) / 48 = d.val := by omega
    have run := slice_exec x frame may
    obtain ⟨ob, e⟩ := s.m.sliced_eq (d * 48 + k) ((d.val * 48 + k.val) / 48) 0
    rw [idle, if_neg Bool.false_ne_true, show s.m.idleSlice (d * 48 + k) = s.m.sliced (d * 48 + k) ((d.val * 48 + k.val) / 48) 0 from rfl, e] at run
    refine ⟨_, run, rfl, rfl, ?_, ?_⟩
    · rw [die]
    · exact Mod.donated_mayDonate (.inl rfl) (List.mem_append_right _ (List.mem_singleton.2 rfl)) rfl
  · intro d k s ph tile frame ready phys inside
    have die : tile / 48 = d.val := by omega
    have run (x : Option TestFail) : exec (.inServiceSlice d k x) s = .next { s with m := s.m.runSlice tile x } := by
      rw [slice_exec x frame (sliceReady_donates ready), if_pos ready]
    obtain ⟨ob, e⟩ := s.m.sliced_eq tile (tile / 48) 1
    refine ⟨?_, fun x => ?_⟩
    · have pass := run none
      obtain ⟨faults, stg, next, passes⟩ := (s.m.sliced tile (tile / 48) 1).slicePasses_spec ph inside
      rw [Mod.runSlice_pass phys] at pass
      refine ⟨_, pass, rfl, ?_, next, ?_, ?_⟩
      · rw [faults, e]
      · rw [passes, e]
        rfl
      · rw [stg, e, die]
    · have fail := run (some x)
      obtain ⟨faults, stg, valid, status⟩ := (s.m.sliced tile (tile / 48) 1).sliceFails_spec tile ph x.bank.toNat x.line.toNat (next := s.m.fld .BC_TILE_STATUS_NEXT ph) (by omega)
      rw [Mod.runSlice_fail x phys] at fail
      refine ⟨_, fail, rfl, ?_, ?_, valid, ?_⟩
      · rw [faults, e]
      · exact (Mod.fld_congr (status ph)).trans (by rw [e]; rfl)
      · rw [stg, e, die]
        exact List.append_assoc _ _ _

/-! ## Starved passes and rounds of spare tests -/

theorem starvedPassesAndSpareRounds : StarvedPassesAndSpareRounds := by
  refine ⟨?_, fun d s due => State.when_true _ due⟩
  intro d k s ph starves
  have die : ph / 52 = d.val := by omega
  have run : exec (.passStarved d k) s = .next { s with m := (s.m.starve ph).resume } := State.when_true _ starves
  have e : s.m.starve ph = { s.m with
      rf := { s.m.rf with flags := s.m.rf.flags ++ [⟨.BC_TILE_STATUS, ph, Fld.mask .BC_TILE_STATUS_STARVED⟩] }
      stg := s.m.stg ++ [⟨0, none, none, .count .BC_STARVED d 1⟩]
      rel := { s.m.rel with passStart := s.m.rel.passStart.set ph (s.m.rel.passStart.getD ph 0 / 2 * 2 + 1) } } := by
    rw [← die, Mod.starve, Mod.raise_eq _ _ (by decide)]
    rfl
  refine ⟨_, run, ?_⟩
  rw [e]
  refine ⟨rfl, rfl, ?_⟩
  have odd : ((s.m.rel.passStart.set ph (s.m.rel.passStart.getD ph 0 / 2 * 2 + 1)).getD ph 0 % 2 == 0) = false := by
    rw [Tbl.getD_set_same, beq_eq_false_iff_ne]
    omega
  simp only [Mod.starved, odd, Bool.and_false, Bool.false_and]

/-! ## The end of a spare's test -/

/-- What a spare that takes a number leaves: the number is its own, its test is over, and resets and releases stay. -/
theorem Mod.takeSpare_rel (s : Mod) (ph t : Nat) :
    (s.takeSpare ph t).rel = { s.rel with tileMap := s.rel.tileMap.set t (ph % 52), spareTest := s.rel.spareTest.filter (fun x => x.1 != ph), passStart := s.rel.passStart.set ph (2 * s.fc.num) } := rfl

/-- The marks of failed numbers and the count of spares are no tile's status. -/
theorem Mod.marked_status (s : Mod) (t d i : Nat) (on : Bool) : ((s.markTile t on).countSpares d).rd .BC_TILE_STATUS i = s.rd .BC_TILE_STATUS i := by
  have other : RegName.BC_TILE_STATUS ≠ (tileFailed (t % 48)).1 := by
    unfold tileFailed
    split
    · exact (by decide : RegName.BC_TILE_STATUS ≠ .MC_TILE_FAILED_LO)
    · exact (by decide : RegName.BC_TILE_STATUS ≠ .MC_TILE_FAILED_HI)
  rw [Mod.countSpares, Mod.rd_setFld_of_reg_ne _ _ _ _ (by decide)]
  exact s.rd_put_of_reg_ne _ _ _ other

theorem Mod.restartPass_spare (s : Mod) (ph : Nat) : (s.restartPass ph).fld .BC_TILE_STATUS_SPARE ph = s.fld .BC_TILE_STATUS_SPARE ph :=
  s.fld_setFld_apart .BC_TILE_STATUS_NEXT .BC_TILE_STATUS_SPARE ph ph 0 rfl (by decide)

/-- A spare that takes a number is a spare no longer. -/
theorem Mod.takeSpare_spare (s : Mod) (ph t : Nat) : (s.takeSpare ph t).bit .BC_TILE_STATUS_SPARE ph = false := by
  unfold Mod.takeSpare
  dsimp only
  rw [Mod.bit_congr (Mod.marked_status _ t (ph / 52) ph false), Mod.bit, Mod.restartPass_spare, Mod.fld_setFld_apart _ .BC_TILE_STATUS_LOGICAL .BC_TILE_STATUS_SPARE _ _ _ rfl (by decide),
    Mod.fld_setFld_same _ _ _ _ (by decide)]
  rfl

/-- What a failed tile leaves of the tables of tests. -/
theorem Mod.failTile_spec (s : Mod) (ph : Nat) : (s.failTile ph).rel.spareTest = s.rel.spareTest ∧ ph ∈ (s.failTile ph).rel.tileBad :=
  ⟨rfl, mem_addOnce.2 (.inr rfl)⟩

theorem Mod.startFail_spec (s : Mod) (ph mode : Nat) : (s.startFail ph mode).rel = s.rel := by
  unfold Mod.startFail Mod.firstFail'
  dsimp only
  split
  · rfl
  · rfl

/-- A number that looks for a spare leaves the marks of failed tiles, and begins no test. -/
theorem Mod.findTile_spec (s : Mod) (t : Nat) : (s.findTile t).rel.tileBad = s.rel.tileBad ∧ ∀ x ∈ (s.findTile t).rel.spareTest, x ∈ s.rel.spareTest := by
  unfold Mod.findTile
  dsimp only
  split
  · split
    · rw [s.takeSpare_rel]
      exact ⟨rfl, fun x hx => (List.mem_filter.1 hx).1⟩
    · exact ⟨rfl, fun _ h => h⟩
  · exact ⟨rfl, fun _ h => h⟩

/-- The test under way on a die is the one of its physical tile. -/
theorem Mod.underTest_find {s : Mod} {d ph : Nat} {wait : Option Nat} (h : s.underTest d = some (ph, wait)) : (s.rel.spareTest.find? fun x => x.1 == ph) = some (ph, wait) := by
  obtain ⟨die, before, after, split, none⟩ := List.find?_eq_some_iff_append.1 h
  refine List.find?_eq_some_iff_append.2 ⟨by simp, before, after, split, fun x hx => ?_⟩
  have other := none x hx
  simp only [Bool.not_eq_true', beq_eq_false_iff_ne, ne_eq, beq_iff_eq] at die other ⊢
  exact fun same => other (same ▸ die)

/-- What the end of a spare's test does for the number that waits for it. -/
def Mod.serveWaiting (s : Mod) (ph : Nat) (pass : Bool) : Option Nat → Mod
  | none => s
  | some tile => (if pass then s.takeSpare ph tile else s.findTile tile).endChecks 0 (tile / 48 * 64 + tile % 48) []

/-- The spare under test no longer. -/
def Mod.testOver (s : Mod) (ph : Nat) : Mod := { s with rel := { s.rel with spareTest := s.rel.spareTest.filter fun x => x.1 != ph } }

theorem Mod.endSpareTest_of {s : Mod} {ph : Nat} {wait : Option Nat} (pass : Bool) (h : (s.rel.spareTest.find? fun x => x.1 == ph) = some (ph, wait)) :
    s.endSpareTest ph pass = (if pass then s.testOver ph else ((s.testOver ph).startFail ph 2).failTile ph).serveWaiting ph pass wait := by
  simp only [Mod.endSpareTest, h]
  cases wait <;> rfl

/-- Start checks that end wait for the sluice. -/
theorem Mod.endChecks_tile (s : Mod) (index : Nat) (failed : List Nat) : s.endChecks 0 index failed = { s with rel := { s.rel with releases := s.rel.releases ++ [(0, index, failed)] } } := rfl

/-- A register's field does not depend on resets and tests. -/
theorem Mod.bit_withRel (s : Mod) (rel : Rel) (f : Fld) (i : Nat) : ({ s with rel := rel } : Mod).bit f i = s.bit f i := rfl

theorem spareTestsEnd : SpareTestsEnd := by
  intro d k pass s wait ph frame test
  have find := Mod.underTest_find test
  have run : exec (.spareTestEnd d k pass) s = .next { s with m := s.m.endSpareTest ph pass } := by
    have ready : (s.m.inFrame && match s.m.underTest d.val with
        | some x => x.1 == d.val * 52 + k.val
        | none => false) = true := by
      rw [frame, test]
      exact beq_self_eq_true ph
    exact State.when_true _ ready
  rw [Mod.endSpareTest_of pass find] at run
  have ended : ∀ x ∈ (s.m.testOver ph).rel.spareTest, x.1 ≠ ph := fun x hx => by simpa using (List.mem_filter.1 hx).2
  refine ⟨_, run, rfl, ?_⟩
  dsimp only
  cases pass with
  | true =>
    rw [if_pos rfl]
    cases wait with
    | none => exact ⟨ended, nofun, fun _ _ => rfl, nofun⟩
    | some tile =>
      have rel := (s.m.testOver ph).takeSpare_rel ph tile
      have spare := (s.m.testOver ph).takeSpare_spare ph tile
      have mine : ph % 52 = k.val := by omega
      rw [Mod.serveWaiting, if_pos rfl, Mod.endChecks_tile]
      generalize (s.m.testOver ph).takeSpare ph tile = u at rel spare ⊢
      refine ⟨?_, nofun, nofun, fun w hw _ => ?_⟩
      · dsimp only
        rw [rel]
        exact fun x hx => ended x (List.mem_filter.1 hx).1
      · obtain rfl : tile = w := Option.some.inj hw
        rw [Mod.bit_withRel, rel, ← mine]
        exact ⟨Tbl.get_set_same _ _ _, spare, rfl, rfl⟩
  | false =>
    rw [if_neg Bool.false_ne_true]
    obtain ⟨tests, bad⟩ := ((s.m.testOver ph).startFail ph 2).failTile_spec ph
    generalize ((s.m.testOver ph).startFail ph 2).failTile ph = u at tests bad ⊢
    have gone : ∀ x ∈ u.rel.spareTest, x.1 ≠ ph := fun x hx => ended x (by rwa [tests, Mod.startFail_spec] at hx)
    cases wait with
    | none => exact ⟨gone, fun _ => bad, nofun, nofun⟩
    | some tile =>
      obtain ⟨marks, fewer⟩ := u.findTile_spec tile
      rw [Mod.serveWaiting, if_neg Bool.false_ne_true, Mod.endChecks_tile]
      refine ⟨fun x hx => gone x (fewer x hx), fun _ => ?_, nofun, nofun⟩
      change ph ∈ (u.findTile tile).rel.tileBad
      rw [marks]
      exact bad

/-- Settles O33: slices, starved passes, rounds of spare tests and their ends. -/
theorem backgroundTestsAdvance : Obligations.BackgroundTestsAdvance := ⟨slicesAdvanceTheirPass, starvedPassesAndSpareRounds, spareTestsEnd⟩

end Sys2Proof.Machine
end

section
/-! SUPPORT. Links: the retry of a link that is DOWN, and the flits that a link receives and answers (R347 to R358). -/

namespace Sys2Proof.Machine

/-! ## A link that is tried again -/

theorem retrain_exec {l : Fin 32} {s : State} (down : (s.m.link l).st = .down) (on : s.m.bit .ZL_CTRL_ENABLE l = true) :
    exec (.retrainInterval l) s = .next { s with m := s.m.beginTraining l } := State.when_true _ (by rw [down, on]; rfl)

/-- A module out of reset whose link 0 is DOWN with cause 3, its ENABLE set. -/
def downState : State :=
  let m := State.reset.m.setFld .ZL_CTRL_ENABLE 0 1
  { State.reset with m := m.setLink 0 { LinkS.zero with st := .down, cause := 3 } }

/-- Refutes O34: a link that is tried again trains with its cause cleared (R348), and not with the cause that it was DOWN with. -/
theorem not_linksTrainAndLeaveUp : ¬ Obligations.LinksTrainAndLeaveUp := by
  unfold Obligations.LinksTrainAndLeaveUp
  rintro ⟨-, ⟨-, again⟩, -⟩
  obtain ⟨t, run, -, -, -, link⟩ := again 0 downState (by decide +kernel) (by decide +kernel)
  have tried := retrain_exec (l := 0) (s := downState) (by decide +kernel) (by decide +kernel)
  obtain rfl := Host.Outcome.next.inj (run.symm.trans tried)
  have cause := congrArg LinkS.cause link
  exact absurd cause (by decide +kernel)

end Sys2Proof.Machine
end

section
/-! SUPPORT. The flits that a link receives and answers (R350 to R352, R358; log entry 29). -/

namespace Sys2Proof.Machine

/-! ## The bytes of a flit -/

theorem leBytes_length (v n : Nat) : (leBytes v n).length = n := by
  induction n generalizing v with
  | zero => rfl
  | succ n ih => rw [leBytes, List.length_cons, ih]

/-- Little-endian bytes give back the number, as far as they hold it. -/
theorem leNat_leBytes (v n : Nat) : leNat (leBytes v n) = v % 256 ^ n := by
  induction n generalizing v with
  | zero => simp [leBytes, leNat, Nat.mod_one]
  | succ n ih => rw [leBytes, leNat, ih, BitVec.toNat_ofNat, (Nat.pow_succ' : 256 ^ (n + 1) = 256 * 256 ^ n), Nat.mod_mul]

/-- One bit of the CRC's shift register. -/
def crcBit (c : Nat) : Nat := if c % 2 = 1 then (c / 2) ^^^ 0x82F63B78 else c / 2

theorem crcBit_lt {c : Nat} (h : c < 2 ^ 32) : crcBit c < 2 ^ 32 := by
  unfold crcBit
  split
  · exact Nat.xor_lt_two_pow (by omega) (by decide)
  · omega

/-- The CRC has 32 bits. -/
theorem crc32c_lt (bs : List Byte) : crc32c bs < 2 ^ 32 := by
  refine Nat.xor_lt_two_pow (foldl_keeps (P := fun c => c < 2 ^ 32) (fun c b hc => ?_) bs (by decide)) (by decide)
  have start : c ^^^ b.toNat < 2 ^ 32 := Nat.xor_lt_two_pow hc (by omega)
  exact crcBit_lt (crcBit_lt (crcBit_lt (crcBit_lt (crcBit_lt (crcBit_lt (crcBit_lt (crcBit_lt start)))))))

theorem padded_length (bs : List Byte) : (padded bs).length = 232 := by
  simp only [padded, List.length_take, List.length_append, List.length_replicate]
  omega

/-- A flit of 232 bytes of payload holds its header and its check. -/
theorem flitBytes_says {H : Nat} {data : List Byte} (len : data.length = 232) :
    FlitSays (flitBytes H data) (H % 2 ^ 64 / 2 ^ 29 % 4096) (H % 2 ^ 64 / 2 ^ 41 % 4096) ((H % 2 ^ 64).testBit 53) := by
  let body := leBytes H 8 ++ data
  have body_len : body.length = 240 := by simp [body, leBytes_length, len]
  have e : flitBytes H data = body ++ (leBytes (crc32c body) 4 ++ leBytes (Config.linkParity (body ++ leBytes (crc32c body) 4)).toNat 12) := List.append_assoc _ _ _
  have first : leNat ((flitBytes H data).take 8) = H % 2 ^ 64 := by
    rw [e, List.append_assoc, List.take_append_of_le_length (by simp [leBytes_length]), List.take_of_length_le (by simp [leBytes_length]), leNat_leBytes, (by decide : 256 ^ 8 = 2 ^ 64)]
  have check : leNat (((flitBytes H data).drop 240).take 4) = crc32c body := by
    rw [e, List.drop_append_of_le_length (by omega), List.drop_of_length_le (by omega), List.nil_append, List.take_append_of_le_length (by simp [leBytes_length]),
      List.take_of_length_le (by simp [leBytes_length]), leNat_leBytes]
    exact Nat.mod_eq_of_lt (crc32c_lt body)
  refine ⟨?_, ?_, ?_, ?_, ?_⟩
  · rw [e]
    simp [leBytes_length, body_len]
  · rw [check, e, List.take_append_of_le_length (by omega), List.take_of_length_le (by omega)]
  all_goals rw [first]

/-- The fields of a header: the number of the flit, the last number received, and the NAK. -/
theorem header_fields (a cv seq vc frame ack : Nat) (nak : Bool) (hs : seq < 4096) (hv : vc < 4) (hf : frame < 65536) (ha : ack < 4096) :
    let H := a * 2 ^ 56 + cv * 2 ^ 54 + (if nak then 2 ^ 53 else 0) + ack * 2 ^ 41 + seq * 2 ^ 29 + vc * 2 ^ 16 + frame
    H % 2 ^ 64 / 2 ^ 29 % 4096 = seq ∧ H % 2 ^ 64 / 2 ^ 41 % 4096 = ack ∧ (H % 2 ^ 64).testBit 53 = nak := by
  cases nak <;> simp only [Nat.testBit_eq_decide_div_mod_eq, decide_eq_true_eq, decide_eq_false_iff_not, if_true, if_false, Bool.false_eq_true] <;> omega

/-- A flit that a link sends says its number, the last number that the link received, and whether it owes a NAK. -/
theorem LinkS.flit_says (k : LinkS) (f : Flit) (hs : f.seq < 4096) (hv : f.vc < 4) (hf : f.frame < 65536) (len : f.data.length = 232) :
    FlitSays (flitBytes (k.header f) f.data) f.seq ((k.expect + 4095) % 4096) k.tx.nak := by
  obtain ⟨seq, ack, nak⟩ := header_fields (min 255 (k.tx.back.getD ((k.tx.back.findIdx? fun n => decide (0 < n)).getD 0) 0)) ((k.tx.back.findIdx? fun n => decide (0 < n)).getD 0) f.seq f.vc f.frame
    ((k.expect + 4095) % 4096) k.tx.nak hs hv hf (Nat.mod_lt _ (by decide))
  have told := flitBytes_says (H := k.header f) len
  rw [show k.header f % 2 ^ 64 / 2 ^ 29 % 4096 = f.seq from seq, show k.header f % 2 ^ 64 / 2 ^ 41 % 4096 = (k.expect + 4095) % 4096 from ack,
    show Nat.testBit (k.header f % 2 ^ 64) 53 = k.tx.nak from nak] at told
  exact told

/-! ## Links -/

theorem Mod.link_setLink_same (s : Mod) (l : Nat) (v : LinkS) : (s.setLink l v).link l = v := Tbl.getD_set_same _ _ _ _

theorem Mod.link_setLink_ne (s : Mod) {l j : Nat} (v : LinkS) (h : l ≠ j) : (s.setLink j v).link l = s.link l := Tbl.getD_set_ne _ _ _ h

/-- The flit that a link sends next with some bytes. -/
def LinkS.next (k : LinkS) (vc frame : Nat) (data : List Byte) : Flit := ⟨vc, k.sent, frame % 65536, padded data, 1⟩

/-- A link that has sent a new flit. -/
def LinkS.sentNew (k : LinkS) (f : Flit) : LinkS :=
  let cv := (k.tx.back.findIdx? fun n => decide (0 < n)).getD 0
  { k with sent := (k.sent + 1) % 4096, tx := { k.tx with replay := k.tx.replay ++ [f], nak := false, owes := false, back := setNth k.tx.back cv (k.tx.back.getD cv 0 - 255) } }

/-- The bytes of a new flit. -/
def LinkS.newBytes (k : LinkS) (f : Flit) : List Byte := flitBytes (k.header f) f.data

/-- A new flit moves its link on, and goes out. -/
theorem Mod.newFlit_spec (s : Mod) (l vc : Nat) (data : List Byte) :
    let k := s.link l
    let f := k.next vc s.fc.num data
    s.newFlit l vc data = { s with zl := { s.zl with links := (s.newFlit l vc data).zl.links }, io := { s.io with out := s.io.out ++ [.flit l (k.newBytes f)] } }
      ∧ (s.newFlit l vc data).link l = k.sentNew f ∧ ∀ j, j ≠ l → (s.newFlit l vc data).link j = s.link j := by
  let k := s.link l
  let f := k.next vc s.fc.num data
  let k' : LinkS := { k with sent := (k.sent + 1) % 4096, tx := { k.tx with replay := k.tx.replay ++ [f] } }
  have own : (s.setLink l k').link l = k' := s.link_setLink_same l k'
  have e : s.newFlit l vc data = ((s.setLink l k').setLink l (k.sentNew f)).emit (.flit l (k.newBytes f)) := by
    change (s.setLink l k').putFlit l f = _
    unfold Mod.putFlit
    rw [own]
    rfl
  refine ⟨by rw [e]; rfl, ?_, fun j hj => ?_⟩
  · rw [e]
    exact Mod.link_setLink_same _ _ _
  · rw [e]
    exact (Mod.link_setLink_ne _ _ hj).trans (Mod.link_setLink_ne _ _ hj)

/-! ## Flits that are dropped -/

/-- A link that owes a NAK. -/
def LinkS.owesNak (k : LinkS) : LinkS := { k with tx := { k.tx with nak := true, owes := true } }

/-- What a link that dropped a flit answers. -/
theorem Mod.dropFlit_spec (s : Mod) {l : Nat} (up : (s.link l).st = .up) (hs : (s.link l).sent < 4096) :
    let k := s.link l
    let t := s.dropFlit l
    t = { s with stg := s.stg ++ [⟨0, none, none, .count .ZL_CRC_ERR l 1⟩], zl := { s.zl with links := t.zl.links }, io := { s.io with out := t.io.out } } ∧ (t.link l).expect = k.expect ∧ (t.link l).inbox = k.inbox
      ∧ (k.tx.replay.length < 128 → (∃ bytes, FlitSays bytes k.sent ((k.expect + 4095) % 4096) true ∧ t.io.out = s.io.out ++ [.flit l bytes]) ∧ (t.link l).tx.nak = false
        ∧ (t.link l).tx.replay.length = k.tx.replay.length + 1 ∧ (t.link l).sent = (k.sent + 1) % 4096)
      ∧ (128 ≤ k.tx.replay.length → t.io.out = s.io.out ∧ t.link l = k.owesNak) := by
  let k := s.link l
  let u := (s.countLater .ZL_CRC_ERR l 1).setLink l k.owesNak
  have own : u.link l = k.owesNak := Mod.link_setLink_same _ _ _
  have e : s.dropFlit l = if k.st = .up ∧ k.tx.replay.length < 128 then u.newFlit l 0 [] else u := by
    change u.answer l = _
    unfold Mod.answer
    rw [own]
    exact if_congr ⟨fun h => ⟨h.1, h.2.2⟩, fun h => ⟨h.1, rfl, h.2⟩⟩ rfl rfl
  intro k₀ t
  change t = _ at e
  by_cases room : k.tx.replay.length < 128
  · rw [if_pos ⟨up, room⟩] at e
    obtain ⟨rest, link, -⟩ := u.newFlit_spec l 0 []
    rw [own] at rest link
    have told := k.owesNak.flit_says (k.owesNak.next 0 u.fc.num []) hs (by decide : 0 < 4) (Nat.mod_lt _ (by decide)) (padded_length _)
    rw [← e] at rest link
    refine ⟨?_, by rw [link]; rfl, by rw [link]; rfl, fun _ => ⟨⟨_, told, ?_⟩, ?_, ?_, ?_⟩, fun full => absurd room (Nat.not_lt.2 full)⟩
    · rw [rest]
      rfl
    · rw [rest]
      rfl
    · rw [link]
      rfl
    · rw [link]
      exact List.length_append
    · rw [link]
      rfl
  · rw [if_neg fun h => room h.2] at e
    rw [e]
    exact ⟨rfl, by rw [own]; rfl, by rw [own]; rfl, fun h => absurd h room, fun _ => ⟨rfl, own⟩⟩

/-! ## What a link's position does not depend on -/

/-- From one state to another nothing is sent, and a link keeps its state, its numbers and whether it owes an answer. -/
structure Quiet (l : Nat) (s t : Mod) : Prop where
  out : t.io.out = s.io.out
  st : (t.link l).st = (s.link l).st
  expect : (t.link l).expect = (s.link l).expect
  sent : (t.link l).sent = (s.link l).sent
  owes : (t.link l).tx.owes = (s.link l).tx.owes

theorem Quiet.refl (l : Nat) (s : Mod) : Quiet l s s := ⟨rfl, rfl, rfl, rfl, rfl⟩

theorem Quiet.trans {l : Nat} {s t u : Mod} (h : Quiet l s t) (k : Quiet l t u) : Quiet l s u :=
  ⟨k.out.trans h.out, k.st.trans h.st, k.expect.trans h.expect, k.sent.trans h.sent, k.owes.trans h.owes⟩

theorem Quiet.foldl {α : Type} {l : Nat} {s t : Mod} {g : Mod → α → Mod} (h : Quiet l s t) (hg : ∀ t a, Quiet l t (g t a)) (as : List α) : Quiet l s (as.foldl g t) :=
  foldl_keeps (P := Quiet l s) (fun t a ht => ht.trans (hg t a)) as h

theorem Quiet.ite {l : Nat} {s t u : Mod} {c : Prop} [Decidable c] (h : Quiet l s t) (k : Quiet l s u) : Quiet l s (if c then t else u) := by
  split
  · exact h
  · exact k

/-- A link is quiet while the links and what is sent stay. -/
theorem Quiet.of_links (l : Nat) {s t : Mod} (links : t.zl.links = s.zl.links) (out : t.io.out = s.io.out) : Quiet l s t := by
  have e : t.link l = s.link l := congrArg (fun x : Tbl LinkS => x.getD l .zero) links
  exact ⟨out, by rw [e], by rw [e], by rw [e], by rw [e]⟩

/-- A link is quiet while one is set to a state with the same position. -/
theorem Mod.setLink_quiet (s : Mod) (l j : Nat) (v : LinkS) (st : v.st = (s.link j).st) (expect : v.expect = (s.link j).expect) (sent : v.sent = (s.link j).sent)
    (owes : v.tx.owes = (s.link j).tx.owes) : Quiet l s (s.setLink j v) := by
  by_cases h : l = j
  · subst h
    have e := s.link_setLink_same l v
    exact ⟨rfl, by rw [e, st], by rw [e, expect], by rw [e, sent], by rw [e, owes]⟩
  · have e := s.link_setLink_ne v h
    exact ⟨rfl, by rw [e], by rw [e], by rw [e], by rw [e]⟩

theorem Mod.stage_quiet (l : Nat) (s : Mod) (rank : Nat) (e : Eff) : Quiet l s (s.stage rank e) := .of_links l rfl rfl

theorem Mod.hubEvent_quiet (l : Nat) (s : Mod) (f p i n : Nat) : Quiet l s (s.hubEvent f p i n) := by
  obtain ⟨ob, e⟩ := s.event_eq f (4 + p) i n
  rw [Mod.hubEvent, e]
  exact .of_links l rfl rfl

theorem Mod.raise_quiet (l : Nat) (s : Mod) (f : Fld) (i : Nat) : Quiet l s (s.raise f i) := by
  unfold Mod.raise Mod.raiseBits
  split
  · exact .refl l s
  · exact .of_links l rfl rfl

theorem Mod.send_quiet (l : Nat) (s : Mod) (m : Msg) : Quiet l s (s.send m) := .of_links l rfl rfl

/-! ## Messages of a payload, and messages that are sent -/

theorem Mod.sendOn_quiet (l : Nat) (s : Mod) (j : Nat) (m : Msg) : Quiet l s (s.sendOn j m) := by
  unfold Mod.sendOn
  dsimp only
  refine Quiet.trans ?_ (Mod.hubEvent_quiet l _ _ _ _ _)
  exact s.setLink_quiet l j _ rfl rfl rfl rfl

theorem Mod.sendOne_quiet (l : Nat) (s : Mod) (m : Msg) : Quiet l s (s.sendOne m).1 := by
  unfold Mod.sendOne
  split
  · exact s.stage_quiet l _ _
  · exact s.setLink_quiet l 32 _ rfl rfl rfl rfl
  · dsimp only
    split
    · exact s.stage_quiet l _ _
    · split
      · exact .refl l s
      · exact (s.sendOn_quiet l _ m).trans (.of_links l rfl rfl)

theorem Mod.takeMsg_quiet (l : Nat) (s : Mod) (j : Nat) (m : Msg) : Quiet l s (s.takeMsg j m) := by
  have bad : Quiet l s (s.countLater .ZL_PROTO_ERR j 1) := s.stage_quiet l _ _
  unfold Mod.takeMsg
  dsimp only
  split
  · exact bad
  · split
    · exact bad
    · split
      · exact s.setLink_quiet l j _ rfl rfl rfl rfl
      · split
        · exact bad
        · split
          · exact s.send_quiet l _
          · exact bad

theorem Mod.loseMsgs_quiet (l : Nat) (s : Mod) (j : Nat) (ms : List Msg) : Quiet l s (s.loseMsgs j ms) := by
  unfold Mod.loseMsgs
  dsimp only
  split
  · exact .refl l s
  · exact (s.raise_quiet l _ j).trans (.of_links l rfl rfl)

theorem Mod.takePayload_quiet (l : Nat) (s : Mod) (j vc tag : Nat) (bs : List Byte) : Quiet l s (s.takePayload j vc tag bs) := by
  unfold Mod.takePayload
  dsimp only
  split
  · refine Quiet.trans ?_ (Mod.loseMsgs_quiet l _ _ _)
    refine Quiet.trans ?_ (Mod.stage_quiet l _ _ _)
    refine Quiet.trans ?_ (Mod.stage_quiet l _ _ _)
    exact s.setLink_quiet l j _ rfl rfl rfl rfl
  · refine Quiet.foldl ?_ (fun t m => t.takeMsg_quiet l j m) _
    refine Quiet.ite ?_ (Quiet.trans ?_ (Mod.stage_quiet l _ _ _))
    all_goals
      refine Quiet.ite ?_ (Quiet.foldl ?_ (fun t p => t.hubEvent_quiet l _ _ _ _) _)
      · exact s.setLink_quiet l j _ rfl rfl rfl rfl
      · exact s.setLink_quiet l j _ rfl rfl rfl rfl

/-! ## The acknowledgement goes out -/

/-- A link is UP and expects a number, and unless it still owes it, an acknowledgement of the number before has gone out since some point. -/
structure Acks (l e : Nat) (out : List Out) (s : Mod) : Prop where
  up : (s.link l).st = .up
  expect : (s.link l).expect = e
  sent : (s.link l).sent < 4096
  sends : ∃ rest, s.io.out = out ++ rest ∧ ((s.link l).tx.owes = false → ∃ bytes seq nak, .flit l bytes ∈ rest ∧ FlitSays bytes seq ((e + 4095) % 4096) nak)

theorem Acks.quiet {l e : Nat} {out : List Out} {s t : Mod} (h : Acks l e out s) (q : Quiet l s t) : Acks l e out t := by
  obtain ⟨rest, sends, acked⟩ := h.sends
  exact ⟨q.st.trans h.up, q.expect.trans h.expect, by rw [q.sent]; exact h.sent, rest, q.out.trans sends, fun owes => acked (q.owes.symm.trans owes)⟩

/-- A new flit of the link acknowledges, and one of another link leaves this one as it was. -/
theorem Acks.newFlit {l e : Nat} {out : List Out} {s : Mod} (h : Acks l e out s) (j : Nat) {vc : Nat} (data : List Byte) (hv : vc < 4) : Acks l e out (s.newFlit j vc data) := by
  obtain ⟨rest, sends, acked⟩ := h.sends
  obtain ⟨frame, own, others⟩ := s.newFlit_spec j vc data
  have told : ∀ b, (s.newFlit j vc data).io.out = s.io.out ++ [b] → (s.newFlit j vc data).io.out = out ++ (rest ++ [b]) := fun b hb => by rw [hb, sends, List.append_assoc]
  by_cases hj : l = j
  · subst hj
    have f := (s.link l).flit_says ((s.link l).next vc s.fc.num data) h.sent hv (Nat.mod_lt _ (by decide)) (padded_length data)
    rw [h.expect] at f
    refine ⟨?_, ?_, ?_, _, told _ (congrArg (fun m : Mod => m.io.out) frame), fun _ => ⟨_, _, _, List.mem_append_right _ (List.mem_singleton.2 rfl), f⟩⟩
    · rw [own]
      exact h.up
    · rw [own]
      exact h.expect
    · rw [own]
      exact Nat.mod_lt _ (by decide)
  · have same := others l hj
    refine ⟨same ▸ h.up, same ▸ h.expect, same ▸ h.sent, _, told _ (congrArg (fun m : Mod => m.io.out) frame), fun owes => ?_⟩
    obtain ⟨bytes, seq, nak, there, f⟩ := acked (same ▸ owes)
    exact ⟨bytes, seq, nak, List.mem_append_left _ there, f⟩

theorem LinkS.nextVc_lt {k : LinkS} {v : Nat} (h : k.nextVc = some v) : v < 4 := by
  have there := List.mem_of_find?_eq_some h
  split at there
  · have : v = 0 ∨ v = 1 ∨ v = 3 ∨ v = 2 := by simpa using there
    omega
  · have : v = 0 ∨ v = 1 ∨ v = 2 ∨ v = 3 := by simpa using there
    omega

theorem Acks.flushLink {l e : Nat} {out : List Out} (j n : Nat) {s : Mod} (h : Acks l e out s) : Acks l e out (Mod.flushLink j n s) := by
  induction n generalizing s with
  | zero => exact h
  | succ n ih =>
    unfold Mod.flushLink
    dsimp only
    split
    · exact h
    · split
      · exact h
      · next v hv =>
        refine ih (Acks.newFlit (h.quiet ?_) j _ (LinkS.nextVc_lt hv))
        refine Quiet.foldl ?_ (fun t p => Quiet.ite (.refl l t) (t.hubEvent_quiet l _ _ _ _)) _
        exact s.setLink_quiet l j _ rfl rfl rfl rfl

theorem Acks.pump {l e : Nat} {out : List Out} {s : Mod} (h : Acks l e out s) : Acks l e out s.pump := by
  refine foldl_keeps (P := Acks l e out) (fun t j ht => ht.flushLink j 128) _ ?_
  refine h.quiet (Quiet.foldl ?_ (fun t m => ?_) _)
  · exact .of_links l rfl rfl
  dsimp only
  split
  · exact .of_links l rfl rfl
  · have one := t.sendOne_quiet l m
    split
    · next u heq =>
      rw [heq] at one
      exact one
    · next u heq =>
      rw [heq] at one
      exact one.trans (.of_links l rfl rfl)

/-- What a link still owes goes out, as far as there is a place. -/
theorem Acks.answer {l e : Nat} {out : List Out} {s : Mod} (h : Acks l e out s) : Acks l e out (s.answer l) ∧ (((s.answer l).link l).tx.owes = true → 128 ≤ ((s.answer l).link l).tx.replay.length) := by
  unfold Mod.answer
  dsimp only
  split
  · refine ⟨h.newFlit l _ (by decide), fun owes => ?_⟩
    rw [(s.newFlit_spec l 0 []).2.1] at owes
    cases owes
  · next none => exact ⟨h, fun owes => Nat.not_lt.1 fun room => none ⟨h.up, owes, room⟩⟩

/-- The acknowledgement and the credits of a header that is no NAK leave the link's position. -/
theorem Mod.takeHeader_quiet (l : Nat) (s : Mod) {h : Nat} (ack : h.testBit 53 = false) : Quiet l s (s.takeHeader l h) := by
  unfold Mod.takeHeader
  simp only [ack, Bool.false_eq_true, if_false]
  refine s.setLink_quiet l l _ ?_ ?_ ?_ ?_
  all_goals
    split <;> rfl

/-! ## A flit is received -/

/-- The module once the corrections of a flit are counted. -/
def Mod.corrected (s : Mod) (l c : Nat) : Mod := if c = 0 then s else s.countLater .ZL_FEC_CORR l c

theorem Mod.corrected_eq (s : Mod) (l c : Nat) : s.corrected l c = { s with stg := s.stg ++ if c = 0 then [] else [⟨0, none, none, .count .ZL_FEC_CORR l c⟩] } := by
  unfold Mod.corrected
  split
  · rw [List.append_nil]
  · rfl

theorem flit_exec {l : Fin 32} {flit : List Byte} {s : State} (c : Nat) (up : (s.m.link l).st = .up) (len : flit.length = 256) :
    exec (.flitReceive l flit c) s = .next { s with m := s.m.takeFlit l flit c } := State.when_true _ (by rw [up, len]; rfl)

/-- A flit is dropped where its check fails, or it is not the next. -/
theorem Mod.takeFlit_drops {s : Mod} {l c : Nat} {flit : List Byte} (h : crc32c (flit.take 240) ≠ leNat ((flit.drop 240).take 4)
      ∨ (leNat (flit.take 8) / 2 ^ 18 % 2 ^ 11 = 0 ∧ leNat (flit.take 8) / 2 ^ 29 % 4096 ≠ (s.link l).expect)) : s.takeFlit l flit c = (s.corrected l c).dropFlit l := by
  have link : (s.corrected l c).link l = s.link l := by rw [Mod.corrected_eq]; rfl
  have e : s.takeFlit l flit c = _ := rfl
  rw [e]
  by_cases bad : crc32c (flit.take 240) ≠ leNat ((flit.drop 240).take 4)
  · exact if_pos bad
  · obtain ⟨plain, other⟩ := h.resolve_left bad
    refine (if_neg bad).trans ((if_neg (not_not.2 plain)).trans (if_pos ?_))
    change leNat (flit.take 8) / 2 ^ 29 % 4096 ≠ ((s.corrected l c).link l).expect
    rwa [link]

/-- A flit with a reserved bit set is counted. -/
theorem Mod.takeFlit_reserved {s : Mod} {l c : Nat} {flit : List Byte} (good : crc32c (flit.take 240) = leNat ((flit.drop 240).take 4)) (set : leNat (flit.take 8) / 2 ^ 18 % 2 ^ 11 ≠ 0) :
    s.takeFlit l flit c = (s.corrected l c).countLater .ZL_PROTO_ERR l 1 :=
  (if_neg (not_not.2 good)).trans (if_pos set)

/-- The link that has taken a flit in sequence, before its header and its payload. -/
def LinkS.taken (k : LinkS) (back : List Nat) : LinkS := { k with expect := (k.expect + 1) % 4096, tx := { k.tx with back := back, owes := true } }

/-- A flit in sequence. -/
theorem Mod.takeFlit_next {s : Mod} {l c : Nat} {flit : List Byte} (good : crc32c (flit.take 240) = leNat ((flit.drop 240).take 4)) (plain : leNat (flit.take 8) / 2 ^ 18 % 2 ^ 11 = 0)
    (next : leNat (flit.take 8) / 2 ^ 29 % 4096 = (s.link l).expect) :
    ∃ back vc tag data, s.takeFlit l flit c =
      let t := ((s.corrected l c).setLink l ((s.link l).taken back)).takeHeader l (leNat (flit.take 8))
      if (t.link l).st ≠ .up then t else ((t.takePayload l vc tag data).pump).answer l := by
  have link : (s.corrected l c).link l = s.link l := by rw [Mod.corrected_eq]; rfl
  have same : ¬ (bits (leNat (flit.take 8)) 40 29 ≠ ((s.corrected l c).link l).expect) := by
    rw [link]
    exact not_not.2 next
  have e : s.takeFlit l flit c = _ := (if_neg (not_not.2 good)).trans ((if_neg (not_not.2 plain)).trans (if_neg same))
  rw [e, ← link]
  exact ⟨_, _, _, _, rfl⟩

/-- Settles O35: a flit that is dropped, one with a reserved bit, and the next in sequence. -/
theorem flitsAreAcknowledgedInSequence : Obligations.FlitsAreAcknowledgedInSequence := by
  intro l flit c s up len expects sends k h good fixed count
  have run := flit_exec c up len
  have link : (s.m.corrected l c).link l = k := by rw [Mod.corrected_eq]; rfl
  refine ⟨fun drop => ?_, fun check set => ?_, fun check plain ack next => ?_⟩
  · rw [Mod.takeFlit_drops drop] at run
    obtain ⟨rest, expect, inbox, answers, full⟩ := (s.m.corrected l c).dropFlit_spec (l := l) (by rw [link]; exact up) (by rw [link]; exact sends)
    rw [link] at expect inbox answers full
    rw [Mod.corrected_eq] at run rest expect inbox answers full
    exact ⟨_, run, rfl, rest, expect, inbox, answers, full⟩
  · rw [run, Mod.takeFlit_reserved check set, Mod.corrected_eq]
    rfl
  · obtain ⟨back, vc, tag, data, e⟩ := Mod.takeFlit_next (c := c) check plain next
    let t := ((s.m.corrected l c).setLink l (k.taken back)).takeHeader l h
    have own : ((s.m.corrected l c).setLink l (k.taken back)).link l = k.taken back := Mod.link_setLink_same _ _ _
    have start : Acks l ((k.expect + 1) % 4096) s.m.io.out ((s.m.corrected l c).setLink l (k.taken back)) := by
      refine ⟨by rw [own]; exact up, by rw [own]; rfl, by rw [own]; exact sends, [], ?_, ?_⟩
      · rw [Mod.corrected_eq]
        exact (List.append_nil _).symm
      · rw [own]
        exact nofun
    have headed : Acks l ((k.expect + 1) % 4096) s.m.io.out t := start.quiet (Mod.takeHeader_quiet l _ ack)
    obtain ⟨acks, owes⟩ := ((headed.quiet (t.takePayload_quiet l l vc tag data)).pump).answer
    have taken : s.m.takeFlit l flit c = ((t.takePayload l vc tag data).pump).answer l := e.trans (if_neg (not_not.2 headed.up))
    generalize ((t.takePayload l vc tag data).pump).answer l = u at taken acks owes
    rw [taken] at run
    obtain ⟨rest, out, acked⟩ := acks.sends
    refine ⟨_, rest, run, rfl, acks.expect, acks.up, out, owes, fun paid => ?_⟩
    have last : ((k.expect + 1) % 4096 + 4095) % 4096 = k.expect := by omega
    rw [last] at acked
    exact acked paid

end Sys2Proof.Machine
end

section
/-! SUPPORT. Messages of other modules reach their polder, ballots and close words are held, and SHARD and RESULT messages enter their bucket (09_gradient_exchange_and_update.md, 12_links_and_board.md):
what a bucket's header writes change, and that a bucket becomes another. -/

namespace Sys2Proof.Machine

/-! ## Delivery -/

theorem Mod.deliver_discards {s : Mod} {g : Msg} (f : Mod → Nat → Mod) (h : s.polderReset (g.dst % 4) = true ∨ s.polders ≤ g.dst % 4) : s.deliver g f = s := by
  unfold Mod.deliver
  dsimp only
  split
  · rfl
  · next up => exact if_pos (h.resolve_left up)

theorem Mod.deliver_refuses {s : Mod} {g : Msg} (f : Mod → Nat → Mod) (up : s.polderReset (g.dst % 4) = false) (there : g.dst % 4 < s.polders) (foreign : s.rankNames (g.dst % 4) g.src = false) :
    s.deliver g f = refusal s (g.dst % 4) := by
  unfold Mod.deliver
  dsimp only
  rw [up, foreign, if_neg Bool.false_ne_true, if_neg (Nat.not_le.2 there)]
  rfl

theorem Mod.deliver_reaches {s : Mod} {g : Msg} (f : Mod → Nat → Mod) (h : Delivered s g) : s.deliver g f = f s (g.dst % 4) := by
  obtain ⟨up, there, named⟩ := h
  unfold Mod.deliver
  dsimp only
  rw [up, named, if_neg Bool.false_ne_true, if_neg (Nat.not_le.2 there)]
  rfl

/-- What is done with the message that a row takes. -/
def onTook : Instr → Mod → Msg → Mod
  | .shard l => Mod.onShard l
  | .result l => Mod.onResult l
  | .ballot _ => Mod.onBallot
  | .close _ => Mod.onClose
  | .rowadd l => Mod.onRowadd l
  | .xfer l => Mod.onXfer l
  | _ => fun m _ => m

theorem onHeld_exec {s : State} {l j : Fin 32} {k : Nat} {g : Msg} {u : Mod} (f : Mod → Msg → Mod) (h : (s.m.popHeld l k).map (fun x => (l, x)) = some (j, g, u)) :
    s.onHeld l k f = .next { s with m := f u g } := by
  obtain ⟨x, there, e⟩ := Option.map_eq_some_iff.1 h
  cases e
  unfold State.onHeld
  rw [there]

theorem onMsg_exec {s : State} {l j : Fin 32} {k : Nat} {g : Msg} {u : Mod} (f : Mod → Msg → Mod) (h : (s.m.popMsg l k).map (fun x => (l, x)) = some (j, g, u)) :
    s.onMsg l k f = .next { s with m := f u g } := by
  obtain ⟨x, there, e⟩ := Option.map_eq_some_iff.1 h
  cases e
  unfold State.onMsg
  rw [there]

/-- A row with a message to take acts on the module without it. -/
theorem tookMsg_exec {i : Instr} {l : Fin 32} {g : Msg} {u : Mod} {s : State} (h : tookMsg s.m i = some (l, g, u)) : exec i s = .next { s with m := onTook i u g } := by
  unfold tookMsg at h
  split at h
  · exact onHeld_exec _ h
  · exact onHeld_exec _ h
  · exact onHeld_exec _ h
  · exact onHeld_exec _ h
  · exact onMsg_exec _ h
  · exact onMsg_exec _ h
  · cases h

/-- What a row does with a message is the business of the message's polder. -/
theorem tookMsg_delivers {i : Instr} {l : Fin 32} {g : Msg} {u : Mod} {s : State} (h : tookMsg s.m i = some (l, g, u)) : ∃ f, onTook i u g = u.deliver g f := by
  unfold tookMsg at h
  split at h
  · exact ⟨_, Mod.onShard.eq_def 0 u g⟩
  · exact ⟨_, Mod.onResult.eq_def _ u g⟩
  · exact ⟨_, Mod.onBallot.eq_def u g⟩
  · exact ⟨_, Mod.onClose.eq_def u g⟩
  · exact ⟨_, Mod.onRowadd.eq_def _ u g⟩
  · exact ⟨_, Mod.onXfer.eq_def _ u g⟩
  · cases h

theorem foreignMessages_noEffect : ForeignMessagesHaveNoEffect := by
  intro i l g u s took
  have run := tookMsg_exec took
  obtain ⟨f, e⟩ := tookMsg_delivers took
  rw [e] at run
  refine ⟨fun gone => ?_, fun up there foreign => ?_⟩
  · rw [run, Mod.deliver_discards f gone]
  · rw [run, Mod.deliver_refuses f up there foreign]

/-! ## Ballots and close words -/

/-- One polder's step becomes another, and every other's stays. -/
theorem Mod.mapStep_spec (s : Mod) {p : Nat} {st : Step} (f : Step → Step) (h : s.ue.steps.get p = some st) :
    s.mapStep p f = { s with ue := { s.ue with steps := (s.mapStep p f).ue.steps } } ∧ (∀ q, q ≠ p → (s.mapStep p f).ue.steps.get q = s.ue.steps.get q)
      ∧ (s.mapStep p f).ue.steps.get p = some (f st) := by
  refine ⟨rfl, fun q hq => (Tbl.get_map _ _ _).trans ?_, (Tbl.get_map _ _ _).trans ?_⟩
  · simp only [if_neg hq, Option.map_id']
  · simp only [h, Option.map_some, if_true]

theorem not_any_rank (l : List Heard) (r : Nat) : (!l.any fun h => h.rank == r) = true ↔ ∀ h ∈ l, h.rank ≠ r := by
  rw [Bool.not_eq_true', List.any_eq_false]
  exact forall₂_congr fun h _ => by rw [beq_iff_eq]

theorem ballots_held (l : Fin 32) (g : Msg) (u : Mod) (s : State) (st : Step) (r : Nat) (took : tookMsg s.m (.ballot l) = some (l, g, u)) (here : Delivered u g) (open_ : u.ue.steps.get (g.dst % 4) = some st)
    (rank : u.rankOf (g.dst % 4) g.src = some r) :
    let p := g.dst % 4
    let good := g.b = st.num ∧ u.fc.num ≤ st.opened + (u.rd .UE_VOTE_AT p).toNat ∧ (st.phase = .executing ∨ st.phase = .balloted) ∧ ∀ h ∈ st.ballots, h.rank ≠ r
    ∃ t, exec (.ballot l) s = .next t ∧ OnlyModule s t ∧ t.m = { u with ue := { u.ue with steps := t.m.ue.steps } } ∧ (∀ q, q ≠ p → t.m.ue.steps.get q = u.ue.steps.get q)
      ∧ (good → t.m.ue.steps.get p = some { st with ballots := st.ballots ++ [⟨r, g.a, u.fc.num⟩] }) ∧ (¬ good → t.m = u) := by
  intro p good
  have run := tookMsg_exec took
  have e : onTook (.ballot l) u g = if good then u.mapStep p fun st => { st with ballots := st.ballots ++ [Heard.mk r g.a u.fc.num] } else u := by
    refine (Mod.onBallot.eq_def u g).trans ((Mod.deliver_reaches _ here).trans ?_)
    rw [show u.stepOf (g.dst % 4) = some st from open_, rank]
    dsimp only
    exact if_congr (and_congr_right fun _ => and_congr_right fun _ => and_congr_right fun _ => not_any_rank _ _) rfl rfl
  rw [e] at run
  by_cases h : good
  · rw [if_pos h] at run
    obtain ⟨rest, others, own⟩ := u.mapStep_spec (fun st => { st with ballots := st.ballots ++ [Heard.mk r g.a u.fc.num] }) open_
    exact ⟨_, run, rfl, rest, others, fun _ => own, fun n => (n h).elim⟩
  · rw [if_neg h] at run
    exact ⟨_, run, rfl, rfl, fun _ _ => rfl, fun y => (h y).elim, fun _ => rfl⟩

theorem closeWords_held (l : Fin 32) (g : Msg) (u : Mod) (s : State) (st : Step) (r : Nat) (took : tookMsg s.m (.close l) = some (l, g, u)) (here : Delivered u g) (open_ : u.ue.steps.get (g.dst % 4) = some st)
    (rank : u.rankOf (g.dst % 4) g.src = some r) :
    let p := g.dst % 4
    let good := g.b = st.num ∧ ∀ h ∈ st.closes, h.rank ≠ r
    ∃ t, exec (.close l) s = .next t ∧ OnlyModule s t ∧ t.m = { u with ue := { u.ue with steps := t.m.ue.steps } } ∧ (∀ q, q ≠ p → t.m.ue.steps.get q = u.ue.steps.get q)
      ∧ (good → t.m.ue.steps.get p = some { st with closes := st.closes ++ [⟨r, g.a, u.fc.num⟩] }) ∧ (¬ good → t.m = u) := by
  intro p good
  have run := tookMsg_exec took
  have e : onTook (.close l) u g = if good then u.mapStep p fun st => { st with closes := st.closes ++ [Heard.mk r g.a u.fc.num] } else u := by
    refine (Mod.onClose.eq_def u g).trans ((Mod.deliver_reaches _ here).trans ?_)
    rw [show u.stepOf (g.dst % 4) = some st from open_, rank]
    dsimp only
    exact if_congr (and_congr_right fun _ => not_any_rank _ _) rfl rfl
  rw [e] at run
  by_cases h : good
  · rw [if_pos h] at run
    obtain ⟨rest, others, own⟩ := u.mapStep_spec (fun st => { st with closes := st.closes ++ [Heard.mk r g.a u.fc.num] }) open_
    exact ⟨_, run, rfl, rest, others, fun _ => own, fun n => (n h).elim⟩
  · rw [if_neg h] at run
    exact ⟨_, run, rfl, rfl, fun _ _ => rfl, fun y => (h y).elim, fun _ => rfl⟩

/-- Settles O36: foreign messages, ballots and close words. -/
theorem messagesOfPeersAreHeldOrIgnored : Obligations.MessagesOfPeersAreHeldOrIgnored :=
  ⟨foreignMessages_noEffect, ballots_held, closeWords_held⟩

end Sys2Proof.Machine
end

section
/-! SUPPORT. A bucket becomes another: what the write of its header changes, and the points of its life (09_gradient_exchange_and_update.md R244 to R253). -/

namespace Sys2Proof.Machine

/-! ## Writes of buckets -/

/-- Of the memory system only bytes, their poison, the pages and the checkpoints differ. -/
structure BytesMoved (s t : Mod) : Prop where
  only : OnlyBytes s t

theorem BytesMoved.refl (s : Mod) : BytesMoved s s := ⟨rfl⟩

theorem BytesMoved.trans {s t u : Mod} (h : BytesMoved s t) (k : BytesMoved t u) : BytesMoved s u := by
  obtain ⟨h⟩ := h
  obtain ⟨k⟩ := k
  constructor
  unfold OnlyBytes at *
  rw [k, h]

theorem BytesMoved.foldl {α : Type} {s t : Mod} {g : Mod → α → Mod} (h : BytesMoved s t) (hg : ∀ t a, BytesMoved t (g t a)) (as : List α) : BytesMoved s (as.foldl g t) :=
  foldl_keeps (P := BytesMoved s) (fun t a ht => ht.trans (hg t a)) as h

theorem BytesMoved.ite {s t u : Mod} {c : Prop} [Decidable c] (h : BytesMoved s t) (k : BytesMoved s u) : BytesMoved s (if c then t else u) := by
  split
  · exact h
  · exact k

theorem Mod.putHead_bytes (s : Mod) (p obj off v : Nat) : BytesMoved s (s.putHead p obj off v) := by
  unfold Mod.putHead
  split
  · exact ⟨rfl⟩
  · exact .refl s

theorem Mod.copyBytes_bytes (s : Mod) (p src dst n : Nat) : BytesMoved s (s.copyBytes p src dst n) := ⟨rfl⟩

theorem Mod.markSubs_bytes (s : Mod) (k : Ckpt) (is : List Nat) : BytesMoved s (s.markSubs k is) := ⟨rfl⟩

theorem Mod.copySubs_bytes (s : Mod) (k : Ckpt) (is : List Nat) : BytesMoved s (s.copySubs k is) := by
  unfold Mod.copySubs
  dsimp only
  split
  · exact .refl s
  · refine BytesMoved.ite (.refl s) ?_
    refine BytesMoved.trans ?_ (Mod.markSubs_bytes _ _ _)
    refine BytesMoved.trans ?_ (Mod.putHead_bytes _ _ _ _ _)
    exact BytesMoved.foldl (.refl s) (fun t _ => t.copyBytes_bytes _ _ _ _) _

theorem Mod.writeNow_bytes (s : Mod) (p : Nat) (cells : List WCell) : BytesMoved s (s.writeNow p cells) := by
  have saved (addrs : List Nat) : BytesMoved s (s.saveFirst p addrs) := BytesMoved.foldl (.refl s) (fun t k => BytesMoved.ite (.refl t) (t.copySubs_bytes k _)) _
  have put (t : Mod) : BytesMoved t (t.putMem p cells) := ⟨rfl⟩
  unfold Mod.writeNow
  exact BytesMoved.ite ((saved _).trans (put _)) (((saved _).trans (put _)).trans ⟨rfl⟩)

/-- Two states that agree but in what a write of the hub's buckets changes: bytes of device memory, the flag of a conflict of writes, and what is staged. -/
structure OnlyWritten (s t : Mod) : Prop where
  rest : t = { s with mem := t.mem, rf := { s.rf with flags := t.rf.flags }, stg := t.stg }
  bytes : BytesMoved s t

theorem OnlyWritten.refl (s : Mod) : OnlyWritten s s := ⟨rfl, .refl s⟩

theorem OnlyWritten.rd {s t : Mod} (h : OnlyWritten s t) (r : RegName) (i : Nat) : t.rd r i = s.rd r i := by
  rw [h.rest]
  rfl

theorem OnlyWritten.trans {s t u : Mod} (h : OnlyWritten s t) (k : OnlyWritten t u) : OnlyWritten s u := ⟨by rw [k.rest, h.rest], h.bytes.trans k.bytes⟩

theorem OnlyWritten.foldl {α : Type} {s t : Mod} {g : Mod → α → Mod} (h : OnlyWritten s t) (hg : ∀ t a, OnlyWritten t (g t a)) (as : List α) : OnlyWritten s (as.foldl g t) :=
  foldl_keeps (P := OnlyWritten s) (fun t a ht => ht.trans (hg t a)) as h

theorem Mod.writeNow_written (s : Mod) (p : Nat) (cells : List WCell) : OnlyWritten s (s.writeNow p cells) where
  rest := by rw [s.writeNow_onlyMemory p cells]
  bytes := s.writeNow_bytes p cells

/-- A late write of device memory. -/
theorem Mod.writeLate_written (s : Mod) (rank p : Nat) (cells : List WCell) : OnlyWritten s (s.writeLate ⟨rank, none, none, .mem p cells⟩) := by
  unfold Mod.writeLate
  dsimp only
  refine OnlyWritten.foldl (OnlyWritten.trans ?_ (Mod.writeNow_written _ p cells)) (fun t w => ?_) _
  · split
    · unfold Mod.raise Mod.raiseBits
      split
      · exact .refl s
      · exact ⟨rfl, ⟨rfl⟩⟩
    · exact .refl s
  · split
    · split
      · exact .refl t
      · exact t.writeNow_written _ _
    · exact .refl t

/-- In the frame that runs a bucket's write is staged. -/
theorem Mod.writeAt_staged {s : Mod} (p : Nat) (cells : List WCell) (h : s.fc.window = none) : s.writeAt p cells = { s with stg := s.stg ++ [⟨rankBucket, none, none, .mem p cells⟩] } := by
  unfold Mod.writeAt
  rw [h]
  rfl

theorem Mod.writeAt_written (s : Mod) (p : Nat) (cells : List WCell) : OnlyWritten s (s.writeAt p cells) := by
  unfold Mod.writeAt
  split
  · exact ⟨rfl, ⟨rfl⟩⟩
  · exact s.writeLate_written _ p cells

/-! ## A polder's buckets -/

theorem Mod.bkts_setBkts (s : Mod) (p : Nat) (l : List Bucket) : (s.setBkts p l).bkts p = l := by
  unfold Mod.setBkts Mod.bkts
  dsimp only
  split
  · next none =>
    rw [Tbl.getD_del_same]
    exact (List.isEmpty_iff.1 none).symm
  · exact Tbl.getD_set_same _ _ _ _

/-- A polder's bucket with another's number becomes that one. -/
def putBkt (l : List Bucket) (b : Bucket) : List Bucket := l.map fun x => if x.num = b.num then b else x

/-- The polder's buckets are others, with their headers written, and observation aside nothing else changed. -/
structure Rebucketed (s t : Mod) (p : Nat) (l : List Bucket) : Prop where
  rest : t = { s with ue := { s.ue with buckets := t.ue.buckets }, mem := t.mem, rf := t.rf, stg := t.stg, ob := t.ob }
  bytes : BytesMoved s t
  bkts : t.bkts p = l

theorem Rebucketed.trans {s t u : Mod} {p : Nat} {l k : List Bucket} (h : Rebucketed s t p l) (g : Rebucketed t u p k) : Rebucketed s u p k :=
  ⟨by rw [g.rest, h.rest], h.bytes.trans g.bytes, g.bkts⟩

theorem Rebucketed.cq {s t : Mod} {p : Nat} {l : List Bucket} (h : Rebucketed s t p l) : t.cq = s.cq := by rw [h.rest]

theorem Rebucketed.wr {s t : Mod} {p : Nat} {l : List Bucket} (h : Rebucketed s t p l) : t.wr = s.wr := by rw [h.rest]

theorem Rebucketed.written {s t u : Mod} {p : Nat} {l : List Bucket} (h : Rebucketed s t p l) (g : OnlyWritten t u) : Rebucketed s u p l where
  rest := by rw [g.rest, h.rest]
  bytes := h.bytes.trans g.bytes
  bkts := by
    rw [g.rest]
    exact h.bkts

theorem OnlyWritten.rebucketed {s t u : Mod} {p : Nat} {l : List Bucket} (h : OnlyWritten s t) (g : Rebucketed t u p l) : Rebucketed s u p l where
  rest := by rw [g.rest, h.rest]
  bytes := h.bytes.trans g.bytes
  bkts := g.bkts

theorem OnlyWritten.bkts {s t : Mod} (h : OnlyWritten s t) (p : Nat) : t.bkts p = s.bkts p := by
  rw [h.rest]
  rfl

theorem Mod.setBkts_rebucketed (s : Mod) (p : Nat) (l : List Bucket) : Rebucketed s (s.setBkts p l) p l := ⟨rfl, ⟨rfl⟩, s.bkts_setBkts p l⟩

theorem Mod.setBkt_rebucketed (s : Mod) (p : Nat) (b : Bucket) : Rebucketed s (s.setBkt p b) p (putBkt (s.bkts p) b) :=
  (s.setBkts_rebucketed p _).written (Mod.writeAt_written _ p b.cells)

/-- In the frame that runs a bucket changes and its header's write is staged. -/
theorem Mod.setBkt_staged {s : Mod} (p : Nat) (b : Bucket) (h : s.fc.window = none) :
    s.setBkt p b = { s.setBkts p (putBkt (s.bkts p) b) with stg := s.stg ++ [⟨rankBucket, none, none, .mem p b.cells⟩] } :=
  Mod.writeAt_staged (s := s.setBkts p (putBkt (s.bkts p) b)) p b.cells h

/-- A point in a bucket's life waits for the frame's own sluice. -/
theorem Mod.noteBkt_now {s : Mod} {f : Nat} (p : Nat) (b : Bucket) (i n : Nat) (h : s.fc.num = f) : ∃ ob, s.noteBkt p f b i n = { s with ob := ob } := by
  subst h
  unfold Mod.noteBkt Mod.hubEvent
  rw [Mod.note_now]
  obtain ⟨ob, e⟩ := Mod.event_eq { s with ob := { s.ob with traces := (s.note p s.fc.num (.of 8 (5 * 65536) b.num b.status (((s.ue.steps.get p).map (·.num)).getD 0) 0)).ob.traces } } s.fc.num (4 + p) i n
  exact ⟨ob, e⟩

/-- A bucket of the step has no command that ends with it. -/
theorem Mod.endReduce_step (s : Mod) (p f status : Nat) {b : Bucket} (h : b.owner = none) : s.endReduce p f status b = s := by
  unfold Mod.endReduce
  rw [h]

/-! ## FINAL -/

/-- Whether a bucket that was not FINAL is so now: its own stage 1 is complete, and every element is present, or of no elements every other member's header and its own (R248, R252). -/
def Bucket.whole (b : Bucket) (members : Nat) : Bool :=
  !(b.final || !b.s1done || decide ((b.present.map (·.2)).sum < b.elems) || b.elems == 0 && (decide (b.present.length + 1 < members) || decide (1 < members) && !b.ownDone))

/-- A bucket of the step, FINAL once it is whole. -/
def Bucket.settled (b : Bucket) (members f : Nat) : Bucket := if b.whole members then { b with final := true, finalAt := some f, sum := [], got := [] } else b

theorem Bucket.whole_iff {b : Bucket} (members : Nat) (h : b.final = false) :
    b.whole members = true ↔ b.s1done = true ∧ b.elems ≤ (b.present.map (·.2)).sum ∧ (b.elems = 0 → members ≤ b.present.length + 1 ∧ (1 < members → b.ownDone = true)) := by
  unfold Bucket.whole
  simp only [h, Bool.false_or, Bool.not_or, Bool.not_not, Bool.and_eq_true, Bool.not_eq_true', decide_eq_false_iff_not, Nat.not_lt, Bool.and_eq_false_iff, beq_eq_false_iff_ne,
    Bool.or_eq_false_iff, and_assoc, Bool.not_eq_false']
  refine and_congr_right fun _ => and_congr_right fun _ => ?_
  refine (or_congr Iff.rfl ⟨?_, ?_⟩).trans imp_iff_not_or.symm
  · rintro ⟨a, b | b⟩
    · exact ⟨a, fun c => absurd c (Nat.not_lt.2 b)⟩
    · exact ⟨a, fun _ => b⟩
  · rintro ⟨a, c⟩
    exact ⟨a, or_iff_not_imp_left.2 fun n => c (Nat.not_le.1 n)⟩

theorem Bucket.settled_final {b : Bucket} (members f : Nat) (h : b.final = false) : (b.settled members f).final = b.whole members := by
  unfold Bucket.settled
  split
  · next e => exact e.symm
  · next e => rw [h, Bool.not_eq_true _ |>.mp e]

theorem Bucket.settled_finalAt {b : Bucket} (members f : Nat) (h : b.whole members = true) : (b.settled members f).finalAt = some f := by
  unfold Bucket.settled
  rw [if_pos h]

/-- What FINAL changes in a bucket. -/
theorem Bucket.settled_rest (b : Bucket) (members f : Nat) :
    b.settled members f = { b with final := (b.settled members f).final, finalAt := (b.settled members f).finalAt, sum := (b.settled members f).sum, got := (b.settled members f).got } := by
  unfold Bucket.settled
  split <;> rfl

theorem Bucket.settled_same {b : Bucket} {members : Nat} (f : Nat) (h : b.whole members = false) : b.settled members f = b := by
  unfold Bucket.settled
  rw [h]
  rfl

/-- A bucket of the step is settled at the frame's own sluice. -/
theorem Mod.bktFinal_eq {s : Mod} {f : Nat} (p : Nat) {b : Bucket} (step : b.owner = none) (now : s.fc.num = f) : ∃ ob, s.bktFinal p f b = { s.setBkt p (b.settled (s.members p) f) with ob := ob } := by
  unfold Mod.bktFinal Bucket.settled
  by_cases h : b.whole (s.members p) = true
  · rw [if_pos h]
    rw [Bucket.whole, Bool.not_eq_true'] at h
    rw [h, if_neg Bool.false_ne_true]
    dsimp only
    rw [step]
    have num : (s.setBkt p { b with final := true, finalAt := some f, sum := [], got := [], state := b.state, owner := none }).fc.num = f := by
      rw [(Mod.setBkt_rebucketed s p _).rest]
      exact now
    obtain ⟨ob, e⟩ := Mod.noteBkt_now p { b with final := true, finalAt := some f, sum := [], got := [], state := b.state, owner := none } 6 1 num
    refine ⟨ob, (Mod.endReduce_step _ p f _ rfl).trans ?_⟩
    exact e
  · rw [if_neg h]
    rw [Bucket.whole, Bool.not_eq_true', Bool.not_eq_false] at h
    rw [h, if_pos rfl]
    exact ⟨_, rfl⟩

end Sys2Proof.Machine
end

section
/-! SUPPORT. SHARD and RESULT messages enter their bucket; REDUCE declares its bucket, buckets close, and stage one makes the polder's sum (09_gradient_exchange_and_update.md, 11_command_reference.md). -/

namespace Sys2Proof.Machine

/-! ## SHARD and RESULT -/

/-- A bucket that a member's contribution to its polder's shard has entered. -/
def Bucket.shardTaken (b : Bucket) (g : Msg) (r len f : Nat) : Bucket :=
  { b with got := b.got ++ [⟨r, g.b % 2 ^ 40, msgCodes b g len, f⟩], contrib := b.contrib ||| 2 ^ r, nonfinite := b.nonfinite || g.a.testBit 13, sat := b.sat || g.a.testBit 12 }

/-- A bucket that the codes of a reduced shard have entered, from an element on. -/
def Bucket.resultTaken (b : Bucket) (g : Msg) (first : Nat) (codes : List Nat) : Bucket :=
  { b.orBits g with present := if (codes.isEmpty ∧ b.elems ≠ 0) ∨ b.present.any (fun x => x.1 == first) then b.present else b.present ++ [(first, codes.length)] }

theorem Mod.onShard_eq {u : Mod} (l : Nat) {g : Msg} {b : Bucket} {r : Nat} (here : Delivered u g) (bkt : u.msgBkt (g.dst % 4) g = some b) (rank : u.rankOf (g.dst % 4) g.src = some r)
    (own : bits g.a 19 14 = u.rank (g.dst % 4)) :
    u.onShard l g = u.setBkt (g.dst % 4) (b.shardTaken g r (shardOf b.elems (u.members (g.dst % 4)) (u.rank (g.dst % 4))).2 u.fc.num) := by
  refine (Mod.onShard.eq_def l u g).trans ((Mod.deliver_reaches _ here).trans ?_)
  rw [bkt, rank]
  dsimp only
  rw [if_neg (not_not.2 own)]
  rfl

theorem Mod.onResult_eq {u : Mod} (l : Nat) {g : Msg} {b : Bucket} {r : Nat} (here : Delivered u g) (bkt : u.msgBkt (g.dst % 4) g = some b) (rank : u.rankOf (g.dst % 4) g.src = some r)
    (own : bits g.a 19 14 = r) :
    let p := g.dst % 4
    let x := shardOf b.elems (u.members p) r
    let codes := msgCodes b g x.2
    let first := if b.elems = 0 then r else x.1 + g.b % 2 ^ 40
    u.onResult l g = (u.stage (rankLink l) (.mem p (wcells (b.addr + 64 + first * b.fmt.unitBytes) (b.payload codes)))).bktFinal p u.fc.num (b.resultTaken g first codes) := by
  refine (Mod.onResult.eq_def l u g).trans ((Mod.deliver_reaches _ here).trans ?_)
  rw [bkt, rank]
  dsimp only
  rw [if_neg (not_not.2 own)]
  rfl

theorem msgBkt_final {u : Mod} {p : Nat} {g : Msg} {b : Bucket} (h : u.msgBkt p g = some b) : b.final = false := by
  have good := List.find?_some h
  simp only [Bool.and_eq_true, Bool.not_eq_true'] at good
  obtain ⟨⟨_, final⟩, _⟩ := good
  exact final

theorem shards_enter (l : Fin 32) (g : Msg) (u : Mod) (s : State) (b : Bucket) (r : Nat) (took : tookMsg s.m (.shard l) = some (l, g, u)) (here : Delivered u g) :
    let p := g.dst % 4
    u.msgBkt p g = some b → u.rankOf p g.src = some r → g.a / 2 ^ 14 % 64 = u.rank p → u.fc.window = none →
    let len := (u.rank p + 1) * b.elems / u.members p - u.rank p * b.elems / u.members p
    ∃ t b', exec (.shard l) s = .next t ∧ OnlyModule s t ∧ t.m.bkts p = (u.bkts p).map (fun x => if x.num = b.num then b' else x)
      ∧ b' = { b with got := b.got ++ [⟨r, g.b % 2 ^ 40, msgCodes b g len, u.fc.num⟩], contrib := b.contrib ||| 2 ^ r, nonfinite := b.nonfinite || g.a.testBit 13, sat := b.sat || g.a.testBit 12 }
      ∧ t.m.stg = u.stg ++ [⟨rankBucket, none, none, .mem p b'.cells⟩] ∧ t.m.cq = u.cq ∧ t.m.rf = u.rf := by
  intro p bkt rank own frame len
  have run := tookMsg_exec took
  rw [show onTook (.shard l) u g = _ from (Mod.onShard_eq l here bkt rank own).trans (Mod.setBkt_staged p _ frame)] at run
  exact ⟨_, b.shardTaken g r len u.fc.num, run, rfl, u.bkts_setBkts p _, rfl, rfl, rfl, rfl⟩

/-- Codes enter a bucket's present elements unless there are none of them, or they are there. -/
theorem Bucket.resultTaken_present (b : Bucket) (g : Msg) (first : Nat) (codes : List Nat) :
    (b.resultTaken g first codes).present = if (codes = [] ∧ b.elems ≠ 0) ∨ (∃ x ∈ b.present, x.1 = first) then b.present else b.present ++ [(first, codes.length)] := by
  refine if_congr (or_congr (and_congr_left fun _ => List.isEmpty_iff) ?_) rfl rfl
  simp only [List.any_eq_true, beq_iff_eq]

theorem results_enter (l : Fin 32) (g : Msg) (u : Mod) (s : State) (b : Bucket) (r : Nat) (took : tookMsg s.m (.result l) = some (l, g, u)) (here : Delivered u g) :
    let p := g.dst % 4
    u.msgBkt p g = some b → u.rankOf p g.src = some r → g.a / 2 ^ 14 % 64 = r → b.owner = none →
    let a := r * b.elems / u.members p
    let codes := msgCodes b g ((r + 1) * b.elems / u.members p - a)
    let first := if b.elems = 0 then r else a + g.b % 2 ^ 40
    ∃ t b' rest, exec (.result l) s = .next t ∧ OnlyModule s t ∧ t.m.bkts p = (u.bkts p).map (fun x => if x.num = b.num then b' else x)
      ∧ (u.fc.window = none → t.m.stg = u.stg ++ ⟨2 ^ 81 + l, none, none, .mem p (wcells (b.addr + 64 + first * b.fmt.unitBytes) (b.payload codes))⟩ :: rest)
      ∧ b'.present = (if (codes = [] ∧ b.elems ≠ 0) ∨ (∃ x ∈ b.present, x.1 = first) then b.present else b.present ++ [(first, codes.length)])
      ∧ (b'.final = true ↔ b.s1done = true ∧ b.elems ≤ (b'.present.map (·.2)).sum ∧ (b.elems = 0 → u.members p ≤ b'.present.length + 1 ∧ (1 < u.members p → b.ownDone = true)))
      ∧ (b'.final = true → b'.finalAt = some u.fc.num) ∧ t.m.cq = u.cq := by
  intro p bkt rank own step a codes first
  have run := tookMsg_exec took
  let taken := b.resultTaken g first codes
  let v := u.stage (rankLink l) (.mem p (wcells (b.addr + 64 + first * b.fmt.unitBytes) (b.payload codes)))
  let b' := taken.settled (u.members p) u.fc.num
  have e : onTook (.result l) u g = v.bktFinal p u.fc.num taken := Mod.onResult_eq l here bkt rank own
  obtain ⟨ob, settled⟩ := Mod.bktFinal_eq (s := v) (f := u.fc.num) p (b := taken) step rfl
  have final : taken.final = false := msgBkt_final (b := b) bkt
  have num : b'.num = b.num := by rw [show b' = _ from taken.settled_rest _ _]; rfl
  have present : b'.present = taken.present := by rw [show b' = _ from taken.settled_rest _ _]
  have enter := v.setBkt_rebucketed p b'
  have cq : (v.setBkt p b').cq = u.cq := by
    rw [enter.rest]
    rfl
  rw [e, settled] at run
  refine ⟨_, b', [⟨rankBucket, none, none, .mem p b'.cells⟩], run, rfl, ?_, fun frame => ?_, ?_, ?_, fun f => ?_, ?_⟩
  · refine enter.bkts.trans ?_
    unfold putBkt
    rw [num]
    rfl
  · refine (congrArg (fun m : Mod => m.stg) (Mod.setBkt_staged (s := v) p b' frame)).trans ?_
    exact List.append_assoc _ _ _
  · rw [present]
    exact b.resultTaken_present g first codes
  · rw [present, show b'.final = taken.whole (u.members p) from taken.settled_final _ _ final]
    exact taken.whole_iff _ final
  · rw [show b'.final = taken.whole (u.members p) from taken.settled_final _ _ final] at f
    exact taken.settled_finalAt _ _ f
  · exact cq

/-- Settles O37: SHARD messages and RESULT messages. -/
theorem shardsAndResultsEnterTheirBucket : Obligations.ShardsAndResultsEnterTheirBucket := ⟨shards_enter, results_enter⟩

end Sys2Proof.Machine
end

section
/-! SUPPORT. REDUCE declares its bucket; buckets close, and stage one makes the polder's sum (09_gradient_exchange_and_update.md R248 to R252, R276, 11_command_reference.md R333). -/

namespace Sys2Proof.Machine

/-! ## Closing a bucket -/

theorem Mod.writeAt_rf {s : Mod} (p : Nat) (cells : List WCell) (h : s.fc.window = none) : (s.writeAt p cells).rf = s.rf := by
  rw [Mod.writeAt_staged p cells h]

theorem Mod.setBkt_rf {s : Mod} (p : Nat) (b : Bucket) (h : s.fc.window = none) : (s.setBkt p b).rf = s.rf := by
  rw [Mod.setBkt_staged p b h]
  rfl

/-- A bucket that closes at a sluice, with its stage 1 at another. -/
def Bucket.closing (b : Bucket) (f at_ : Nat) : Bucket := { b with state := 2, closed := some f, s1at := at_ }

/-- A bucket closes with its stage 1 within its bound, where there is room for one in flight. -/
theorem Mod.closeBkt_open {s : Mod} {p f : Nat} (num : Nat) (b : Bucket) (now : s.fc.num = f) (room : s.inFlight p < 256) :
    ∃ at_, f < at_ ∧ at_ ≤ f + (2 + ceilDiv b.bytes (1600 * s.budget)) ∧ Rebucketed s (s.closeBkt p f num b) p (putBkt (s.bkts p) (b.closing f at_))
      ∧ (s.fc.window = none → (s.closeBkt p f num b).rf = s.rf) := by
  obtain ⟨pos, le⟩ := spanOf_bounds (2 + ceilDiv b.bytes (1600 * s.budget)) (6 :: b.num :: s.placeOf b.owner.isNone p)
  obtain ⟨ob, e⟩ := Mod.noteBkt_now p { b with state := 2 } 8 b.bytes now
  have full : decide (256 ≤ s.inFlight p) = false := decide_eq_false (Nat.not_le.2 room)
  refine ⟨f + spanOf (2 + ceilDiv b.bytes (1600 * s.budget)) (6 :: b.num :: s.placeOf b.owner.isNone p), by omega, by omega, ?_, ?_⟩
  all_goals
    unfold Mod.closeBkt
    dsimp only
    rw [full, if_neg Bool.false_ne_true, e]
  · refine Rebucketed.written ?_ (Mod.writeAt_written _ _ _)
    have set := Mod.setBkt_rebucketed { s with ob := ob } p (b.closing f (f + spanOf (2 + ceilDiv b.bytes (1600 * s.budget)) (6 :: b.num :: s.placeOf b.owner.isNone p)))
    exact ⟨set.rest, ⟨set.bytes.only⟩, set.bkts⟩
  · intro frame
    refine (Mod.writeAt_rf _ _ ?_).trans (Mod.setBkt_rf (s := { s with ob := ob }) _ _ frame)
    rw [Mod.setBkt_staged (s := { s with ob := ob }) _ _ frame]
    exact frame

/-- A bucket that fails for want of room. -/
def Bucket.crowded (b : Bucket) (f : Nat) : Bucket := { b with state := 2, closed := some f, failed := true, cause := 2, sum := [], got := [] }

theorem Mod.bit_put_valid (s : Mod) (p : Nat) {v : Word} (h : bits v.toNat 31 31 = 1) : (s.put .UE_BKT_FIRST_FAIL p v).bit .UE_BKT_FIRST_FAIL_VALID p = true := by
  rw [Mod.bit, Mod.fld, show Fld.reg .UE_BKT_FIRST_FAIL_VALID = .UE_BKT_FIRST_FAIL from rfl, Mod.rd_put_same]
  exact bne_iff_ne.2 (h.trans_ne (by decide))

theorem Mod.firstFail_put {s : Mod} {p n : Nat} {b : Bucket} (word : n = 2 ^ 31 + b.cause * 2 ^ 24 + b.num) (first : ¬ s.bit .UE_BKT_FIRST_FAIL_VALID p = true) :
    s.firstFail p b = s.put .UE_BKT_FIRST_FAIL p (BitVec.ofNat 32 n) := by
  unfold Mod.firstFail
  rw [if_neg first, word]

theorem Mod.firstFail_valid (s : Mod) (p : Nat) {b : Bucket} (cause : b.cause = 2) (num : b.num < 4096) : (s.firstFail p b).bit .UE_BKT_FIRST_FAIL_VALID p = true := by
  by_cases h : s.bit .UE_BKT_FIRST_FAIL_VALID p = true
  · rw [show s.firstFail p b = s from if_pos h]
    exact h
  · obtain ⟨n, word⟩ : ∃ n, n = 2 ^ 31 + b.cause * 2 ^ 24 + b.num := ⟨_, rfl⟩
    rw [Mod.firstFail_put word h]
    exact s.bit_put_valid p (top_bit (by omega) (by omega))

theorem Mod.put_rebucketed (s : Mod) (p : Nat) (r : RegName) (i : Nat) (v : Word) : Rebucketed s (s.put r i v) p (s.bkts p) := ⟨rfl, ⟨rfl⟩, rfl⟩

theorem Mod.firstFail_rebucketed (s : Mod) (p : Nat) (b : Bucket) : Rebucketed s (s.firstFail p b) p (s.bkts p) := by
  unfold Mod.firstFail
  split
  · exact ⟨rfl, .refl s, rfl⟩
  · exact s.put_rebucketed p _ _ _

/-- A bucket of the step that closes with 256 in flight fails. -/
theorem Mod.closeBkt_full {s : Mod} {p f : Nat} (num : Nat) {b : Bucket} (now : s.fc.num = f) (crowd : 256 ≤ s.inFlight p) (step : b.owner = none) (small : b.num < 4096) :
    Rebucketed s (s.closeBkt p f num b) p (putBkt (s.bkts p) (b.crowded f)) ∧ (s.closeBkt p f num b).bit .UE_BKT_FIRST_FAIL_VALID p = true := by
  let u := s.writeAt p (wcells (b.addr + 0x20) (leBytes num 4))
  have wrote : OnlyWritten s u := s.writeAt_written p _
  let v := (u.setBkt p (b.crowded f)).firstFail p (b.crowded f)
  have set := (u.setBkt_rebucketed p (b.crowded f)).trans (Mod.firstFail_rebucketed _ p (b.crowded f))
  have there : (u.setBkt p (b.crowded f)).bkts p = putBkt (s.bkts p) (b.crowded f) := by rw [(u.setBkt_rebucketed p _).bkts, wrote.bkts]
  have all : Rebucketed s v p (putBkt (s.bkts p) (b.crowded f)) := by
    have made := wrote.rebucketed set
    rwa [there] at made
  obtain ⟨ob, e⟩ := Mod.noteBkt_now (s := v) (f := f) p (b.crowded f) 7 1 (by rw [all.rest]; exact now)
  have done : s.closeBkt p f num b = { v with ob := ob } := by
    refine (if_pos (decide_eq_true crowd)).trans ?_
    exact (Mod.endReduce_step _ p f 0x44 step).trans e
  rw [done]
  refine ⟨⟨?_, ⟨all.bytes.only⟩, all.bkts⟩, ?_⟩
  · rw [all.rest]
  · exact Mod.firstFail_valid (b := b.crowded f) _ p rfl small

/-! ## REDUCE -/

/-- A REDUCE's number is no other bucket's of its polder. -/
theorem chkReduce_fresh {s : Mod} {p : Nat} {ps : List Word} (h : chkReduce s p ps = .ok ()) : ∀ x ∈ s.bkts p, x.num ≠ (s.bucketAt p (pq ps 0) 0 none).num := by
  unfold chkReduce at h
  cases first : s.bucketChk p (pq ps 0) (detailAt 0) false with
  | error e =>
    rw [first] at h
    cases h
  | ok v =>
    rw [first] at h
    cases apart : (s.bkts p).all fun x => x.num != (s.bucketAt p (pq ps 0) 0 none).num with
    | false =>
      change (do ensure _ _ _; _) = _ at h
      rw [apart, ensure_false rfl] at h
      cases h
    | true => exact fun x there => bne_iff_ne.1 (List.all_eq_true.1 apart x there)

/-- A bucket that its polder has not, put in its place behind the others. -/
theorem putBkt_append {l : List Bucket} {b b' : Bucket} (fresh : ∀ x ∈ l, x.num ≠ b.num) (num : b'.num = b.num) : putBkt (l ++ [b]) b' = l ++ [b'] := by
  unfold putBkt
  rw [List.map_append, List.map_singleton, if_pos num.symm, num]
  congr 1
  exact (List.map_congr_left fun x hx => if_neg (fresh x hx)).trans (List.map_id' l)

/-- What REDUCE makes of the state in which its bucket's header is written. -/
def reduceClosed (x : Cmd) (b : Bucket) (t : Mod) : Mod :=
  if 256 ≤ t.inFlight x.pol then
    let u := t.failBkt x.pol t.fc.num 2 { b with owner := none }
    (u.setBkts x.pol ((u.bkts x.pol).filter fun y => y.num != b.num)).finish x 0x44 noDetail
  else t.closeBkt x.pol t.fc.num 0 b

/-- What REDUCE makes of the state in which its command waits. -/
def reduceOpened (x : Cmd) (b : Bucket) (t : Mod) : Mod := reduceClosed x b ((t.setBkts x.pol (t.bkts x.pol ++ [b])).openBkt x.pol b)

theorem reduce_declares : ReduceDeclaresAndClosesItsBucket := by
  intro c s x granted open_
  have run : exec (.reduce c) s = .next { s with m := s.m.runReduce c } := State.when_true _ (granted_of granted)
  obtain ⟨frame, cmd, -⟩ := granted
  have frame : s.m.fc.window = none := by
    obtain ⟨window, -⟩ := Bool.and_eq_true_iff.1 frame
    exact Option.isNone_iff_eq_none.1 window
  refine ⟨fun chk room => ?_, fun st d chk small => ?_⟩
  · let b := s.m.bucketAt x.pol (pq x.params 0) (s.m.fc.num + pw x.params 8) (some (x.qn, x.seq))
    let u := (s.m.become x (waitingFor s.m x x.waits)).setBkts x.pol (s.m.bkts x.pol ++ [b])
    let v : Mod := { u with stg := u.stg ++ [⟨rankBucket, none, none, .mem x.pol (wcells (b.addr + 0x24) (leBytes b.status 4 ++ leBytes 0 8 ++ leBytes b.elems 4))⟩] }
    have opened : u.openBkt x.pol b = v := Mod.writeAt_staged (s := u) x.pol _ frame
    have buckets : v.bkts x.pol = s.m.bkts x.pol ++ [b] := Mod.bkts_setBkts _ _ _
    have flying : v.inFlight x.pol = s.m.inFlight x.pol := by
      unfold Mod.inFlight
      rw [buckets, List.filter_append, List.length_append]
      rfl
    have e : s.m.runReduce c = v.closeBkt x.pol s.m.fc.num 0 b := by
      unfold Mod.runReduce
      rw [cmd]
      dsimp only
      rw [open_, if_neg Bool.false_ne_true, chk]
      dsimp only
      refine (congrArg (fun t : Mod => reduceOpened x b t) (Mod.setCmd_eq_become s.m (x := x) (y := waitingFor s.m x x.waits) rfl rfl rfl)).trans ?_
      exact (congrArg (fun t : Mod => reduceClosed x b t) opened).trans (if_neg (by rw [flying]; exact Nat.not_le.2 room))
    obtain ⟨at_, after, -, made, rf⟩ := Mod.closeBkt_open (s := v) (p := x.pol) 0 b (f := s.m.fc.num) rfl (flying ▸ room)
    have fresh := putBkt_append (b := b) (b' := b.closing s.m.fc.num at_) (chkReduce_fresh chk) rfl
    rw [e] at run
    refine ⟨_, b.closing s.m.fc.num at_, run, rfl, ?_, rf frame, ?_, ?_, rfl, ?_, rfl, rfl, rfl, rfl, after, rfl, rfl⟩
    · exact made.cq
    · exact made.wr
    · rw [← fresh, ← buckets]
      exact made.bkts
    · exact congrArg (· % 4096) (Nat.div_one _)
  · have e : s.m.runReduce c = s.m.become x (endedNow s.m x st d) := by
      unfold Mod.runReduce
      rw [cmd]
      dsimp only
      rw [open_, if_neg Bool.false_ne_true, chk]
      exact s.m.failAt_eq x d small
    rw [e] at run
    obtain ⟨only, moved, ue, stg, -⟩ := Mod.become_moved s x (endedNow s.m x st d)
    exact ⟨_, run, only, moved, ue, stg⟩

/-! ## Buckets close -/

theorem buckets_close : BucketsCloseUnlessTooManyAreInFlight := by
  intro p n s b f window bkt filling filled good step
  have num : b.num = n.toNat := beq_iff_eq.1 (List.find?_some (p := fun k : Bucket => k.num == n.toNat) bkt)
  have small : b.num < 4096 := num ▸ n.isLt
  have now : s.m.fc.num = f := by
    unfold Mod.sluiceB at window
    split at window
    · split at window
      · exact Option.some.inj window
      · cases window
    · cases window
  have due : s.m.fillDone p n.toNat = true := by
    unfold Mod.fillDone
    rw [window, bkt]
    simp [filling, filled, good, step]
  have run : exec (.bucketClose p n) s = .next { s with m := (s.m.onBucketClose p n.toNat).resume } := State.when_true _ due
  have e : s.m.onBucketClose p n.toNat = s.m.closeBkt p f (((s.m.stepOf p).map (·.num)).getD 0) b := by
    unfold Mod.onBucketClose
    rw [bkt, now]
  rw [e] at run
  by_cases room : s.m.inFlight p < 256
  · obtain ⟨at_, after, bound, made, -⟩ := Mod.closeBkt_open (((s.m.stepOf p).map (·.num)).getD 0) b now room
    exact ⟨_, b.closing f at_, run, ⟨made.bkts, rfl⟩, made.cq, made.bytes.only, fun _ => ⟨rfl, rfl, after, bound, good⟩, fun crowd => absurd room (Nat.not_lt.2 crowd)⟩
  · obtain ⟨made, valid⟩ := Mod.closeBkt_full (((s.m.stepOf p).map (·.num)).getD 0) now (Nat.not_lt.1 room) step small
    exact ⟨_, b.crowded f, run, ⟨made.bkts, rfl⟩, made.cq, made.bytes.only, fun few => absurd few room, fun _ => ⟨rfl, rfl, valid⟩⟩

/-! ## Stage one -/

/-- Two states that agree but in the messages that wait to be sent. -/
def OnlySent (s t : Mod) : Prop := t = { s with zl := { s.zl with sendq := t.zl.sendq } }

theorem OnlySent.refl (s : Mod) : OnlySent s s := rfl

theorem OnlySent.trans {s t u : Mod} (h : OnlySent s t) (k : OnlySent t u) : OnlySent s u := by
  unfold OnlySent at *
  rw [k, h]

theorem OnlySent.foldl {α : Type} {s t : Mod} {g : Mod → α → Mod} (h : OnlySent s t) (hg : ∀ t a, OnlySent t (g t a)) (as : List α) : OnlySent s (as.foldl g t) :=
  foldl_keeps (P := OnlySent s) (fun t a ht => ht.trans (hg t a)) as h

theorem Mod.sendRank_sent (s : Mod) (p r vc kind a b frame : Nat) (body : List Byte) : OnlySent s (s.sendRank p r vc kind a b frame body) := rfl

theorem Mod.sendShard_sent (s : Mod) (p r kind frame : Nat) (b : Bucket) (shard step : Nat) (codes : List Nat) : OnlySent s (s.sendShard p r kind frame b shard step codes) :=
  OnlySent.foldl (.refl s) (fun t _ => t.sendRank_sent _ _ _ _ _ _ _ _) _

theorem Mod.stageOne_length (s : Mod) (p : Nat) (b : Bucket) : (s.stageOne p b).length = b.elems := by
  unfold Mod.stageOne
  rw [List.length_map, List.length_range]

/-- A bucket with the polder's sum made. -/
def Bucket.summed (b : Bucket) (v : List (Nat × Bool × Bool)) : Bucket := { b with s1done := true, nonfinite := b.nonfinite || v.any (·.2.1), sat := b.sat || v.any (·.2.2) }

/-- In a group of one the sum is the payload. -/
def Bucket.alone (b : Bucket) (v : List (Nat × Bool × Bool)) : Bucket :=
  { b.summed v with contrib := b.contrib ||| 1, present := if (v.map (·.1)).isEmpty then b.present else b.present ++ [(0, (v.map (·.1)).length)] }

/-- In a larger group the polder holds its sum, and its own part of its own shard. -/
def Bucket.held (b : Bucket) (v : List (Nat × Bool × Bool)) (me f : Nat) (shard : Nat × Nat) : Bucket :=
  { b.summed v with sum := v.map (·.1), got := b.got ++ [⟨me, 0, ((v.map (·.1)).drop shard.1).take shard.2, f⟩], contrib := b.contrib ||| 2 ^ me }

theorem Mod.onStageOne_alone {s : Mod} {p n : Nat} {b : Bucket} (bkt : s.bkt p n = some b) (frame : s.fc.window = none) (one : s.members p = 1) :
    let v := s.stageOne p b
    s.onStageOne p n = ({ s with stg := s.stg ++ [⟨rankBucket, none, none, .mem p (wcells (b.addr + 64) (b.payload (v.map (·.1))))⟩] } : Mod).bktFinal p s.fc.num (b.alone v) := by
  intro v
  have put := Mod.writeAt_staged p (wcells (b.addr + 64 + 0 * b.fmt.unitBytes) (b.payload (v.map (·.1)))) frame
  rw [Nat.zero_mul, Nat.add_zero] at put
  unfold Mod.onStageOne
  rw [bkt]
  dsimp only
  rw [if_pos one]
  rw [← put]
  unfold Mod.putPayload
  rw [Nat.zero_mul, Nat.add_zero]
  rfl

theorem Mod.onStageOne_group {s : Mod} {p n : Nat} {b : Bucket} (bkt : s.bkt p n = some b) (more : s.members p ≠ 1) :
    let v := s.stageOne p b
    ∃ u, OnlySent s u ∧ s.onStageOne p n = u.bktFinal p s.fc.num (b.held v (s.rank p) s.fc.num (shardOf b.elems (s.members p) (s.rank p))) := by
  intro v
  unfold Mod.onStageOne
  rw [bkt]
  dsimp only
  rw [if_neg more]
  exact ⟨_, OnlySent.foldl (.refl s) (fun t j => t.sendShard_sent _ _ _ _ _ _ _ _) _, rfl⟩

theorem stageOne_sums : StageOneMakesThePoldersSum := by
  intro p n s b f inFrame now bkt reducing good undone due step open_ v me
  have frame : s.m.fc.window = none := by
    obtain ⟨window, -⟩ := Bool.and_eq_true_iff.1 inFrame
    exact Option.isNone_iff_eq_none.1 window
  have ready : s.m.stageOneDue p n.toNat = true := by
    unfold Mod.stageOneDue
    rw [bkt]
    simp [reducing, good, undone, now, due]
  have run : exec (.stage1Complete p n) s = .next { s with m := s.m.onStageOne p n.toNat } := State.when_true _ (by rw [inFrame, ready]; rfl)
  have size : v.length = b.elems := s.m.stageOne_length p b
  by_cases one : s.m.members p = 1
  · let u : Mod := { s.m with stg := s.m.stg ++ [⟨rankBucket, none, none, .mem p (wcells (b.addr + 64) (b.payload (v.map (·.1))))⟩] }
    let b' := (b.alone v).settled (u.members p) f
    obtain ⟨ob, e⟩ := Mod.bktFinal_eq (s := u) p (b := b.alone v) step now
    have whole : (b.alone v).whole (u.members p) = true := by
      refine (Bucket.whole_iff (b := b.alone v) _ open_).2 ⟨rfl, ?_, fun _ => ⟨one.le.trans (Nat.le_add_left 1 _), fun more => absurd one more.ne'⟩⟩
      change b.elems ≤ ((if (v.map (·.1)).isEmpty then b.present else b.present ++ [(0, (v.map (·.1)).length)]).map (·.2)).sum
      split
      · next none =>
        have zero : (v.map (·.1)).length = 0 := List.length_eq_zero_iff.2 (List.isEmpty_iff.1 none)
        rw [List.length_map, size] at zero
        exact zero.le.trans (Nat.zero_le _)
      · rw [List.map_append, List.sum_append, List.map_singleton, List.sum_singleton, List.length_map, size]
        exact Nat.le_add_left _ _
    have settled : b' = { b.alone v with final := true, finalAt := some f, sum := [], got := [] } := if_pos whole
    have set := Mod.setBkt_staged (s := u) p b' frame
    rw [Mod.onStageOne_alone bkt frame one, now, e, set] at run
    refine ⟨_, b', run, rfl, ⟨Mod.bkts_setBkts _ _ _ |>.trans ?_, ?_⟩, ?_, rfl, size, ?_, ?_, fun _ => ⟨?_, ?_, ?_, ?_⟩, fun more => absurd one more⟩
    · unfold putBkt
      rw [settled]
      rfl
    · rw [settled]; rfl
    · rw [settled]; rfl
    · rw [settled]; rfl
    · rw [settled]; rfl
    · rw [settled]
    · rw [settled]
    · rw [settled]; rfl
    · exact List.append_assoc _ _ _
  · obtain ⟨u, sent, e⟩ := Mod.onStageOne_group bkt one
    let h := b.held v me f (shardOf b.elems (s.m.members p) me)
    let b' := h.settled (u.members p) f
    have still : u.fc.num = f := by
      rw [sent]
      exact now
    obtain ⟨ob, settled⟩ := Mod.bktFinal_eq (f := f) p (b := h) step still
    have set := u.setBkt_rebucketed p b'
    have rest : b' = _ := h.settled_rest _ _
    rw [e, now, settled] at run
    refine ⟨_, b', run, rfl, ⟨set.bkts.trans ?_, ?_⟩, ?_, ?_, size, ?_, ?_, fun only => absurd only one, fun _ => ⟨?_, fun unfinished => ?_⟩⟩
    · rw [sent]
      unfold putBkt
      rw [rest]
      rfl
    · rw [rest]; rfl
    · rw [rest]; rfl
    · refine set.cq.trans ?_
      rw [sent]
    · rw [rest]; rfl
    · rw [rest]; rfl
    · rw [rest]; rfl
    · have same : b' = h := h.settled_same f ((h.settled_final _ f open_).symm.trans unfinished)
      rw [same]
      exact ⟨rfl, rfl⟩

/-- Settles O40: REDUCE, buckets that close, and stage one. -/
theorem bucketsAreDeclaredAndClose : Obligations.BucketsAreDeclaredAndClose := ⟨reduce_declares, buckets_close, stageOne_sums⟩

end Sys2Proof.Machine
end

section
/-! SUPPORT. A change of the frame length, a rejoin without a peer, and a substitution take effect at the sluice that is being taken (02_frames_and_commit.md R39, 12_links_and_board.md R368 to R371). -/

namespace Sys2Proof.Machine

/-! ## Frame length and rejoin -/

/-- The sluice whose step 6 is being taken is the window's. -/
theorem Mod.sluiceA_window {s : Mod} {g : Nat} (h : s.sluiceA = some g) : s.fc.num = g ∧ s.fc.window.isSome = true := by
  unfold Mod.sluiceA at h
  split at h
  · next w window =>
    split at h
    · exact ⟨Option.some.inj h, by rw [window]; rfl⟩
    · cases h
  · cases h

theorem frameLength_taken (s : State) (f g n : Nat) (window : s.m.sluiceA = some g) (change : s.m.fc.change = some (f, n)) (due : f ≤ g + 1) :
    exec .frameLenChange s = .next { s with m := ({ s.m with fc := { s.m.fc with log2 := n, change := none } } : Mod).resume } := by
  obtain ⟨now, open_⟩ := Mod.sluiceA_window window
  have ready : s.m.lenDue = true := by
    unfold Mod.lenDue
    rw [window, change]
    exact decide_eq_true due
  have length : s.m.log2 = n := by
    unfold Mod.log2
    rw [change, open_, now]
    exact if_pos due
  have run : exec .frameLenChange s = .next { s with m := s.m.takeLen.resume } := State.when_true _ ready
  rw [run, Mod.takeLen, length]

theorem rejoin_fails (s : State) (k f g : Nat) (window : s.m.sluiceB = some g) (alone : s.m.zl.rejoin = some (k, f, none)) (late : f + 64 ≤ g + 1) :
    ∃ m : Mod, exec .rejoinNoPeer s = .next { s with m := m.resume } ∧ m = { s.m with zl := { s.m.zl with rejoin := none }, fc := { s.m.fc with astray := true }, rf := m.rf }
      ∧ m.fld .ZL_REJOIN_ARM 0 = 0 ∧ m.fld .ZL_REJOIN_STATUS_REASON 0 = 1 ∧ m.rf.flags = s.m.rf.flags ++ [⟨.ZL_REJOIN_STATUS, 0, Fld.mask .ZL_REJOIN_STATUS_FAIL⟩] := by
  have ready : s.m.rejoinLate = true := by
    unfold Mod.rejoinLate
    rw [alone, window]
    exact decide_eq_true late
  have run : exec .rejoinNoPeer s = .next { s with m := (s.m.failRejoin 1).resume } := State.when_true _ ready
  let u : Mod := { s.m with zl := { s.m.zl with rejoin := none }, fc := { s.m.fc with astray := true } }
  let v := (u.setFld .ZL_REJOIN_ARM 0 0).setFld .ZL_REJOIN_STATUS_REASON 0 1
  have e : s.m.failRejoin 1 = { v with rf := { v.rf with flags := v.rf.flags ++ [⟨.ZL_REJOIN_STATUS, 0, Fld.mask .ZL_REJOIN_STATUS_FAIL⟩] } } :=
    Mod.raise_eq v (f := .ZL_REJOIN_STATUS_FAIL) 0 (by decide)
  have arm : v.fld .ZL_REJOIN_ARM 0 = 0 := by
    refine (Mod.fld_congr (s := u.setFld .ZL_REJOIN_ARM 0 0) (Mod.rd_setFld_of_reg_ne _ 0 0 1 (by decide))).trans ?_
    exact u.fld_setFld_same .ZL_REJOIN_ARM 0 0 (by decide)
  have reason : v.fld .ZL_REJOIN_STATUS_REASON 0 = 1 := Mod.fld_setFld_same _ .ZL_REJOIN_STATUS_REASON 0 1 (by decide)
  rw [e] at run
  exact ⟨_, run, rfl, arm, reason, rfl⟩

/-! ## Substitution -/

/-- A route to a node turns to slot 8. -/
def Mod.turnRoute (old : Nat) (s : Mod) (e : Nat) : Mod := if s.bit .ZL_ROUTE_VALID e && s.fld .ZL_ROUTE_SLOT e == old then s.setFld .ZL_ROUTE_SLOT e 8 else s

theorem Mod.turnRoute_rest (old : Nat) (s : Mod) (e : Nat) : s.turnRoute old e = { s with rf := (s.turnRoute old e).rf } := by
  unfold Mod.turnRoute
  split <;> rfl

theorem Mod.turnRoute_other (old : Nat) (s : Mod) {r : RegName} {e j : Nat} (h : r ≠ .ZL_ROUTE ∨ j ≠ e) : (s.turnRoute old e).rd r j = s.rd r j := by
  unfold Mod.turnRoute
  split
  · rcases h with h | h
    · exact s.rd_setFld_of_reg_ne e j 8 h
    · exact s.rd_setFld_of_idx_ne 8 h
  · rfl

theorem Mod.turnRoute_slot (old : Nat) (s : Mod) (e : Nat) (h : s.bit .ZL_ROUTE_VALID e = true) : (s.turnRoute old e).fld .ZL_ROUTE_SLOT e = if s.fld .ZL_ROUTE_SLOT e = old then 8 else s.fld .ZL_ROUTE_SLOT e := by
  unfold Mod.turnRoute
  rw [h, Bool.true_and]
  by_cases same : s.fld .ZL_ROUTE_SLOT e = old
  · rw [if_pos same, if_pos (beq_iff_eq.2 same)]
    exact s.fld_setFld_same .ZL_ROUTE_SLOT e 8 (by decide)
  · rw [if_neg same, if_neg (by rwa [beq_iff_eq])]

/-- The routes of the first endpoints turn. -/
theorem Mod.turnRoutes_range (old : Nat) (s : Mod) (n : Nat) :
    let t := (List.range n).foldl (Mod.turnRoute old) s
    t = { s with rf := t.rf } ∧ (∀ r j, r ≠ .ZL_ROUTE ∨ n ≤ j → t.rd r j = s.rd r j)
      ∧ ∀ e < n, s.bit .ZL_ROUTE_VALID e = true → t.fld .ZL_ROUTE_SLOT e = if s.fld .ZL_ROUTE_SLOT e = old then 8 else s.fld .ZL_ROUTE_SLOT e := by
  induction n with
  | zero => exact ⟨rfl, fun _ _ _ => rfl, fun e h => absurd h (Nat.not_lt_zero e)⟩
  | succ n ih =>
    rw [List.range_succ, List.foldl_append]
    generalize (List.range n).foldl (Mod.turnRoute old) s = t at ih ⊢
    obtain ⟨rest, others, slots⟩ := ih
    refine ⟨?_, fun r j h => ?_, fun e he valid => ?_⟩
    · refine (t.turnRoute_rest old n).trans ?_
      rw [rest]
      rfl
    · refine (t.turnRoute_other old (h.imp_right fun far => ?_)).trans (others r j (h.imp_right (Nat.le_of_succ_le)))
      omega
    · by_cases last : e = n
      · subst last
        have same : t.rd .ZL_ROUTE e = s.rd .ZL_ROUTE e := others _ _ (.inr (Nat.le_refl e))
        have v : t.bit .ZL_ROUTE_VALID e = s.bit .ZL_ROUTE_VALID e := Mod.bit_congr same
        have f : t.fld .ZL_ROUTE_SLOT e = s.fld .ZL_ROUTE_SLOT e := Mod.fld_congr same
        refine (t.turnRoute_slot old e (v.trans valid)).trans ?_
        rw [f]
      · exact (Mod.fld_congr (t.turnRoute_other old (.inr last))).trans (slots e (by omega) valid)

/-- Two states that agree but in their links and the flags that are raised for the sluice. -/
def OnlyLinks (s t : Mod) : Prop := t = { s with zl := { s.zl with links := t.zl.links }, rf := { s.rf with flags := t.rf.flags } }

theorem OnlyLinks.refl (s : Mod) : OnlyLinks s s := rfl

theorem OnlyLinks.trans {s t u : Mod} (h : OnlyLinks s t) (k : OnlyLinks t u) : OnlyLinks s u := by
  unfold OnlyLinks at *
  rw [k, h]

theorem OnlyLinks.foldl {α : Type} {s t : Mod} {g : Mod → α → Mod} (h : OnlyLinks s t) (hg : ∀ t a, OnlyLinks t (g t a)) (as : List α) : OnlyLinks s (as.foldl g t) :=
  foldl_keeps (P := OnlyLinks s) (fun t a ht => ht.trans (hg t a)) as h

theorem OnlyLinks.rd {s t : Mod} (h : OnlyLinks s t) (r : RegName) (i : Nat) : t.rd r i = s.rd r i := by
  rw [h]
  rfl

theorem Mod.raise_links (s : Mod) (f : Fld) (i : Nat) : OnlyLinks s (s.raise f i) := by
  unfold Mod.raise Mod.raiseBits
  split
  · exact .refl s
  · rfl

theorem Mod.setLink_links (s : Mod) (l : Nat) (v : LinkS) : OnlyLinks s (s.setLink l v) := rfl

theorem Mod.leaveUp_links (s : Mod) (l : Nat) (st : LinkSt) (cause : Nat) : OnlyLinks s (s.leaveUp l st cause) := by
  unfold Mod.leaveUp
  dsimp only
  split
  · exact OnlyLinks.trans (OnlyLinks.trans (s.setLink_links _ _) (Mod.raise_links _ _ _)) (OnlyLinks.foldl (.refl _) (fun t p => t.raise_links _ p) _)
  · exact s.setLink_links _ _

theorem Mod.turnRoutes_links (s : Mod) (old : Nat) : OnlyLinks ((List.range 64).foldl (Mod.turnRoute old) s) (s.turnRoutes old) :=
  OnlyLinks.foldl (.refl _) (fun t _ => OnlyLinks.foldl (.refl t) (fun u _ => u.leaveUp_links _ _ _) _) _

/-- What a working module turns: every route to the node that is replaced, and links. -/
theorem Mod.turnRoutes_spec (s : Mod) (old : Nat) :
    s.turnRoutes old = { s with zl := { s.zl with links := (s.turnRoutes old).zl.links }, rf := (s.turnRoutes old).rf }
      ∧ ∀ e < 64, s.bit .ZL_ROUTE_VALID e = true → (s.turnRoutes old).fld .ZL_ROUTE_SLOT e = if s.fld .ZL_ROUTE_SLOT e = old then 8 else s.fld .ZL_ROUTE_SLOT e := by
  have links := s.turnRoutes_links old
  obtain ⟨rest, -, slots⟩ := s.turnRoutes_range old 64
  generalize (List.range 64).foldl (Mod.turnRoute old) s = t at links rest slots
  refine ⟨?_, fun e he valid => (Mod.fld_congr (links.rd _ e)).trans (slots e he valid)⟩
  rw [links, rest]

/-- What a substitution comes to once it is over. -/
theorem Mod.substitute_cases (s : Mod) :
    let u : Mod := { s with zl := { s.zl with subst := false } }
    let v := if u.fld .ZL_NODE_SLOT 0 = 8 then u.setFld .ZL_NODE_NODE 0 (s.fld .ZL_SUBST_OLD 0) else u.turnRoutes (s.fld .ZL_SUBST_OLD 0)
    ((∃ p < s.polders, s.stepping p = true) → s.substitute = u.setFld .ZL_SUBST_STATUS_LAST_ERR 0 0x22)
      ∧ ((¬ ∃ p < s.polders, s.stepping p = true) → s.substitute = v.raiseNow .ZL_SUBST_STATUS_DONE 0) := by
  have busy : (List.range s.polders).any s.stepping = true ↔ ∃ p < s.polders, s.stepping p = true := by
    simp only [List.any_eq_true, List.mem_range]
  exact ⟨fun h => if_pos (busy.2 h), fun h => if_neg fun k => h (busy.1 k)⟩

theorem substitutions_turn : SubstitutionsTurnTheRoutes := by
  intro s f armed window target old busy
  have ready : s.m.substDue = true := by
    unfold Mod.substDue
    rw [armed, window]
    exact beq_iff_eq.2 target
  have run : exec .substitution s = .next { s with m := s.m.substitute.resume } := State.when_true _ ready
  obtain ⟨fails, turns⟩ := s.m.substitute_cases
  by_cases b : busy
  · rw [fails b] at run
    refine ⟨_, run, rfl, rfl, rfl, rfl, fun _ => ⟨?_, ?_, fun e => ?_⟩, fun free => absurd b free⟩
    · exact Mod.fld_setFld_same _ .ZL_SUBST_STATUS_LAST_ERR 0 0x22 (by decide)
    · exact Mod.fld_congr (Mod.rd_setFld_of_reg_ne _ 0 0 0x22 (by decide))
    · exact Mod.fld_congr (Mod.rd_setFld_of_reg_ne _ 0 e 0x22 (by decide))
  · rw [turns b] at run
    let u : Mod := { s.m with zl := { s.m.zl with subst := false } }
    have small : old < 16 := Nat.mod_lt _ (by decide)
    by_cases standby : s.m.fld .ZL_NODE_SLOT 0 = 8
    · rw [show (if u.fld .ZL_NODE_SLOT 0 = 8 then u.setFld .ZL_NODE_NODE 0 old else u.turnRoutes old) = u.setFld .ZL_NODE_NODE 0 old from if_pos standby] at run
      refine ⟨_, run, rfl, rfl, rfl, rfl, fun h => absurd h b, fun _ => ⟨?_, fun _ => ?_, fun h => absurd standby h⟩⟩
      · exact Mod.bit_raiseNow_same _ .ZL_SUBST_STATUS_DONE 0 (by decide)
      · refine (Mod.fld_congr (Mod.rd_raiseNow_of_reg_ne _ 0 0 (by decide))).trans ?_
        exact (u.fld_setFld_same .ZL_NODE_NODE 0 old (by decide)).trans (Nat.mod_eq_of_lt small)
    · rw [show (if u.fld .ZL_NODE_SLOT 0 = 8 then u.setFld .ZL_NODE_NODE 0 old else u.turnRoutes old) = u.turnRoutes old from if_neg standby] at run
      obtain ⟨rest, slots⟩ := u.turnRoutes_spec old
      generalize u.turnRoutes old = t at run rest slots
      refine ⟨_, run, ?_, ?_, ?_, ?_, fun h => absurd h b, fun _ => ⟨?_, fun h => absurd h standby, fun _ e he valid => ?_⟩⟩
      · rw [rest]; rfl
      · rw [rest]; rfl
      · rw [rest]; rfl
      · rw [rest]; rfl
      · exact Mod.bit_raiseNow_same _ .ZL_SUBST_STATUS_DONE 0 (by decide)
      · exact (Mod.fld_congr (Mod.rd_raiseNow_of_reg_ne _ 0 e (by decide))).trans (slots e he valid)

/-- Settles O39: frame length, rejoin and substitution. -/
theorem frameLengthRejoinAndSubstitution : Obligations.FrameLengthRejoinAndSubstitution := ⟨⟨frameLength_taken, rejoin_fails⟩, substitutions_turn⟩

end Sys2Proof.Machine
end

section
/-! SUPPORT. Steps open with their number and seed, cast their ballots, and open again after a replay (09_gradient_exchange_and_update.md R255, R256, 06_scaling_and_error_control.md R174, 02_frames_and_commit.md R49). -/

namespace Sys2Proof.Machine

/-! ## What a new attempt opens -/

/-- The buckets of a program that open with an attempt of its step at a frame (R248). -/
def Mod.filling (s : Mod) (p o : Nat) (sp : StepProg) : List Bucket := sp.buckets.map fun a => { s.bucketAt p a (o + s.getN p (a + 0xC) 4) none with state := 1 }

theorem Mod.filling_mem (s : Mod) {p o a : Nat} {sp : StepProg} (h : a ∈ sp.buckets) : ∃ b ∈ s.filling p o sp, b.addr = a ∧ b.state = 1 ∧ b.owner = none ∧ b.due = o + s.getN p (a + 0xC) 4 :=
  ⟨_, List.mem_map_of_mem h, rfl, rfl, rfl, rfl⟩

/-- What a new attempt leaves: queues, steps and loops, and every register; the program's buckets begin. -/
theorem Mod.freshAttempt_spec (s : Mod) (p f num : Nat) (sp : StepProg) :
    let t := s.freshAttempt p f num sp
    t.cq = s.cq ∧ t.fc = s.fc ∧ t.ue.steps = s.ue.steps ∧ t.ue.loops = s.ue.loops ∧ (∀ r i, t.rd r i = s.rd r i) ∧ t.bkts p = (s.bkts p).filter (·.owner.isSome) ++ s.filling p (f + 1) sp := by
  have headers (u : Mod) (bs : List Bucket) : OnlyWritten u (bs.foldl (Mod.openBkt p) u) := OnlyWritten.foldl (.refl u) (fun t b => t.writeAt_written p _) bs
  let stats := sp.slots.foldl (fun t n => t.set n { SlotStat.zero with step := num }) s.ue.stats
  let u : Mod := { s with ue := { s.ue with stats := stats }
                          tile := { s.tile with seqs := s.tile.seqs.filter fun t _ => s.dieOf (t / 48) != p
                                                lanes := s.tile.lanes.filter fun k _ => s.dieOf (k / 256 / 1024 % 4) != p } }
  have begun := u.setBkts_rebucketed p ((s.bkts p).filter (·.owner.isSome) ++ s.filling p (f + 1) sp)
  have wrote := headers (u.setBkts p ((s.bkts p).filter (·.owner.isSome) ++ s.filling p (f + 1) sp)) (s.filling p (f + 1) sp)
  have e : s.freshAttempt p f num sp = (s.filling p (f + 1) sp).foldl (Mod.openBkt p) (u.setBkts p ((s.bkts p).filter (·.owner.isSome) ++ s.filling p (f + 1) sp)) := rfl
  rw [e]
  generalize (s.filling p (f + 1) sp).foldl (Mod.openBkt p) (u.setBkts p ((s.bkts p).filter (·.owner.isSome) ++ s.filling p (f + 1) sp)) = t at wrote
  refine ⟨?_, ?_, ?_, ?_, fun r i => (wrote.rd r i), (wrote.bkts p).trans begun.bkts⟩
  all_goals
    rw [wrote.rest]
    rfl

/-! ## A step opens -/

/-- Commands that end while a sluice is being taken are marked, and leave the step transactions as they were. -/
theorem Mod.endCmds_ue {s : Mod} (pick : Cmd → Bool) (st f : Nat) (h : s.fc.window.isSome = true) : (s.endCmds pick st f).ue = s.ue := by
  have noted : OnlyObserved s ((s.cq.cmds.filter pick).foldl (Mod.noteWaits f (if st = 0x21 then 0x21 else 0x06)) s) := OnlyObserved.foldl (.refl s) (fun t c => t.noteWaits_observed f _ c) _
  have window : ((s.cq.cmds.filter pick).foldl (Mod.noteWaits f (if st = 0x21 then 0x21 else 0x06)) s).fc.window.isSome = true := by
    rw [noted.rest]
    exact h
  unfold Mod.endCmds
  dsimp only
  split
  · split
    · exact noted.ue
    · exact noted.ue
  · next none =>
    rw [none] at window
    cases window

/-- A step as it opens, with its number, batch, seed and image. -/
def newStep (b : StepBy) (num batch seed f : Nat) (todo : List Nat) (image : List (Nat × Nat)) (saved : List (Nat × Word × Word)) : Step :=
  { by_ := b, num := num, batch := batch, seed := seed, attempt := 0, opened := f + 1, phase := .executing, reasons := 0, abandoned := false, plain := false
    ballotAt := none, ballot := 0, word := 0, voteAt := none, outcome := 0, decidedAt := 0, ballots := [], closes := [], workEnd := 0, selected := false
    select := [], pass := .fresh 0, passTwoAt := none, norms := ⟨.empty, .empty, (0, false)⟩, clip := f32One, indexErrors := 0, shadowBad := false
    todo := todo, image := image, restore := saved }

/-- The state with a polder's step begun. -/
def Mod.withStep (s : Mod) (p f : Nat) (st : Step) (sp : StepProg) : Mod :=
  ((({ s with ue := { s.ue with steps := s.ue.steps.set p st } } : Mod).setFld .SC_REPLAY_STATUS_ATTEMPTS p 0)).freshAttempt p f st.num sp

theorem Mod.withStep_spec (s : Mod) (p f : Nat) (st : Step) (sp : StepProg) :
    let t := s.withStep p f st sp
    t.fc = s.fc ∧ t.ue.steps.get p = some st ∧ (∀ r i, r ≠ .SC_REPLAY_STATUS → t.rd r i = s.rd r i) ∧ t.bkts p = (s.bkts p).filter (·.owner.isSome) ++ s.filling p (f + 1) sp := by
  obtain ⟨-, fc, steps, -, regs, bkts⟩ := ((({ s with ue := { s.ue with steps := s.ue.steps.set p st } } : Mod).setFld .SC_REPLAY_STATUS_ATTEMPTS p 0)).freshAttempt_spec p f st.num sp
  refine ⟨fc, ?_, fun r i hr => (regs r i).trans (Mod.rd_setFld_of_reg_ne _ p i 0 hr), bkts⟩
  refine (congrArg (fun t : Tbl Step => t.get p) steps).trans ?_
  exact Tbl.get_set_same _ _ _

/-- The state in which the slots that a record names are loaded. -/
def Mod.loadSlots (s : Mod) (p a : Nat) (saved : List (Nat × Word × Word)) : Mod := saved.foldl (fun (s : Mod) x => s.loadSlot x.1 (s.getN p (a + 0x100 + 2 * x.1) 2)) s

theorem Mod.loadSlots_spec (s : Mod) (p a : Nat) (saved : List (Nat × Word × Word)) :
    s.loadSlots p a saved = { s with rf := (s.loadSlots p a saved).rf } ∧ ∀ r i, r ≠ .GS_CTRL → r ≠ .GS_BASE → (s.loadSlots p a saved).rd r i = s.rd r i := by
  refine foldl_keeps (P := fun t : Mod => t = { s with rf := t.rf } ∧ ∀ r i, r ≠ .GS_CTRL → r ≠ .GS_BASE → t.rd r i = s.rd r i) (fun t x h => ?_) saved ⟨rfl, fun _ _ _ _ => rfl⟩
  obtain ⟨rest, regs⟩ := h
  refine ⟨?_, fun r i ctrl base => Eq.trans ?_ (regs r i ctrl base)⟩
  · refine Eq.trans ?_ (congrArg (fun u : Mod => { u with rf := (t.loadSlot x.1 (t.getN p (a + 0x100 + 2 * x.1) 2)).rf }) rest)
    rfl
  · unfold Mod.loadSlot
    rw [Mod.rd_setFld_of_reg_ne _ _ _ _ base, Mod.rd_setFld_of_reg_ne _ _ _ _ base, Mod.rd_setFld_of_reg_ne _ _ _ _ ctrl]

/-- What a loop's step leaves besides: the loop counts it, and its batch weir is cleared. -/
def Mod.loopBegun (s : Mod) (p f : Nat) (l : Loop) : Mod :=
  ((({ s with ue := { s.ue with loops := s.ue.loops.set p { l with started := l.started + 1, released := false } } } : Mod).endCmds (fun c => c.waitsOn l.weir) 0x23 f)).put .WEIR_COUNT l.weir 0#32

theorem Mod.loopBegun_spec {s : Mod} (p f : Nat) (l : Loop) (h : s.fc.window.isSome = true) :
    (s.loopBegun p f l).ue.steps = s.ue.steps ∧ (s.loopBegun p f l).ue.buckets = s.ue.buckets ∧ ∀ r i, r ∉ traceRegs → r ∉ postRegs → (s.loopBegun p f l).rd r i = s.rd r i := by
  let u : Mod := { s with ue := { s.ue with loops := s.ue.loops.set p { l with started := l.started + 1, released := false } } }
  have same : (u.endCmds (fun c => c.waitsOn l.weir) 0x23 f).ue = u.ue := Mod.endCmds_ue _ _ _ h
  have kept : (s.loopBegun p f l).ue = u.ue := same
  refine ⟨by rw [kept], by rw [kept], fun r i trace post => ?_⟩
  exact ((Mod.put_posted _ l.weir 0#32 (by decide)).regs r i trace post).trans ((u.endCmds_posted _ _ _).regs r i trace post)

/-- The number that a step opens with: its record's, or the next one (R398). -/
def Mod.nextNum (s : Mod) (p : Nat) (diag : Option Nat) : Nat :=
  match diag with
  | some a => s.getN p a 8
  | none => s.pair .UE_STEP_LO .UE_STEP_HI p + 1

/-- The seed that a step opens with (R87, R398). -/
def Mod.nextSeed (s : Mod) (p : Nat) (sp : StepProg) (diag : Option Nat) : Nat :=
  match diag with
  | some a => s.getN p (a + 0x10) 4
  | none => (sp.seed + s.nextNum p none % 2 ^ 32 * 0x9E3779B9) % 2 ^ 32

/-- The slots that a step for diagnosis puts back at its end. -/
def Mod.savedSlots (s : Mod) (p : Nat) (diag : Option Nat) : List (Nat × Word × Word) :=
  match diag with
  | some _ => ((List.range 4096).filter fun n => s.slotUsable p n).map fun n => (n, s.rd .GS_CTRL n, s.rd .GS_BASE n)
  | none => []

/-- The state with UE_STEP counted up, or with the slots of a record. -/
def Mod.stepNumbered (s : Mod) (p : Nat) (diag : Option Nat) : Mod :=
  match diag with
  | some a => s.loadSlots p a (s.savedSlots p diag)
  | none => s.putPair .UE_STEP_LO .UE_STEP_HI p (s.nextNum p none)

theorem Mod.stepNumbered_rest (s : Mod) (p : Nat) (diag : Option Nat) : s.stepNumbered p diag = { s with rf := (s.stepNumbered p diag).rf } := by
  cases diag with
  | some a => exact (s.loadSlots_spec p a _).1
  | none => rfl

/-- A pair of registers holds a number of 64 bits. -/
theorem Mod.pair_putPair (s : Mod) {lo hi : RegName} (i : Nat) {v : Nat} (apart : lo ≠ hi) (h : v < 2 ^ 64) : (s.putPair lo hi i v).pair lo hi i = v := by
  unfold Mod.pair Mod.putPair
  rw [Mod.rd_put_same, Mod.rd_put_of_reg_ne _ _ _ _ apart, Mod.rd_put_same, BitVec.toNat_ofNat, BitVec.toNat_ofNat]
  omega

theorem Mod.pair_congr {s t : Mod} {lo hi : RegName} {i : Nat} (l : t.rd lo i = s.rd lo i) (h : t.rd hi i = s.rd hi i) : t.pair lo hi i = s.pair lo hi i := by
  unfold Mod.pair
  rw [l, h]

theorem Mod.stepNumbered_pair (s : Mod) (p : Nat) (diag : Option Nat) (h : s.pair .UE_STEP_LO .UE_STEP_HI p + 1 < 2 ^ 64) :
    (s.stepNumbered p diag).pair .UE_STEP_LO .UE_STEP_HI p = if diag = none then s.nextNum p none else s.pair .UE_STEP_LO .UE_STEP_HI p := by
  cases diag with
  | some a =>
    obtain ⟨-, regs⟩ := s.loadSlots_spec p a (s.savedSlots p (some a))
    exact Mod.pair_congr (regs _ _ (by decide) (by decide)) (regs _ _ (by decide) (by decide))
  | none => exact s.pair_putPair p (by decide) h

/-- A step opens: what its opener names, and nothing of another loop. -/
theorem Mod.openStep_eq {s : Mod} {p batch : Nat} {b : StepBy} {sp : StepProg} (prog : s.ue.progs.get p = some sp) (opener : s.opener p s.fc.num = some (b, batch)) :
    let diag := s.diagRecord b
    let u := s.stepNumbered p diag
    let st := newStep b (s.nextNum p diag) batch (s.nextSeed p sp diag) s.fc.num (List.range sp.progs.length) (u.slotImages p) (s.savedSlots p diag)
    let v := u.withStep p s.fc.num st sp
    s.openStep p = v ∨ ∃ l, s.openStep p = v.loopBegun p s.fc.num l := by
  unfold Mod.openStep
  rw [prog]
  dsimp only
  rw [opener]
  dsimp only
  generalize s.diagRecord b = diag
  cases diag with
  | some a =>
    dsimp only [Mod.stepNumbered, Mod.savedSlots, Mod.loadSlots, Mod.nextNum, Mod.nextSeed, Mod.withStep, newStep]
    split
    · next l _ => exact .inr ⟨l, rfl⟩
    · exact .inl rfl
  | none =>
    split
    · next l _ => exact .inr ⟨l, rfl⟩
    · exact .inl rfl

/-- The sluice whose steps 1 to 7 are done is the window's. -/
theorem Mod.sluiceB_window {s : Mod} {g : Nat} (h : s.sluiceB = some g) : s.fc.num = g ∧ s.fc.window.isSome = true := by
  unfold Mod.sluiceB at h
  split at h
  · next w window =>
    split at h
    · exact ⟨Option.some.inj h, by rw [window]; rfl⟩
    · cases h
  · cases h

theorem steps_open : StepsOpenWithTheirNumberAndSeed := by
  intro p s f batch by_ sp window due prog opener room num
  obtain ⟨now, open_⟩ := Mod.sluiceB_window window
  subst now
  have run : exec (.stepOpen p) s = .next { s with m := (s.m.openStep p).resume } := State.when_true _ due
  let diag := s.m.diagRecord by_
  let u := s.m.stepNumbered p diag
  let st := newStep by_ (s.m.nextNum p diag) batch (s.m.nextSeed p sp diag) s.m.fc.num (List.range sp.progs.length) (u.slotImages p) (s.m.savedSlots p diag)
  let v := u.withStep p s.m.fc.num st sp
  have rest : u = { s.m with rf := u.rf } := s.m.stepNumbered_rest p diag
  obtain ⟨fc, steps, regs, bkts⟩ := u.withStep_spec p s.m.fc.num st sp
  have pair : u.pair .UE_STEP_LO .UE_STEP_HI p = if diag = none then num else s.m.pair .UE_STEP_LO .UE_STEP_HI p := s.m.stepNumbered_pair p diag room
  have fills : u.filling p (s.m.fc.num + 1) sp = s.m.filling p (s.m.fc.num + 1) sp := by
    rw [rest]
    rfl
  have all : ∃ m, s.m.openStep p = m ∧ m.ue.steps.get p = some st ∧ m.bkts p = v.bkts p ∧ m.pair .UE_STEP_LO .UE_STEP_HI p = u.pair .UE_STEP_LO .UE_STEP_HI p := by
    have same (r : RegName) (i : Nat) (h : r ≠ .SC_REPLAY_STATUS) : v.rd r i = u.rd r i := regs r i h
    rcases Mod.openStep_eq prog opener with e | ⟨l, e⟩
    · exact ⟨_, e, steps, rfl, Mod.pair_congr (same _ _ (by decide)) (same _ _ (by decide))⟩
    · obtain ⟨kept, buckets, others⟩ := Mod.loopBegun_spec (s := v) p s.m.fc.num l (by rw [fc, rest]; exact open_)
      refine ⟨_, e, ?_, congrArg (fun t : Tbl (List Bucket) => t.getD p []) buckets, Mod.pair_congr ?_ ?_⟩
      · exact (congrArg (fun t : Tbl Step => t.get p) kept).trans steps
      · exact (others _ _ (by decide) (by decide)).trans (same _ _ (by decide))
      · exact (others _ _ (by decide) (by decide)).trans (same _ _ (by decide))
  obtain ⟨m, e, step, buckets, number⟩ := all
  rw [e] at run
  refine ⟨m, st, run, step, rfl, rfl, rfl, rfl, rfl, rfl, fun plain => ⟨?_, ?_, ?_, fun a ha => ?_⟩, fun a record => ⟨?_, ?_, ?_⟩⟩
  · rw [show st.num = s.m.nextNum p diag from rfl, show diag = none from plain]
    rfl
  · rw [show st.seed = s.m.nextSeed p sp diag from rfl, show diag = none from plain]
    rfl
  · rw [number, pair]
    exact if_pos plain
  · obtain ⟨k, there, facts⟩ := s.m.filling_mem (p := p) (o := s.m.fc.num + 1) ha
    refine ⟨k, ?_, facts⟩
    rw [buckets, show v.bkts p = _ from bkts, fills]
    exact List.mem_append_right _ there
  · rw [show st.num = s.m.nextNum p diag from rfl, show diag = some a from record]
    rfl
  · rw [show st.seed = s.m.nextSeed p sp diag from rfl, show diag = some a from record]
    rfl
  · rw [number, pair]
    exact if_neg (by rw [show diag = some a from record]; exact nofun)

/-! ## Ballots -/

/-- The reasons that a polder's own evaluation adds to its ballot (R256). -/
def addedReasons (nonfinite replay limit failed : Bool) : Nat := (if nonfinite then 1 else 0) + (if replay then 2 else 0) + (if limit then 32 else 0) + (if failed then 256 else 0)

theorem addedReasons_testBit (a b c d : Bool) {i : Nat} (h : i < 11) : (addedReasons a b c d).testBit i = ((i == 0 && a) || (i == 1 && b) || (i == 5 && c) || (i == 8 && d)) := by
  have all : ∀ a b c d : Bool, ∀ i : Fin 11, (addedReasons a b c d).testBit i.val = ((i.val == 0 && a) || (i.val == 1 && b) || (i.val == 5 && c) || (i.val == 8 && d)) := by decide
  exact all a b c d ⟨i, h⟩

/-- The word of a ballot: the step's number over its reasons. -/
def ballotWord (num reasons : Nat) : Nat := num % 65536 * 65536 + reasons % 2048

theorem ballotWord_testBit (num reasons : Nat) {i : Nat} (h : i < 11) : (ballotWord num reasons).testBit i = reasons.testBit i := by
  have low : ballotWord num reasons % 2 ^ 11 = reasons % 2 ^ 11 := by
    unfold ballotWord
    omega
  have bit (x : Nat) : x.testBit i = (x % 2 ^ 11).testBit i := by rw [Nat.testBit_mod_two_pow, decide_eq_true h, Bool.true_and]
  rw [bit, low, ← bit]

/-- Two states that agree but in SC_REPLAY_STATUS. -/
structure ReplayNoted (s t : Mod) : Prop where
  rest : t = { s with rf := t.rf }
  regs : ∀ r i, r ≠ .SC_REPLAY_STATUS → t.rd r i = s.rd r i

theorem ReplayNoted.put {s t : Mod} (h : ReplayNoted s t) (i : Nat) (v : Word) : ReplayNoted s (t.put .SC_REPLAY_STATUS i v) where
  rest := congrArg (fun u : Mod => { u with rf := (t.put .SC_REPLAY_STATUS i v).rf }) h.rest
  regs r j hr := (t.rd_put_of_reg_ne i j v hr).trans (h.regs r j hr)

theorem ReplayNoted.raised {s t : Mod} (h : ReplayNoted s t) {f : Fld} (reg : f.reg = .SC_REPLAY_STATUS) (c : Bool) (p : Nat) : ReplayNoted s (if c then t.raiseNow f p else t) := by
  split
  · rw [Mod.raiseNow, reg]
    exact h.put p _
  · exact h

theorem Mod.noteReplay_noted (s : Mod) (p : Nat) (r : ReplaySay) : ReplayNoted s (s.noteReplay p r) := by
  have fraction := (ReplayNoted.mk (s := s) rfl fun _ _ _ => rfl).raised (f := .SC_REPLAY_STATUS_CAUSE_FRACTION) rfl (r.causes.testBit 1) p
  have guard := fraction.raised (f := .SC_REPLAY_STATUS_CAUSE_GUARD) rfl (r.causes.testBit 2) p
  have shadow := guard.raised (f := .SC_REPLAY_STATUS_CAUSE_SHADOW) rfl (r.causes.testBit 3) p
  have limit := shadow.raised (f := .SC_REPLAY_STATUS_LIMIT) rfl r.limit p
  unfold Mod.noteReplay
  dsimp only
  split
  · exact limit.put p _
  · exact limit

/-- The word that a polder casts for its step. -/
def Mod.castWord (s : Mod) (p : Nat) (st : Step) : Nat :=
  let bs := (s.bkts p).filter (·.owner.isNone)
  let say := if st.isDiag then ReplaySay.mk false false 0 none else s.replaySay p st
  ballotWord st.num (st.reasons ||| addedReasons (bs.any (·.nonfinite)) say.replay say.limit (bs.any (·.failed)))

/-- The messages to ranks of a group follow what waits to be sent. -/
theorem Mod.sendRanks_eq (s : Mod) (p vc kind a b frame : Nat) (rs : List Nat) :
    rs.foldl (fun t r => t.sendRank p r vc kind a b frame []) s
      = { s with zl := { s.zl with sendq := s.zl.sendq ++ rs.map fun r => ⟨vc, kind, s.self p, s.endpoint p r, a, b, [], frame, 0⟩ } } := by
  induction rs generalizing s with
  | nil =>
    rw [List.map_nil, List.append_nil]
    rfl
  | cons r rs ih =>
    refine (ih (s.sendRank p r vc kind a b frame [])).trans ?_
    exact congrArg (fun q => { s with zl := { s.zl with sendq := q } }) (List.append_assoc s.zl.sendq [_] _)

/-- The group of a polder as its registers and the module's node name it. -/
theorem Mod.group_congr {s t : Mod} (h : ∀ r i, r ∈ [RegName.UE_RG_CTRL, .ZL_RANK, .ZL_NODE] → t.rd r i = s.rd r i) (p : Nat) : t.peers p = s.peers p ∧ t.self p = s.self p ∧ ∀ r, t.endpoint p r = s.endpoint p r := by
  have members : t.fld .UE_RG_CTRL_MEMBERS_M1 p = s.fld .UE_RG_CTRL_MEMBERS_M1 p := Mod.fld_congr (h _ _ (by decide))
  have rank : t.fld .UE_RG_CTRL_RANK p = s.fld .UE_RG_CTRL_RANK p := Mod.fld_congr (h _ _ (by decide))
  have node : t.fld .ZL_NODE_NODE 0 = s.fld .ZL_NODE_NODE 0 := Mod.fld_congr (h _ _ (by decide))
  refine ⟨?_, ?_, fun r => Mod.fld_congr (h _ _ (by decide))⟩
  · unfold Mod.peers Mod.members Mod.rank
    rw [members, rank]
  · unfold Mod.self
    rw [node]

/-- A ballot is held as the step's own, and goes out. -/
def Mod.castOn (s : Mod) (p f w num : Nat) (heard : List Heard) : Mod :=
  let t := s.mapStep p fun st => { st with phase := .balloted, ballotAt := some f, ballot := w, ballots := st.ballots ++ heard }
  (t.peers p).foldl (fun t r => t.sendRank p r 1 2 w num (f + 1) []) t

/-- A ballot is cast: the word stands in UE_VOTE_LOCAL and in the step, and goes to every other member. -/
theorem Mod.castBallot_spec {s : Mod} {p : Nat} {st : Step} (h : s.ue.steps.get p = some st) :
    let t := s.castBallot p
    let w := s.castWord p st
    (∃ heard, t.ue.steps.get p = some { st with phase := .balloted, ballotAt := some s.fc.num, ballot := w, ballots := st.ballots ++ heard }) ∧ t.rd .UE_VOTE_LOCAL p = BitVec.ofNat 32 w
      ∧ t.zl.sendq = s.zl.sendq ++ (s.peers p).map fun r => ⟨1, 2, s.self p, s.endpoint p r, w, st.num, [], s.fc.num + 1, 0⟩ := by
  let say := if st.isDiag then ReplaySay.mk false false 0 none else s.replaySay p st
  obtain ⟨rest, regs⟩ := s.noteReplay_noted p say
  intro t w
  have e : ∃ heard, t = ((s.noteReplay p say).put .UE_VOTE_LOCAL p (BitVec.ofNat 32 w)).castOn p s.fc.num w st.num heard := by
    change ∃ heard, s.castBallot p = _
    unfold Mod.castBallot
    rw [show s.stepOf p = some st from h]
    exact ⟨_, rfl⟩
  obtain ⟨heard, e⟩ := e
  rw [e]
  generalize w = w
  generalize s.noteReplay p say = u at rest regs
  have steps : (u.put .UE_VOTE_LOCAL p (BitVec.ofNat 32 w)).ue.steps.get p = some st := by
    rw [rest]
    exact h
  obtain ⟨still, -, own⟩ := (u.put .UE_VOTE_LOCAL p (BitVec.ofNat 32 w)).mapStep_spec (fun st => { st with phase := .balloted, ballotAt := some s.fc.num, ballot := w, ballots := st.ballots ++ heard }) steps
  unfold Mod.castOn
  dsimp only
  generalize (u.put .UE_VOTE_LOCAL p (BitVec.ofNat 32 w)).mapStep p (fun st => { st with phase := .balloted, ballotAt := some s.fc.num, ballot := w, ballots := st.ballots ++ heard }) = x at still own
  have known (r : RegName) (i : Nat) : x.rd r i = (u.put .UE_VOTE_LOCAL p (BitVec.ofNat 32 w)).rd r i := by
    rw [still]
    rfl
  have same (r : RegName) (i : Nat) (hr : r ∈ [RegName.UE_RG_CTRL, .ZL_RANK, .ZL_NODE]) : x.rd r i = s.rd r i := by
    have other : ∀ q ∈ [RegName.UE_RG_CTRL, .ZL_RANK, .ZL_NODE], q ≠ .UE_VOTE_LOCAL ∧ q ≠ .SC_REPLAY_STATUS := by decide
    obtain ⟨vote, replay⟩ := other r hr
    exact (known r i).trans ((Mod.rd_put_of_reg_ne _ _ _ _ vote).trans (regs r i replay))
  obtain ⟨peers, self, endpoint⟩ := Mod.group_congr same p
  have queue : x.zl.sendq = s.zl.sendq := by
    rw [still, rest]
    rfl
  rw [Mod.sendRanks_eq]
  refine ⟨⟨heard, own⟩, (known _ _).trans (Mod.rd_put_same _ _ _ _), ?_⟩
  dsimp only
  rw [queue, peers, self]
  simp only [endpoint]

theorem ballotWord_bounds (num reasons : Nat) : ballotWord num reasons < 2 ^ 32 ∧ ballotWord num reasons / 65536 = num % 65536 := by
  unfold ballotWord
  omega

/-- Whether a bucket of the step has a mark. -/
theorem any_own (l : List Bucket) (f : Bucket → Bool) : (l.filter (·.owner.isNone)).any f = true ↔ ∃ b ∈ l, b.owner = none ∧ f b = true := by
  simp only [List.any_eq_true, List.mem_filter, Option.isNone_iff_eq_none, and_assoc]

theorem Mod.castWord_testBit (s : Mod) (p : Nat) (st : Step) :
    ((s.castWord p st).testBit 0 = true ↔ st.reasons.testBit 0 = true ∨ ∃ b ∈ s.bkts p, b.owner = none ∧ b.nonfinite = true)
      ∧ ((s.castWord p st).testBit 8 = true ↔ st.reasons.testBit 8 = true ∨ ∃ b ∈ s.bkts p, b.owner = none ∧ b.failed = true)
      ∧ ∀ i, i ∉ [0, 1, 5, 8] → i < 11 → (s.castWord p st).testBit i = st.reasons.testBit i := by
  have bit {i : Nat} (h : i < 11) := ballotWord_testBit st.num (st.reasons ||| addedReasons (((s.bkts p).filter (·.owner.isNone)).any (·.nonfinite))
    (if st.isDiag then ReplaySay.mk false false 0 none else s.replaySay p st).replay (if st.isDiag then ReplaySay.mk false false 0 none else s.replaySay p st).limit
    (((s.bkts p).filter (·.owner.isNone)).any (·.failed))) h
  unfold Mod.castWord
  dsimp only
  refine ⟨?_, ?_, fun i hi small => ?_⟩
  · rw [bit (by decide), Nat.testBit_or, addedReasons_testBit _ _ _ _ (by decide), ← any_own]
    simp
  · rw [bit (by decide), Nat.testBit_or, addedReasons_testBit _ _ _ _ (by decide), ← any_own]
    simp
  · simp only [List.mem_cons, List.not_mem_nil, or_false, not_or] at hi
    obtain ⟨zero, one, five, eight⟩ := hi
    rw [bit small, Nat.testBit_or, addedReasons_testBit _ _ _ _ small]
    simp [zero, one, five, eight]

theorem ballots_carry : BallotsCarryTheStepAndItsReasons := by
  intro p s f st now due step
  subst now
  have run : exec (.ballotSluice p) s = .next { s with m := (s.m.castBallot p).resume } := State.when_true _ due
  obtain ⟨⟨heard, own⟩, vote, sends⟩ := Mod.castBallot_spec step
  obtain ⟨zero, eight, others⟩ := s.m.castWord_testBit p st
  obtain ⟨small, number⟩ := ballotWord_bounds st.num (st.reasons ||| addedReasons (((s.m.bkts p).filter (·.owner.isNone)).any (·.nonfinite))
    (if st.isDiag then ReplaySay.mk false false 0 none else s.m.replaySay p st).replay (if st.isDiag then ReplaySay.mk false false 0 none else s.m.replaySay p st).limit
    (((s.m.bkts p).filter (·.owner.isNone)).any (·.failed)))
  refine ⟨_, _, run, own, rfl, rfl, ?_, number, zero, eight, others, sends⟩
  rw [vote, BitVec.toNat_ofNat]
  exact Nat.mod_eq_of_lt small

/-! ## Replays -/

/-- A step that opens again (R174). -/
def Step.again (st : Step) (f : Nat) (todo : List Nat) (image : List (Nat × Nat)) : Step :=
  { st with opened := f + 1, phase := .executing, reasons := 0, abandoned := false, plain := false, ballotAt := none, ballot := 0, word := 0, voteAt := none
            outcome := 0, ballots := [], closes := [], selected := false, select := [], pass := .fresh 0, passTwoAt := none, norms := ⟨.empty, .empty, (0, false)⟩
            indexErrors := 0, shadowBad := false, todo := todo, image := image }

/-- A command that a step holds waits once more for what its header names (R174). -/
def Cmd.again (p f : Nat) (c : Cmd) : Cmd :=
  if c.phase = .held ∧ c.pol = p then
    { c with replayed := true, phase := .ready, waits := c.headerWaits, accepted := f, relAt := f, first := 0, fin := 0, caps := [], land := [], sigs := [], told := false }
  else c

/-- The state with a polder's step open again, and its commands to be executed again. -/
def Mod.again (s : Mod) (p f : Nat) (st : Step) : Mod := { s with ue := { s.ue with steps := s.ue.steps.set p st }, cq := { s.cq with cmds := s.cq.cmds.map (Cmd.again p f) } }

theorem replays_open : ReplaysOpenTheSameStepAgain := by
  intro p s st sp f window step wait prog
  obtain ⟨now, -⟩ := Mod.sluiceB_window window
  subst now
  have ready : s.m.replayDue p = true := by
    unfold Mod.replayDue
    rw [window, show s.m.stepOf p = some st from step]
    dsimp only
    rw [wait]
    rfl
  have run : exec (.replayOpen p) s = .next { s with m := (s.m.reopen p).resume } := State.when_true _ ready
  have e : s.m.reopen p = (s.m.again p s.m.fc.num (st.again s.m.fc.num (List.range sp.progs.length) (s.m.slotImages p))).freshAttempt p s.m.fc.num st.num sp := by
    unfold Mod.reopen
    rw [show s.m.stepOf p = some st from step, prog]
    rfl
  obtain ⟨cq, -, steps, -, -, bkts⟩ := (s.m.again p s.m.fc.num (st.again s.m.fc.num (List.range sp.progs.length) (s.m.slotImages p))).freshAttempt_spec p s.m.fc.num st.num sp
  rw [← e] at cq steps bkts
  refine ⟨_, st.again s.m.fc.num (List.range sp.progs.length) (s.m.slotImages p), run, ?_, rfl, rfl, rfl, rfl, rfl, rfl, rfl, rfl, rfl, rfl, rfl, fun c there held mine => ⟨_, ?_, rfl⟩, fun a ha => ?_⟩
  · rw [steps]
    exact Tbl.get_set_same _ _ _
  · rw [cq]
    exact List.mem_map.2 ⟨c, there, if_pos ⟨held, mine⟩⟩
  · obtain ⟨k, there, addr, state, owner, -⟩ := s.m.filling_mem (p := p) (o := s.m.fc.num + 1) ha
    refine ⟨k, ?_, addr, state, owner⟩
    rw [bkts]
    exact List.mem_append_right _ there

/-- Settles O43: steps that open, ballots, and replays. -/
theorem stepsOpenAndVote : Obligations.StepsOpenAndVote := ⟨steps_open, ballots_carry, replays_open⟩

end Sys2Proof.Machine
end

section
/-! SUPPORT. How a reset begins: what it ends first, and what it leaves (13_reliability_and_recovery.md R381 to R388). -/

namespace Sys2Proof.Machine

/-! ## What a reset ends before it begins -/

/-- Two states of the module that agree but in what the ends of commands and steps, and snapshots, change. -/
structure Prepared (s t : Mod) : Prop where
  rest : t = { s with mem := t.mem, rf := t.rf, stg := t.stg, ue := t.ue, cq := t.cq, wr := t.wr, ob := t.ob, io := t.io, tile := t.tile,
                      pci := { s.pci with due := t.pci.due, pend := t.pci.pend }, rel := { s.rel with snaps := t.rel.snaps } }

theorem Prepared.refl (s : Mod) : Prepared s s := ⟨rfl⟩

theorem Prepared.trans {s t u : Mod} (h : Prepared s t) (k : Prepared t u) : Prepared s u := ⟨by rw [k.rest, h.rest]⟩

theorem Prepared.foldl {α : Type} {s t : Mod} {g : Mod → α → Mod} (h : Prepared s t) (hg : ∀ t a, Prepared t (g t a)) (l : List α) : Prepared s (l.foldl g t) :=
  foldl_keeps (P := Prepared s) (fun t a ht => ht.trans (hg t a)) l h

theorem Prepared.ite {s t u : Mod} {c : Prop} [Decidable c] (h : Prepared s t) (k : Prepared s u) : Prepared s (if c then t else u) := by
  split
  · exact h
  · exact k

theorem OnlyPosted.prepared {s t : Mod} (h : OnlyPosted s t) : Prepared s t := ⟨by rw [h.rest]⟩

theorem Prepared.staged {s t : Mod} (h : Prepared s t) (stg : List Staged) (u : Update) : Prepared s { t with stg := stg, ue := u } := ⟨by rw [h.rest]⟩

theorem Prepared.marked {s t : Mod} (h : Prepared s t) (c : Cqs) : Prepared s { t with cq := c } := ⟨by rw [h.rest]⟩

theorem Prepared.fc {s t : Mod} (h : Prepared s t) : t.fc = s.fc := by rw [h.rest]
theorem Prepared.up {s t : Mod} (h : Prepared s t) : t.pci.up = s.pci.up := by rw [h.rest]
theorem Prepared.hung {s t : Mod} (h : Prepared s t) : t.rel.hung = s.rel.hung := by rw [h.rest]
theorem Prepared.asked {s t : Mod} (h : Prepared s t) : t.rel.asked = s.rel.asked := by rw [h.rest]
theorem Prepared.resets {s t : Mod} (h : Prepared s t) : t.rel.resets = s.rel.resets := by rw [h.rest]

theorem Mod.endCmds_prepared (s : Mod) (pick : Cmd → Bool) (st f : Nat) : Prepared s (s.endCmds pick st f) := (s.endCmds_posted pick st f).prepared

theorem Mod.put_prepared (s : Mod) (r : RegName) (i : Nat) (v : Word) : Prepared s (s.put r i v) := ⟨rfl⟩

theorem Mod.ue_prepared (s : Mod) (u : Update) : Prepared s { s with ue := u } := ⟨rfl⟩

theorem Mod.putPhys_prepared (s : Mod) (a : Nat) (bs : List Byte) : Prepared s (s.putPhys a bs) := ⟨rfl⟩

theorem Mod.snapOne_prepared (reason kind index : Nat) (s : Mod) (p : Nat) : Prepared s (Mod.snapOne reason kind index s p) := by
  unfold Mod.snapOne
  split
  · exact .refl s
  · dsimp only
    refine Prepared.trans ?_ (Mod.put_prepared _ _ _ _)
    exact ⟨rfl⟩

theorem Mod.snapshot_prepared (s : Mod) (reason kind index : Nat) : Prepared s (s.snapshot reason kind index) := Prepared.foldl (.refl s) (Mod.snapOne_prepared reason kind index) _

theorem Mod.snapshots_prepared (s : Mod) (reason : Nat) (ds : List (Nat × Nat)) : Prepared s (s.snapshots reason ds) :=
  Prepared.foldl (.refl s) (fun t p => by
    split
    · exact t.snapOne_prepared _ _ _ _
    · exact .refl t) _

theorem Mod.clearRegion_prepared (s : Mod) (i : Nat) : Prepared s (s.clearRegion i) := by
  unfold Mod.clearRegion
  dsimp only
  refine Prepared.trans (Prepared.trans ?_ (Mod.put_prepared _ _ _ _)) (Mod.put_prepared _ _ _ _)
  exact ⟨rfl⟩

theorem Mod.dropWork_prepared (s : Mod) (p : Nat) : Prepared s (s.dropWork p) := by
  unfold Mod.dropWork
  dsimp only
  refine Prepared.foldl ?_ (fun t i => t.clearRegion_prepared i) _
  exact ⟨rfl⟩

theorem Mod.mapStep_prepared (s : Mod) (p : Nat) (f : Step → Step) : Prepared s (s.mapStep p f) := ⟨rfl⟩

theorem Mod.abandonStep_prepared (s : Mod) (p reasons : Nat) (plain now : Bool) : Prepared s (s.abandonStep p reasons plain now) := by
  unfold Mod.abandonStep
  split
  · exact .refl s
  · refine Prepared.ite (.refl s) ?_
    dsimp only
    have dropped := fun f : Step → Step => (s.dropWork_prepared p).trans (Mod.mapStep_prepared _ p f)
    split
    · exact (dropped _).marked _
    · exact (dropped _).trans (Mod.endCmds_prepared _ _ _ _)

theorem Mod.prepReset_prepared (s : Mod) (kind index cause f : Nat) : Prepared s (s.prepReset kind index cause f) := by
  have ended (pick : Cmd → Bool) (st : Nat) : Prepared s ((if kind = 3 then s else s.snapshot cause kind index).endCmds pick st f) :=
    (Prepared.ite (.refl s) (s.snapshot_prepared _ _ _)).trans (Mod.endCmds_prepared _ _ _ _)
  unfold Mod.prepReset
  exact Prepared.foldl (ended _ _) (fun t p => Prepared.ite (t.abandonStep_prepared _ _ _ _) (.refl t)) _

/-! ## What a reset leaves -/

theorem OnlyWritten.prepared {s t : Mod} (h : OnlyWritten s t) : Prepared s t := ⟨by rw [h.rest]⟩

theorem OnlyMemory.prepared {s t : Mod} (h : OnlyMemory s t) : Prepared s t := ⟨by rw [h]⟩

theorem Mod.raiseBits_prepared (s : Mod) (r : RegName) (i : Nat) (b : Word) : Prepared s (s.raiseBits r i b) := by
  unfold Mod.raiseBits
  exact Prepared.ite (.refl s) ⟨rfl⟩

theorem Mod.reduceAt_prepared (s : Mod) (p addr : Nat) (cs : List Contrib) : Prepared s (s.reduceAt p addr cs).1 := by
  unfold Mod.reduceAt
  split
  · exact .refl s
  · exact Prepared.trans (t := s.putMem p _) ⟨rfl⟩ (Mod.raiseBits_prepared _ _ _ _)

theorem Mod.reduceAll_prepared (s : Mod) (p : Nat) (cs : List Contrib) : Prepared s (s.reduceAll p cs).1 := by
  unfold Mod.reduceAll
  exact List.foldlRecOn (motive := fun x : Mod × List Nat => Prepared s x.1) _ _ (.refl s) fun x hx a _ => hx.trans (x.1.reduceAt_prepared p a _)

theorem Mod.applyReduce_prepared (s : Mod) (p : Nat) (cs : List Contrib) : Prepared s (s.applyReduce p cs) := by
  unfold Mod.applyReduce
  dsimp only
  refine Prepared.ite (Prepared.trans ?_ (Mod.mapStep_prepared _ _ _)) ?_
  all_goals
    refine Prepared.trans (Prepared.trans ?_ (Mod.saveFirst_onlyMemory _ _ _).prepared) (Mod.reduceAll_prepared _ _ _)
    exact Prepared.ite (s.raiseBits_prepared _ _ _) (.refl s)

theorem Mod.applyBehind_prepared (s : Mod) (b : StepStage) : Prepared s (s.applyBehind b) := by
  unfold Mod.applyBehind
  split
  · exact (s.writeNow_onlyMemory _ _).prepared
  · exact ⟨rfl⟩
  · exact s.applyReduce_prepared _ _
  · exact .refl s

theorem Mod.stopProgs_prepared (s : Mod) (gone : Prog → Bool) : Prepared s (s.stopProgs gone) := ⟨rfl⟩

theorem Mod.writeRecord_prepared (s : Mod) (p f : Nat) (st : Step) : Prepared s (s.writeRecord p f st) := by
  unfold Mod.writeRecord
  dsimp only
  refine Prepared.trans (Prepared.trans ?_ (Mod.put_prepared _ _ _ _)) (Mod.ue_prepared _ _)
  split
  · exact s.putPhys_prepared _ _
  · exact .refl s

theorem Mod.dropPolder_prepared (again : Bool) (s : Mod) (p f : Nat) : Prepared s (Mod.dropPolder again s p f) := by
  unfold Mod.dropPolder
  dsimp only
  refine Prepared.trans ?_ ⟨rfl⟩
  refine Prepared.ite ?_ (Prepared.foldl (Prepared.trans ?_ (Mod.ue_prepared _ _)) (fun t b => t.applyBehind_prepared b) _)
  all_goals
    refine Prepared.ite (Prepared.staged ?_ _ _) (Prepared.staged ?_ _ _)
    all_goals
      refine Prepared.trans ?_ (Mod.stopProgs_prepared _ _)
      split
      · exact Prepared.ite (.refl s) (s.writeRecord_prepared _ _ _)
      · exact .refl s

theorem Mod.dropQueues_prepared (s : Mod) (p f : Nat) : Prepared s (s.dropQueues p f) := by
  unfold Mod.dropQueues
  dsimp only
  refine Prepared.trans (Prepared.foldl (.refl s) (fun t q => ?_) _) ⟨rfl⟩
  unfold Mod.cancelQueue
  exact Prepared.foldl (.refl t) (fun u c => ((u.noteWaits_observed _ _ _).posted.trans (Mod.postReply_posted _ _)).prepared) _

/-- A function of the module that leaves no unit found hung where none was. -/
def Calms (f : Mod → Mod) : Prop := ∀ s : Mod, (f s).rel.hung = s.rel.hung

theorem hung_foldl {α : Type} {g : Mod → α → Mod} (hg : ∀ t a, (g t a).rel.hung = t.rel.hung) (l : List α) (s : Mod) : (l.foldl g s).rel.hung = s.rel.hung :=
  foldl_keeps (P := fun t : Mod => t.rel.hung = s.rel.hung) (fun t a ht => (hg t a).trans ht) l rfl

theorem hung_ite {c : Prop} [Decidable c] {s t u : Mod} (h : t.rel.hung = s.rel.hung) (k : u.rel.hung = s.rel.hung) : (if c then t else u).rel.hung = s.rel.hung := by
  split
  · exact h
  · exact k

theorem Mod.resetRegs_rest (s : Mod) (pick : RegBlk → Nat → Bool) : s.resetRegs pick = { s with rf := (s.resetRegs pick).rf } := by
  unfold Mod.resetRegs
  refine foldl_keeps (P := fun t : Mod => t = { s with rf := t.rf }) (fun t c ht => ?_) _ rfl
  split
  · next r _ =>
    split
    · split
      · refine Eq.trans ?_ (congrArg (fun u : Mod => { u with rf := (t.resetReg r (c.1 / 256)).rf }) ht)
        rfl
      · exact ht
    · exact ht
  · exact ht

theorem Mod.dropSlots_hung (s : Mod) (fn : Nat) : (s.dropSlots fn).rel.hung = s.rel.hung := rfl

theorem Mod.withdraw_hung (s : Mod) (p : Nat) : (s.withdraw p).rel.hung = s.rel.hung := by
  unfold Mod.withdraw
  exact hung_ite rfl rfl

theorem Mod.zeroTile_hung (s : Mod) (t : Nat) : (s.zeroTile t).rel.hung = s.rel.hung := rfl

theorem Mod.restartPass_hung (s : Mod) (ph : Nat) : (s.restartPass ph).rel.hung = s.rel.hung := rfl

theorem Mod.failTile_hung (s : Mod) (ph : Nat) : (s.failTile ph).rel.hung = s.rel.hung := rfl

theorem Mod.dropHub_calm (s : Mod) (f : Nat) : (s.dropHub f).rel.hung = [] := rfl

theorem Mod.dropModule_hung (s : Mod) : s.dropModule.rel.hung = s.rel.hung := rfl

theorem Mod.setLink_hung (s : Mod) (l : Nat) (v : LinkS) : (s.setLink l v).rel.hung = s.rel.hung := rfl

/-- What a reset's domain loses but for its tiles and registers (R383 to R387). -/
def Mod.resetLoses (s : Mod) (kind index f : Nat) : Mod :=
  let s := s.stopProgs (progIn kind index)
  let s := if kind = 4 then (((s.dropPolder true index f).dropQueues index f).withdraw index) else s
  let s := if kind = 4 then (List.range 8).foldl (fun s fn => if s.polderOf fn = index then s.dropSlots fn else s) s else s
  let s := if kind = 2 ∨ kind = 5 then s.dropHub f else s
  let s := if kind = 5 then s.dropModule else s
  if kind = 3 then (s.leaveUp index .disabled 0).setLink index .zero else s

/-- The tiles and registers of a domain return to reset (R387, R392). -/
def Mod.resetClears (s : Mod) (kind index cause : Nat) : Mod :=
  let tiles := s.domainTiles kind index
  let s := (tiles.foldl Mod.zeroTile s).resetObs kind index
  let pick := s.regInDomain kind index
  let s := s.resetRegs pick
  let flags (x : FlagSet) : Bool := match x.reg.blk with
    | some b => pick b x.idx
    | none => false
  let s := { s with rf := { s.rf with flags := s.rf.flags.filter fun x => !flags x } }
  let s := (tiles.filterMap s.physTile).foldl Mod.restartPass s
  if kind = 0 ∧ cause = 2 then tiles.foldl (fun s t => match s.physTile t with
    | some ph => s.failTile ph
    | none => s) s
  else s

/-- The reset is under way, with the resets that it holds inside it (R383). -/
def Mod.resetMarks (s : Mod) (kind index cause f : Nat) (cmds : List (Nat × Nat)) (inside : List ResetS) : Mod :=
  let r : ResetS := ⟨kind, index, f, cause, cmds ++ inside.flatMap (·.cmds)⟩
  let s := { s with rel := { s.rel with resets := s.rel.resets.filter (fun x => !inside.any (· == x)) ++ [r] } }
  s.put .MC_RESET_STATUS 0 (BitVec.ofNat 32 (2 ^ 31 + kind * 2 ^ 28 + index * 65536 + cause * 256))

/-- A reset that no other holds begins. -/
theorem Mod.resetNow_eq {s : Mod} {kind index : Nat} (cause f : Nat) (cmds : List (Nat × Nat)) (h : (s.rel.resets.find? fun r => s.holds r.kind r.index kind index) = none) :
    s.resetNow kind index cause f cmds = ((s.resetLoses kind index f).resetClears kind index cause).resetMarks kind index cause f cmds (s.rel.resets.filter fun r => s.holds kind index r.kind r.index) := by
  unfold Mod.resetNow
  rw [h]
  rfl

/-- A reset that another holds joins it. -/
theorem Mod.resetNow_joins {s : Mod} {kind index : Nat} {r : ResetS} (cause f : Nat) (cmds : List (Nat × Nat)) (h : (s.rel.resets.find? fun r => s.holds r.kind r.index kind index) = some r) :
    s.resetNow kind index cause f cmds = { s with rel := { s.rel with resets := s.rel.resets.map fun x => if x == r then { x with cmds := x.cmds ++ cmds } else x } } := by
  unfold Mod.resetNow
  rw [h]

theorem Mod.resetLoses_calm {s : Mod} (kind index f : Nat) (h : s.rel.hung = []) : (s.resetLoses kind index f).rel.hung = [] := by
  have polder : (((((s.stopProgs (progIn kind index)).dropPolder true index f).dropQueues index f).withdraw index)).rel.hung = [] :=
    ((Mod.withdraw_hung _ _).trans ((((s.stopProgs_prepared _).trans (Mod.dropPolder_prepared _ _ _ _)).trans (Mod.dropQueues_prepared _ _ _)).hung)).trans h
  have first : ((if kind = 4 then (((s.stopProgs (progIn kind index)).dropPolder true index f).dropQueues index f).withdraw index else s.stopProgs (progIn kind index))).rel.hung = [] := by
    split
    · exact polder
    · exact h
  unfold Mod.resetLoses
  dsimp only
  generalize (if kind = 4 then (((s.stopProgs (progIn kind index)).dropPolder true index f).dropQueues index f).withdraw index else s.stopProgs (progIn kind index)) = t at first ⊢
  have second : (if kind = 4 then (List.range 8).foldl (fun s fn => if s.polderOf fn = index then s.dropSlots fn else s) t else t).rel.hung = [] := by
    split
    · exact (hung_foldl (fun u fn => hung_ite (u.dropSlots_hung fn) rfl) _ t).trans first
    · exact first
  generalize (if kind = 4 then (List.range 8).foldl (fun s fn => if s.polderOf fn = index then s.dropSlots fn else s) t else t) = u at second ⊢
  have third : (if kind = 2 ∨ kind = 5 then u.dropHub f else u).rel.hung = [] := by
    split
    · exact u.dropHub_calm f
    · exact second
  generalize (if kind = 2 ∨ kind = 5 then u.dropHub f else u) = v at third ⊢
  have fourth : (if kind = 5 then v.dropModule else v).rel.hung = [] := (hung_ite v.dropModule_hung rfl).trans third
  generalize (if kind = 5 then v.dropModule else v) = w at fourth ⊢
  refine (hung_ite ((Mod.setLink_hung _ _ _).trans ?_) rfl).trans fourth
  rw [w.leaveUp_links]

/-- Two states of the module that agree but in registers, tiles and observation. -/
structure Cleared (s t : Mod) : Prop where
  rest : t = { s with rf := t.rf, tile := t.tile, ob := t.ob, rel := { s.rel with passStart := t.rel.passStart, tileBad := t.rel.tileBad, tileMap := t.rel.tileMap } }

theorem Cleared.refl (s : Mod) : Cleared s s := ⟨rfl⟩

theorem Cleared.trans {s t u : Mod} (h : Cleared s t) (k : Cleared t u) : Cleared s u := ⟨by rw [k.rest, h.rest]⟩

theorem Cleared.foldl {α : Type} {s t : Mod} {g : Mod → α → Mod} (h : Cleared s t) (hg : ∀ t a, Cleared t (g t a)) (l : List α) : Cleared s (l.foldl g t) :=
  foldl_keeps (P := Cleared s) (fun t a ht => ht.trans (hg t a)) l h

theorem Mod.restartPass_cleared (s : Mod) (ph : Nat) : Cleared s (s.restartPass ph) := ⟨rfl⟩

theorem Mod.failTile_cleared (s : Mod) (ph : Nat) : Cleared s (s.failTile ph) := ⟨rfl⟩

/-- What the return of a domain's tiles and registers changes. -/
theorem Mod.resetClears_cleared (s : Mod) (kind index cause : Nat) : Cleared s (s.resetClears kind index cause) := by
  have tiles (l : List Nat) : Cleared s (l.foldl Mod.zeroTile s) := Cleared.foldl (.refl s) (fun _ _ => ⟨rfl⟩) l
  have regs (t : Mod) (pick : RegBlk → Nat → Bool) : Cleared t (t.resetRegs pick) := ⟨by rw [t.resetRegs_rest pick]⟩
  unfold Mod.resetClears
  dsimp only
  generalize hl : s.domainTiles kind index = l
  have first := tiles l
  generalize l.foldl Mod.zeroTile s = t at first ⊢
  have second : Cleared s (t.resetObs kind index) := first.trans ⟨rfl⟩
  generalize t.resetObs kind index = u at second ⊢
  have third := second.trans (regs u (u.regInDomain kind index))
  generalize u.resetRegs (u.regInDomain kind index) = v at third ⊢
  have fourth (flags : FlagSet → Bool) : Cleared s { v with rf := { v.rf with flags := v.rf.flags.filter flags } } := third.trans ⟨rfl⟩
  have fifth (flags : FlagSet → Bool) (phs : List Nat) := Cleared.foldl (fourth flags) Mod.restartPass_cleared phs
  split
  · refine Cleared.foldl (fifth _ _) (fun w t => ?_) _
    split
    · exact w.failTile_cleared _
    · exact .refl w
  · exact fifth _ _

/-- The resets under way once one begins. -/
theorem Mod.resetMarks_rel (s : Mod) (kind index cause f : Nat) (cmds : List (Nat × Nat)) (inside : List ResetS) : (s.resetMarks kind index cause f cmds inside).rel =
    { s.rel with resets := s.rel.resets.filter (fun x => !inside.any (· == x)) ++ [⟨kind, index, f, cause, cmds ++ inside.flatMap (·.cmds)⟩] } := Mod.put_rel _ _ _ _

/-- A reset that begins leaves no unit found hung where there was none. -/
theorem Mod.resetNow_calm {s : Mod} (kind index cause f : Nat) (cmds : List (Nat × Nat)) (h : s.rel.hung = []) : (s.resetNow kind index cause f cmds).rel.hung = [] := by
  cases held : s.rel.resets.find? fun r => s.holds r.kind r.index kind index with
  | some r =>
    rw [Mod.resetNow_joins cause f cmds held]
    exact h
  | none =>
    rw [Mod.resetNow_eq cause f cmds held, Mod.resetMarks_rel]
    have lost := Mod.resetLoses_calm kind index f h
    generalize s.resetLoses kind index f = t at lost
    rw [(t.resetClears_cleared kind index cause).rest]
    exact lost

end Sys2Proof.Machine
end

section
/-! SUPPORT. Weir timeouts, hung units and the sluice watchdog (02_frames_and_commit.md R57, 13_reliability_and_recovery.md R375 to R378). -/

namespace Sys2Proof.Machine

/-! ## Weir timeouts -/

/-- Two states that agree but in what is observed of them. -/
def OnlyTraced (s t : Mod) : Prop := t = { s with ob := t.ob }

theorem OnlyTraced.refl (s : Mod) : OnlyTraced s s := rfl

theorem OnlyTraced.trans {s t u : Mod} (h : OnlyTraced s t) (k : OnlyTraced t u) : OnlyTraced s u := by
  unfold OnlyTraced at *
  rw [k, h]

theorem OnlyTraced.now {s t : Mod} (h : OnlyTraced s t) : t.fc.num = s.fc.num := by rw [h]

/-- What is noted in the frame's own number waits for the frame's sluice, over a list. -/
theorem OnlyTraced.foldl {α : Type} {s t : Mod} {f : Nat} {g : Mod → α → Mod} (h : OnlyTraced s t) (now : s.fc.num = f) (hg : ∀ u a, u.fc.num = f → OnlyTraced u (g u a)) (l : List α) : OnlyTraced s (l.foldl g t) :=
  foldl_keeps (P := OnlyTraced s) (fun u a hu => hu.trans (hg u a (hu.now.trans now))) l h

theorem Mod.note_traced {s : Mod} {f : Nat} (p : Nat) (r : Rec) (now : s.fc.num = f) : OnlyTraced s (s.note p f r) := by
  subst now
  have e := s.note_now p r
  unfold OnlyTraced
  rw [e]

theorem Mod.noteWaits_traced {s : Mod} {f : Nat} (st : Nat) (c : Cmd) (now : s.fc.num = f) : OnlyTraced s (s.noteWaits f st c) :=
  OnlyTraced.foldl (.refl s) now (fun _ _ hu => Mod.note_traced _ _ hu) _

/-- Commands that end after step 7 of the sluice of their frame are marked, with their signals for the next frame. -/
theorem Mod.endCmds_late {s : Mod} {w : Window} (pick : Cmd → Bool) (st : Nat) (window : s.fc.window = some w) (late : w.part ≠ .commits) :
    ∃ ob sigs, s.endCmds pick st s.fc.num = { s with ob := ob, wr := { s.wr with sigs := sigs }, cq := { s.cq with cmds := s.cq.cmds.map fun c => if pick c then { c with phase := .decided, status := st, detail := noDetail, fin := s.fc.num, waits := [] } else c } } := by
  have noted := OnlyTraced.foldl (f := s.fc.num) (.refl s) rfl (fun u c hu => Mod.noteWaits_traced (if st = 0x21 then 0x21 else 0x06) c hu) (s.cq.cmds.filter pick)
  unfold Mod.endCmds
  dsimp only
  generalize (s.cq.cmds.filter pick).foldl (Mod.noteWaits s.fc.num (if st = 0x21 then 0x21 else 0x06)) s = t at noted ⊢
  rw [noted]
  dsimp only
  rw [window]
  dsimp only
  rw [if_neg late]
  exact ⟨_, _, rfl⟩

theorem weirTimeout_ends : WeirTimeoutEndsTheWait := by
  intro c s x cmd late
  obtain ⟨w, window, part⟩ : ∃ w, s.m.fc.window = some w ∧ w.part ≠ .commits := by
    unfold Mod.waitLate Mod.sluiceW at late
    split at late
    · next f there =>
      split at there
      · next w window =>
        split at there
        · cases there
        · next part => exact ⟨w, window, part⟩
      · cases there
    · cases late
  have ready : (match s.m.cmd c with
    | some x => s.m.waitLate x
    | none => false) = true := by
    rw [cmd]
    exact late
  have run : exec (.weirTimeout c) s = .next { s with m := (s.m.weirTimeout c).resume } := State.when_true _ ready
  obtain ⟨ob, sigs, e⟩ := Mod.endCmds_late (fun y => y.same x) 0x21 window part
  have all : s.m.weirTimeout c = s.m.endCmds (fun y => y.same x) 0x21 s.m.fc.num := by
    unfold Mod.weirTimeout
    rw [cmd]
  rw [all, e] at run
  exact ⟨_, run, rfl, rfl, rfl, rfl, rfl, rfl⟩

/-! ## Hangs -/

/-- The registers that a report of hung units sets. -/
def hangRegs : List RegName := [.MC_HANG_FIRST, .MC_HANG_FRAME_LO, .MC_HANG_FRAME_HI, .CQ_ALERT_CAUSE, .MC_HANG_COUNT, .MC_SNAP_STATUS]

/-- Two states of the module that agree but in what a report of hung units changes. -/
structure Reported (s t : Mod) : Prop where
  rest : t = { s with mem := t.mem, rf := t.rf, ob := t.ob, io := t.io, pci := { s.pci with due := t.pci.due, pend := t.pci.pend }, rel := { s.rel with snaps := t.rel.snaps } }
  regs : ∀ r i, r ∉ hangRegs → t.rd r i = s.rd r i

theorem Reported.refl (s : Mod) : Reported s s := ⟨rfl, fun _ _ _ => rfl⟩

theorem Reported.trans {s t u : Mod} (h : Reported s t) (k : Reported t u) : Reported s u := ⟨by rw [k.rest, h.rest], fun r i hr => (k.regs r i hr).trans (h.regs r i hr)⟩

theorem Reported.foldl {α : Type} {s t : Mod} {g : Mod → α → Mod} (h : Reported s t) (hg : ∀ t a, Reported t (g t a)) (l : List α) : Reported s (l.foldl g t) :=
  foldl_keeps (P := Reported s) (fun t a ht => ht.trans (hg t a)) l h

theorem Reported.prepared {s t : Mod} (h : Reported s t) : Prepared s t := ⟨by rw [h.rest]⟩
theorem Reported.cq {s t : Mod} (h : Reported s t) : t.cq = s.cq := by rw [h.rest]
theorem Reported.ue {s t : Mod} (h : Reported s t) : t.ue = s.ue := by rw [h.rest]

theorem Mod.put_reported (s : Mod) {q : RegName} (j : Nat) (v : Word) (h : q ∈ hangRegs) : Reported s (s.put q j v) :=
  ⟨rfl, fun _ i hr => s.rd_put_of_reg_ne j i v fun e => hr (e ▸ h)⟩

theorem Mod.snapOne_reported (reason kind index : Nat) (s : Mod) (p : Nat) : Reported s (Mod.snapOne reason kind index s p) := by
  unfold Mod.snapOne
  split
  · exact .refl s
  · dsimp only
    refine Reported.trans ?_ (Mod.put_reported _ _ _ (by decide))
    exact ⟨rfl, fun _ _ _ => rfl⟩

/-- A snapshot leaves every register but MC_SNAP_STATUS. -/
theorem Mod.snapOne_rd (reason kind index : Nat) (s : Mod) (p : Nat) {r : RegName} (i : Nat) (h : r ≠ .MC_SNAP_STATUS) : (Mod.snapOne reason kind index s p).rd r i = s.rd r i := by
  unfold Mod.snapOne
  split
  · rfl
  · dsimp only
    rw [Mod.rd_put_of_reg_ne _ _ _ _ h]
    rfl

theorem Mod.snapshots_reported (s : Mod) (reason : Nat) (ds : List (Nat × Nat)) : Reported s (s.snapshots reason ds) := by
  refine Reported.foldl (.refl s) (fun t p => ?_) _
  split
  · exact t.snapOne_reported _ _ _ _
  · exact .refl t

theorem Mod.snapshots_rd (s : Mod) (reason : Nat) (ds : List (Nat × Nat)) {r : RegName} (i : Nat) (h : r ≠ .MC_SNAP_STATUS) : (s.snapshots reason ds).rd r i = s.rd r i := by
  refine foldl_keeps (P := fun t : Mod => t.rd r i = s.rd r i) (fun t p ht => ?_) _ rfl
  split
  · exact (t.snapOne_rd _ _ _ _ _ h).trans ht
  · exact ht

/-- An alert that is set leaves every register but the causes. -/
theorem Mod.alertHang_spec (s : Mod) (p : Nat) :
    Reported s (s.alertNow .CQ_ALERT_CAUSE_HANG p) ∧ (s.alertNow .CQ_ALERT_CAUSE_HANG p).bit .CQ_ALERT_CAUSE_HANG p = true
      ∧ (∀ q, s.bit .CQ_ALERT_CAUSE_HANG q = true → (s.alertNow .CQ_ALERT_CAUSE_HANG p).bit .CQ_ALERT_CAUSE_HANG q = true) ∧ ∀ r i, r ≠ .CQ_ALERT_CAUSE → (s.alertNow .CQ_ALERT_CAUSE_HANG p).rd r i = s.rd r i := by
  have raised : Reported s (s.raiseNow .CQ_ALERT_CAUSE_HANG p) := s.put_reported p _ (by decide)
  have set := s.bit_raiseNow_same .CQ_ALERT_CAUSE_HANG p (by decide)
  have keeps (q : Nat) (h : s.bit .CQ_ALERT_CAUSE_HANG q = true) : (s.raiseNow .CQ_ALERT_CAUSE_HANG p).bit .CQ_ALERT_CAUSE_HANG q = true := by
    by_cases same : q = p
    · rw [same]
      exact set
    · exact (Mod.bit_congr (s.rd_raiseNow_of_idx_ne same)).trans h
  have others (r : RegName) (i : Nat) (hr : r ≠ .CQ_ALERT_CAUSE) : (s.raiseNow .CQ_ALERT_CAUSE_HANG p).rd r i = s.rd r i := s.rd_raiseNow_of_reg_ne p i hr
  unfold Mod.alertNow
  dsimp only
  split
  · next already => exact ⟨.refl s, already, fun _ h => h, fun _ _ _ => rfl⟩
  · split
    · exact ⟨raised.trans ⟨rfl, fun _ _ _ => rfl⟩, set, keeps, others⟩
    · exact ⟨raised, set, keeps, others⟩

/-- What a report of a hung unit does beyond the record of the first: the polders' alerts. -/
structure Alerted (s t : Mod) : Prop where
  reported : Reported s t
  others : ∀ r i, r ≠ .CQ_ALERT_CAUSE → t.rd r i = s.rd r i
  keeps : ∀ q, s.bit .CQ_ALERT_CAUSE_HANG q = true → t.bit .CQ_ALERT_CAUSE_HANG q = true

theorem Alerted.refl (s : Mod) : Alerted s s := ⟨.refl s, fun _ _ _ => rfl, fun _ h => h⟩

theorem Alerted.trans {s t u : Mod} (h : Alerted s t) (k : Alerted t u) : Alerted s u :=
  ⟨h.reported.trans k.reported, fun r i hr => (k.others r i hr).trans (h.others r i hr), fun q hq => k.keeps q (h.keeps q hq)⟩

theorem Alerted.now {s t : Mod} (h : Alerted s t) : t.fc.num = s.fc.num := by rw [h.reported.rest]

/-- One polder's alert of a hang, with its record in the trace. -/
def Mod.hangAlert (f : Nat) (r : Rec) (s : Mod) (p : Nat) : Mod := (s.note p f r).alertNow .CQ_ALERT_CAUSE_HANG p

theorem Mod.hangAlert_spec {f : Nat} (r : Rec) {s : Mod} (p : Nat) (now : s.fc.num = f) : Alerted s (s.hangAlert f r p) ∧ (s.hangAlert f r p).bit .CQ_ALERT_CAUSE_HANG p = true := by
  have noted : OnlyTraced s (s.note p f r) := Mod.note_traced p r now
  have first : Alerted s (s.note p f r) := by
    rw [noted]
    exact ⟨⟨rfl, fun _ _ _ => rfl⟩, fun _ _ _ => rfl, fun _ h => h⟩
  obtain ⟨reported, set, keeps, others⟩ := (s.note p f r).alertHang_spec p
  exact ⟨first.trans ⟨reported, others, keeps⟩, set⟩

theorem Mod.hangAlerts_spec {f : Nat} (r : Rec) (ps : List Nat) {s : Mod} (now : s.fc.num = f) :
    Alerted s (ps.foldl (Mod.hangAlert f r) s) ∧ ∀ p ∈ ps, (ps.foldl (Mod.hangAlert f r) s).bit .CQ_ALERT_CAUSE_HANG p = true := by
  induction ps generalizing s with
  | nil => exact ⟨.refl s, fun _ h => absurd h List.not_mem_nil⟩
  | cons p ps ih =>
    obtain ⟨first, set⟩ := Mod.hangAlert_spec r p now
    obtain ⟨rest, sets⟩ := ih (first.now.trans now)
    refine ⟨first.trans rest, fun q hq => ?_⟩
    rcases List.mem_cons.1 hq with same | there
    · rw [same]
      exact rest.keeps p set
    · exact sets q there

/-- The record of the first hang: a word, and the frame. -/
def Mod.hangFirst (s : Mod) (f : Nat) (w : Word) : Mod := if s.bit .MC_HANG_FIRST_VALID 0 then s else (s.put .MC_HANG_FIRST 0 w).putPair .MC_HANG_FRAME_LO .MC_HANG_FRAME_HI 0 f

theorem Mod.hangFirst_spec (s : Mod) (f : Nat) {w : Word} (top : bits w.toNat 31 31 = 1) :
    let t := s.hangFirst f w
    Reported s t ∧ t.bit .MC_HANG_FIRST_VALID 0 = true ∧ (∀ q, t.bit .CQ_ALERT_CAUSE_HANG q = s.bit .CQ_ALERT_CAUSE_HANG q) ∧ (∀ i, t.rd .MC_HANG_COUNT i = s.rd .MC_HANG_COUNT i)
      ∧ (s.bit .MC_HANG_FIRST_VALID 0 = true → t = s)
      ∧ (s.bit .MC_HANG_FIRST_VALID 0 = false → t.rd .MC_HANG_FIRST 0 = w ∧ t.pair .MC_HANG_FRAME_LO .MC_HANG_FRAME_HI 0 = f % 2 ^ 64) := by
  by_cases valid : s.bit .MC_HANG_FIRST_VALID 0 = true
  · have e : s.hangFirst f w = s := if_pos valid
    rw [e]
    exact ⟨.refl s, valid, fun _ => rfl, fun _ => rfl, fun _ => rfl, fun no => absurd (no.symm.trans valid) Bool.false_ne_true⟩
  · have e : s.hangFirst f w = (s.put .MC_HANG_FIRST 0 w).putPair .MC_HANG_FRAME_LO .MC_HANG_FRAME_HI 0 f := if_neg valid
    have first : ((s.put .MC_HANG_FIRST 0 w).putPair .MC_HANG_FRAME_LO .MC_HANG_FRAME_HI 0 f).rd .MC_HANG_FIRST 0 = w := by
      rw [Mod.putPair, Mod.rd_put_of_reg_ne _ _ _ _ (by decide), Mod.rd_put_of_reg_ne _ _ _ _ (by decide), Mod.rd_put_same]
    have other {r : RegName} (i : Nat) (h : r ∉ hangRegs ∨ r = .CQ_ALERT_CAUSE ∨ r = .MC_HANG_COUNT) : ((s.put .MC_HANG_FIRST 0 w).putPair .MC_HANG_FRAME_LO .MC_HANG_FRAME_HI 0 f).rd r i = s.rd r i := by
      have apart : r ≠ .MC_HANG_FRAME_HI ∧ r ≠ .MC_HANG_FRAME_LO ∧ r ≠ .MC_HANG_FIRST := by
        rcases h with h | rfl | rfl
        · exact ⟨fun k => h (by rw [k]; decide), fun k => h (by rw [k]; decide), fun k => h (by rw [k]; decide)⟩
        · decide
        · decide
      obtain ⟨hi, lo, word⟩ := apart
      rw [Mod.putPair, Mod.rd_put_of_reg_ne _ _ _ _ hi, Mod.rd_put_of_reg_ne _ _ _ _ lo, Mod.rd_put_of_reg_ne _ _ _ _ word]
    rw [e]
    refine ⟨⟨rfl, fun r i hr => other i (.inl hr)⟩, ?_, fun q => Mod.bit_congr (other q (.inr (.inl rfl))), fun i => other i (.inr (.inr rfl)), fun yes => absurd yes valid, fun _ => ⟨first, ?_⟩⟩
    · rw [Mod.bit, Mod.fld, show Fld.reg .MC_HANG_FIRST_VALID = .MC_HANG_FIRST from rfl, first]
      exact bne_iff_ne.2 (top.trans_ne (by decide))
    · rw [Mod.pair, Mod.putPair, Mod.rd_put_same, Mod.rd_put_of_reg_ne _ _ _ _ (by decide), Mod.rd_put_same, BitVec.toNat_ofNat, BitVec.toNat_ofNat]
      omega

/-- The word of a first hang (R380). -/
def hangWord (die kind n : Nat) : Word := BitVec.ofNat 32 (2 ^ 31 + die % 4 * 2 ^ 24 + kind % 16 * 2 ^ 20 + n)

theorem hangWord_spec (die kind : Nat) {n : Nat} (h : n < 65536) : bits (hangWord die kind n).toNat 31 31 = 1 ∧ bits (hangWord die kind n).toNat 23 20 = kind % 16 := by
  have small : 2 ^ 31 + die % 4 * 2 ^ 24 + kind % 16 * 2 ^ 20 + n < 2 ^ 32 := by omega
  unfold hangWord bits
  rw [BitVec.toNat_ofNat, Nat.mod_eq_of_lt small]
  omega

theorem Mod.recordHang_eq (f : Nat) (s : Mod) (k : Nat) :
    ∃ die r, Mod.recordHang f s k = ((s.hangFirst f (hangWord die (unitParts k).1 (unitParts k).2.2)).unitPols k).foldl (Mod.hangAlert f r) (s.hangFirst f (hangWord die (unitParts k).1 (unitParts k).2.2)) :=
  ⟨s.hangDie k, _, rfl⟩

theorem unitParts_small (k : Nat) : (unitParts k).2.2 < 65536 := Nat.mod_lt _ (by decide)

/-- The polders that own a unit stay while the layout, the functions' polders and the queues' ranges do. -/
theorem Mod.unitPols_congr {s t : Mod} (h : Reported s t) (k : Nat) : t.unitPols k = s.unitPols k := by
  have layout : t.polders = s.polders := Mod.fld_congr (h.regs _ _ (by decide))
  have bound (fn : Nat) : t.polderOf fn = s.polderOf fn := Mod.fld_congr (h.regs _ _ (by decide))
  have dies (d : Nat) : t.dieOf d = s.dieOf d := by
    unfold Mod.dieOf
    rw [layout]
  have owner (q : Nat) : t.queueOwner q = s.queueOwner q := by
    unfold Mod.queueOwner Mod.range
    rw [h.cq]
  unfold Mod.unitPols
  simp only [layout, bound, dies, owner]

/-- What the record of one hung unit changes and shows. -/
theorem Mod.recordHang_spec {f : Nat} {s : Mod} (k : Nat) (now : s.fc.num = f) :
    let t := Mod.recordHang f s k
    Reported s t ∧ t.bit .MC_HANG_FIRST_VALID 0 = true ∧ t.rd .MC_HANG_COUNT 0 = s.rd .MC_HANG_COUNT 0
      ∧ (s.bit .MC_HANG_FIRST_VALID 0 = true → t.rd .MC_HANG_FIRST 0 = s.rd .MC_HANG_FIRST 0)
      ∧ (s.bit .MC_HANG_FIRST_VALID 0 = false → t.fld .MC_HANG_FIRST_KIND 0 = (unitParts k).1 % 16 ∧ t.pair .MC_HANG_FRAME_LO .MC_HANG_FRAME_HI 0 = f % 2 ^ 64)
      ∧ (∀ p, s.bit .CQ_ALERT_CAUSE_HANG p = true → t.bit .CQ_ALERT_CAUSE_HANG p = true) ∧ ∀ p ∈ s.unitPols k, t.bit .CQ_ALERT_CAUSE_HANG p = true := by
  obtain ⟨die, r, e⟩ := Mod.recordHang_eq f s k
  obtain ⟨top, kind⟩ := hangWord_spec die (unitParts k).1 (unitParts_small k)
  generalize hangWord die (unitParts k).1 (unitParts k).2.2 = w at e top kind
  obtain ⟨reported, valid, alerts, count, stays, fresh⟩ := s.hangFirst_spec f top
  have pols : (s.hangFirst f w).unitPols k = s.unitPols k := Mod.unitPols_congr reported k
  rw [pols] at e
  intro t
  have te : t = _ := e
  rw [te]
  generalize s.hangFirst f w = u at reported valid alerts count stays fresh
  obtain ⟨all, sets⟩ := Mod.hangAlerts_spec r (s.unitPols k) (s := u) (f := f) (by rw [reported.rest]; exact now)
  have first := all.others .MC_HANG_FIRST 0 (by decide)
  refine ⟨reported.trans all.reported, (Mod.bit_congr (f := .MC_HANG_FIRST_VALID) first).trans valid, (all.others _ _ (by decide)).trans (count 0), fun yes => ?_, fun no => ⟨?_, ?_⟩, fun p hp => all.keeps p ((alerts p).trans hp), sets⟩
  · rw [first, stays yes]
  · obtain ⟨word, -⟩ := fresh no
    rw [Mod.fld, show Fld.reg .MC_HANG_FIRST_KIND = .MC_HANG_FIRST from rfl, first, word]
    exact kind
  · obtain ⟨-, frame⟩ := fresh no
    rw [← frame]
    exact Mod.pair_congr (all.others _ _ (by decide)) (all.others _ _ (by decide))

/-- What the records of some hung units change and show. -/
theorem Mod.recordHangs_spec {f : Nat} (ks : List Nat) {s : Mod} (now : s.fc.num = f) :
    let t := ks.foldl (Mod.recordHang f) s
    Reported s t ∧ (s.bit .MC_HANG_FIRST_VALID 0 = true → t.bit .MC_HANG_FIRST_VALID 0 = true ∧ t.rd .MC_HANG_FIRST 0 = s.rd .MC_HANG_FIRST 0) ∧ (ks ≠ [] → t.bit .MC_HANG_FIRST_VALID 0 = true)
      ∧ t.rd .MC_HANG_COUNT 0 = s.rd .MC_HANG_COUNT 0
      ∧ (∀ p, s.bit .CQ_ALERT_CAUSE_HANG p = true → t.bit .CQ_ALERT_CAUSE_HANG p = true) ∧ ∀ u ∈ ks, ∀ p ∈ s.unitPols u, t.bit .CQ_ALERT_CAUSE_HANG p = true := by
  induction ks generalizing s with
  | nil => exact ⟨.refl s, fun h => ⟨h, rfl⟩, fun h => absurd rfl h, rfl, fun _ h => h, fun _ h => absurd h List.not_mem_nil⟩
  | cons k ks ih =>
    obtain ⟨reported, valid, count, stays, -, keeps, sets⟩ := Mod.recordHang_spec k now
    obtain ⟨more, kept, -, counts, alerts, others⟩ := ih (s := Mod.recordHang f s k) (by rw [reported.rest]; exact now)
    obtain ⟨still, word⟩ := kept valid
    refine ⟨reported.trans more, fun h => ⟨still, word.trans (stays h)⟩, fun _ => still, counts.trans count, fun p hp => alerts p (keeps p hp), fun u hu p hp => ?_⟩
    rcases List.mem_cons.1 hu with same | there
    · exact alerts p (sets p (same ▸ hp))
    · exact others u there p (by rwa [Mod.unitPols_congr reported])

/-- The state with the hangs counted. -/
def Mod.hangCounted (s : Mod) : Mod := s.countReg .MC_HANG_COUNT 0 1

theorem Mod.hangCounted_spec (s : Mod) : Reported s s.hangCounted ∧ (s.hangCounted.rd .MC_HANG_COUNT 0).toNat = min 0xFFFFFFFF ((s.rd .MC_HANG_COUNT 0).toNat + 1) ∧ ∀ r i, r ≠ .MC_HANG_COUNT → s.hangCounted.rd r i = s.rd r i := by
  refine ⟨s.put_reported 0 _ (by decide), ?_, fun r i hr => s.rd_put_of_reg_ne 0 i _ hr⟩
  unfold Mod.hangCounted Mod.countReg satCount
  rw [Mod.rd_put_same, BitVec.toNat_ofNat]
  omega

/-- A report of hung units: counted once, the first recorded, and the polders alerted. -/
theorem Mod.reportHang_spec {s : Mod} (ks : List Nat) :
    let t := s.reportHang s.fc.num ks
    Reported s t ∧ (s.bit .MC_HANG_FIRST_VALID 0 = true → t.rd .MC_HANG_FIRST 0 = s.rd .MC_HANG_FIRST 0) ∧ (ks ≠ [] → t.bit .MC_HANG_FIRST_VALID 0 = true)
      ∧ (t.rd .MC_HANG_COUNT 0).toNat = min 0xFFFFFFFF ((s.rd .MC_HANG_COUNT 0).toNat + 1) ∧ ∀ u ∈ ks, ∀ p ∈ s.unitPols u, t.bit .CQ_ALERT_CAUSE_HANG p = true := by
  obtain ⟨reported, kept, valid, counts, -, alerts⟩ := Mod.recordHangs_spec (f := s.fc.num) ks (s := s) rfl
  have e : s.reportHang s.fc.num ks = (ks.foldl (Mod.recordHang s.fc.num) s).hangCounted.snapshots 1 (ks.map unitDomain) := rfl
  rw [e]
  generalize ks.foldl (Mod.recordHang s.fc.num) s = u at reported kept valid counts alerts
  obtain ⟨counted, count, others⟩ := u.hangCounted_spec
  have rd {r : RegName} (i : Nat) (hs : r ≠ .MC_SNAP_STATUS) (hc : r ≠ .MC_HANG_COUNT) : (u.hangCounted.snapshots 1 (ks.map unitDomain)).rd r i = u.rd r i :=
    (Mod.snapshots_rd _ _ _ i hs).trans (others r i hc)
  have first := rd (r := .MC_HANG_FIRST) 0 (by decide) (by decide)
  refine ⟨(reported.trans counted).trans (Mod.snapshots_reported _ _ _), fun h => first.trans (kept h).2, fun h => (Mod.bit_congr (f := .MC_HANG_FIRST_VALID) first).trans (valid h), ?_, fun k hk p hp => ?_⟩
  · rw [Mod.snapshots_rd _ _ _ _ (by decide), count, counts]
  · exact (Mod.bit_congr (f := .CQ_ALERT_CAUSE_HANG) (rd p (by decide) (by decide))).trans (alerts k hk p hp)

/-- The record of a first hang, of one unit, keeps its kind and its frame. -/
theorem Mod.reportHang_first {s : Mod} (k : Nat) (no : s.bit .MC_HANG_FIRST_VALID 0 = false) :
    (s.reportHang s.fc.num [k]).fld .MC_HANG_FIRST_KIND 0 = (unitParts k).1 % 16 ∧ (s.reportHang s.fc.num [k]).pair .MC_HANG_FRAME_LO .MC_HANG_FRAME_HI 0 = s.fc.num % 2 ^ 64 := by
  obtain ⟨-, -, -, -, fresh, -⟩ := Mod.recordHang_spec k (f := s.fc.num) (s := s) rfl
  obtain ⟨kind, frame⟩ := fresh no
  have e : s.reportHang s.fc.num [k] = (Mod.recordHang s.fc.num s k).hangCounted.snapshots 1 [unitDomain k] := rfl
  rw [e]
  generalize Mod.recordHang s.fc.num s k = u at kind frame
  obtain ⟨-, -, others⟩ := u.hangCounted_spec
  have rd {r : RegName} (i : Nat) (hs : r ≠ .MC_SNAP_STATUS) (hc : r ≠ .MC_HANG_COUNT) : (u.hangCounted.snapshots 1 [unitDomain k]).rd r i = u.rd r i :=
    (Mod.snapshots_rd _ _ _ i hs).trans (others r i hc)
  exact ⟨(Mod.fld_congr (f := .MC_HANG_FIRST_KIND) (rd 0 (by decide) (by decide))).trans kind, (Mod.pair_congr (rd 0 (by decide) (by decide)) (rd 0 (by decide) (by decide))).trans frame⟩

/-! ## What is done about hung units -/

/-- Nothing is done about hung units with ACTION 0. -/
theorem Mod.actOnHang_none {s : Mod} (f : Nat) (ks : List Nat) (ts : List (Nat × Nat)) (h : s.fld .MC_HANG_CTRL_ACTION 0 = 0) : s.actOnHang f ks ts = s := if_pos h

/-- The work that hung units hold ends, with its steps. -/
def Mod.endHung (s : Mod) (f : Nat) (ks : List Nat) : Mod :=
  let hit (c : Cmd) : Bool := ks.any fun k => s.worksOnUnit k (c.before [0xF0] f)
  (dedup (((s.cq.cmds.filter hit).filter (·.step)).map (·.pol))).foldl (fun t p => t.abandonStep p 64 true false) (s.endCmds hit 0xF2 f)

theorem Mod.endHung_prepared (s : Mod) (f : Nat) (ks : List Nat) : Prepared s (s.endHung f ks) :=
  Prepared.foldl (s.endCmds_prepared _ _ _) (fun t _ => t.abandonStep_prepared _ _ _ _) _

/-- The reset of one hung domain: asked for in a sluice, begun outside one. -/
def Mod.resetHung (f : Nat) (s : Mod) (t : Nat × Nat) : Mod := if s.fc.window.isSome then s.askReset t.1 t.2 1 [] else s.beginReset t.1 t.2 1 f []

theorem Mod.actOnHang_eq {s : Mod} (f : Nat) (ks : List Nat) (ts : List (Nat × Nat)) (h : s.fld .MC_HANG_CTRL_ACTION 0 ≠ 0) :
    s.actOnHang f ks ts = if s.fld .MC_HANG_CTRL_ACTION 0 = 1 then s.endHung f ks else ts.foldl (Mod.resetHung f) (s.endHung f ks) := if_neg h

theorem Mod.resetHung_calm {s : Mod} (f : Nat) (t : Nat × Nat) (h : s.rel.hung = []) : (s.resetHung f t).rel.hung = [] := by
  unfold Mod.resetHung
  split
  · exact h
  · unfold Mod.beginReset
    refine Mod.resetNow_calm _ _ _ _ _ ?_
    split
    · exact h
    · exact (Mod.prepReset_prepared _ _ _ _ _).hung.trans h

theorem Mod.actOnHang_calm {s : Mod} (f : Nat) (ks : List Nat) (ts : List (Nat × Nat)) (h : s.rel.hung = []) : (s.actOnHang f ks ts).rel.hung = [] := by
  by_cases none : s.fld .MC_HANG_CTRL_ACTION 0 = 0
  · rw [Mod.actOnHang_none f ks ts none]
    exact h
  · have ended : (s.endHung f ks).rel.hung = [] := (s.endHung_prepared f ks).hung.trans h
    rw [Mod.actOnHang_eq f ks ts none]
    split
    · exact ended
    · exact foldl_keeps (P := fun t : Mod => t.rel.hung = []) (fun t a ht => t.resetHung_calm f a ht) ts ended

/-- In a sluice, with ACTION 2, the reset of the only target is asked for. -/
theorem Mod.actOnHang_asks {s : Mod} (f : Nat) (ks : List Nat) (t : Nat × Nat) (two : s.fld .MC_HANG_CTRL_ACTION 0 = 2) (window : s.fc.window ≠ none) :
    (s.actOnHang f ks [t]).rel.asked = s.rel.asked ++ [⟨t.1, t.2, 0, 1, []⟩] := by
  have ended := s.endHung_prepared f ks
  have taken : (s.endHung f ks).fc.window.isSome = true := by
    rw [ended.fc]
    exact Option.isSome_iff_ne_none.2 window
  rw [Mod.actOnHang_eq f ks [t] (by omega), if_neg (by omega)]
  show ((s.endHung f ks).resetHung f t).rel.asked = _
  rw [Mod.resetHung, if_pos taken, ← ended.asked]
  rfl

/-- The state in which the units found hung are taken up. -/
def Mod.hungTaken (s : Mod) : Mod := { s with rel := { s.rel with hung := [] } }

theorem Mod.onHang_eq (s : Mod) :
    s.onHang = (s.hungTaken.reportHang s.fc.num (sortBy id s.rel.hung)).actOnHang s.fc.num (sortBy id s.rel.hung) (Mod.onHang.dedup' ((sortBy id s.rel.hung).filterMap s.hangTarget)) := rfl

theorem hangsAreReportedAndActedOn : HangsAreReportedAndActedOn := by
  intro s k ks hung
  have due : (!s.m.rel.hung.isEmpty) = true := by
    rw [hung]
    rfl
  have run : exec .hangDetect s = .next { s with m := s.m.onHang.resume } := State.when_true _ due
  have order := sortBy_perm id s.m.rel.hung
  obtain ⟨reported, stays, valid, count, alerts⟩ := Mod.reportHang_spec (s := s.m.hungTaken) (sortBy id s.m.rel.hung)
  have action : (s.m.hungTaken.reportHang s.m.fc.num (sortBy id s.m.rel.hung)).fld .MC_HANG_CTRL_ACTION 0 = s.m.fld .MC_HANG_CTRL_ACTION 0 := Mod.fld_congr (reported.regs _ _ (by decide))
  refine ⟨_, run, ?_, fun zero => ?_, fun two only window a b target => ?_⟩
  · rw [Mod.onHang_eq]
    exact Mod.actOnHang_calm _ _ _ reported.prepared.hung
  · rw [Mod.onHang_eq, Mod.actOnHang_none _ _ _ (action.trans zero)]
    refine ⟨reported.cq, reported.ue, reported.prepared.resets, reported.prepared.asked, valid fun e => ?_, count, stays, fun u hu p hp => ?_⟩
    · rw [e, hung] at order
      exact absurd order.symm (List.not_perm_cons_nil ·)
    · exact alerts u (order.mem_iff.2 (hung ▸ hu)) p hp
  · have sorted : sortBy id s.m.rel.hung = [k] := by
      rw [hung, only]
      rfl
    rw [sorted] at reported action
    rw [Mod.onHang_eq, sorted, List.filterMap_cons_some target]
    have frame : (s.m.hungTaken.reportHang s.m.fc.num [k]).fc = s.m.fc := reported.prepared.fc
    exact (Mod.actOnHang_asks _ _ (a, b) (action.trans two) (by rwa [frame])).trans (congrArg (· ++ _) reported.prepared.asked)

/-! ## The sluice watchdog -/

/-- Two states of the module that agree but in what the port has sent or will send. -/
def OnlyMessaged (s t : Mod) : Prop := t = { s with pci := t.pci, io := t.io }

theorem Mod.sendVec_messaged (s : Mod) (k : Nat) : OnlyMessaged s (s.sendVec k) := by
  unfold Mod.sendVec
  dsimp only
  split
  · rfl
  · split
    · rfl
    · rfl

theorem Mod.sendDue_messaged (s : Mod) : OnlyMessaged s s.sendDue := by
  unfold Mod.sendDue
  refine foldl_keeps (P := OnlyMessaged s) (fun t k ht => ?_) _ rfl
  have sent := t.sendVec_messaged k
  unfold OnlyMessaged at *
  rw [sent, ht]

theorem OnlyMessaged.rd {s t : Mod} (h : OnlyMessaged s t) (r : RegName) (i : Nat) : t.rd r i = s.rd r i := by
  rw [h]
  rfl

theorem sluiceWatchdogReportsKind10 : SluiceWatchdogReportsKind10 := by
  intro late s enabled some window calm
  have free : (s.m.rel.resets.any fun r => r.kind == 2 || r.kind == 5) = false := by
    rw [List.any_eq_false]
    intro r hr
    obtain ⟨hub, module⟩ := calm r hr
    simp [hub, module]
  have ready : (s.m.bit .MC_HANG_CTRL_EN 0 && late != 0 && s.m.fc.window.isNone && !s.m.rel.resets.any fun r => r.kind == 2 || r.kind == 5) = true := by
    rw [enabled, bne_iff_ne.2 some, window, free]
    rfl
  have run : exec (.sluiceWatchdog late) s = .next { s with m := s.m.watchdog late } := State.when_true _ ready
  refine ⟨_, run, rfl, fun zero => ?_⟩
  have e : s.m.watchdog late = ((s.m.reportHang s.m.fc.num [unitKey 10 0 0]).actOnHang s.m.fc.num [unitKey 10 0 0]
    (if late.getLsbD 4 then [(2, 0)] else ([0, 1, 2, 3].filter fun d => late.toNat.testBit d).map fun d => (1, d))).sendDue := rfl
  obtain ⟨reported, -, valid, count, -⟩ := Mod.reportHang_spec (s := s.m) [unitKey 10 0 0]
  have first := Mod.reportHang_first (s := s.m) (unitKey 10 0 0)
  rw [Mod.actOnHang_none _ _ _ ((Mod.fld_congr (reported.regs _ _ (by decide))).trans zero)] at e
  show (s.m.watchdog late).cq = s.m.cq ∧ (s.m.watchdog late).ue = s.m.ue ∧ (s.m.watchdog late).rel.resets = s.m.rel.resets ∧ _
  rw [e]
  generalize s.m.reportHang s.m.fc.num [unitKey 10 0 0] = t at reported valid count first
  have sent := t.sendDue_messaged
  have cq : t.sendDue.cq = t.cq := by rw [sent]
  have ue : t.sendDue.ue = t.ue := by rw [sent]
  have rel : t.sendDue.rel = t.rel := by rw [sent]
  refine ⟨cq.trans reported.cq, ue.trans reported.ue, (congrArg Rel.resets rel).trans reported.prepared.resets, ?_, fun no => ?_⟩
  · show (t.sendDue.rd .MC_HANG_COUNT 0).toNat = _
    rw [sent.rd]
    exact count
  · obtain ⟨kind, frame⟩ := first no
    exact ⟨(Mod.fld_congr (sent.rd _ _)).trans kind, (Mod.bit_congr (sent.rd _ _)).trans (valid (List.cons_ne_nil _ _)), (Mod.pair_congr (sent.rd _ _) (sent.rd _ _)).trans frame⟩

/-- Settles O29: a command past its limit is marked, the units found hung are counted, recorded and alerted, and so is the sluice's own hang; what ACTION asks for is done after that. -/
theorem timeoutsAndHangsAreReported : Obligations.TimeoutsAndHangsAreReported := ⟨weirTimeout_ends, hangsAreReportedAndActedOn, sluiceWatchdogReportsKind10⟩

end Sys2Proof.Machine
end

section
/-! SUPPORT. Supplies and pins: what their changes leave (13_reliability_and_recovery.md R389 to R391, 18_pins_and_electrical.md R466, R479 to R483). -/

namespace Sys2Proof.Machine

/-! ## The alert byte and the rails -/

/-- Causes latched in the alert byte change it and, with an in-band interrupt, what is sent. -/
theorem State.latch_eq (s : State) (b : Nat) : ∃ io, s.latch b = { s with m := { s.m with io := io }, i3c := { s.i3c with alert := s.i3c.alert ||| b } } := by
  unfold State.latch
  dsimp only
  split
  · exact ⟨_, rfl⟩
  · exact ⟨s.m.io, rfl⟩

theorem State.powerOn_rises {s : State} (h : MayRise s.pins) : s.powerOn = { s with pins := { s.pins with pwrGood := true, rails := 0x1FF } } := by
  obtain ⟨aux, enabled, volt, fault, good⟩ := h
  exact if_pos ⟨aux, enabled, volt, by rw [fault]; rfl, by rw [good]; rfl⟩

theorem State.powerOn_stays {s : State} (h : ¬ MayRise s.pins) : s.powerOn = s :=
  if_neg fun ⟨aux, enabled, volt, fault, good⟩ => h ⟨aux, enabled, volt, by simpa using fault, by simpa using good⟩

theorem State.powerOn_spec (s : State) : s.powerOn.m = s.m ∧ s.powerOn.i3c = s.i3c ∧ s.powerOn.tap = s.tap ∧ (MayRise s.pins → s.powerOn.pins = { s.pins with pwrGood := true, rails := 0x1FF }) ∧ (¬ MayRise s.pins → s.powerOn.pins = s.pins) := by
  by_cases h : MayRise s.pins
  · rw [State.powerOn_rises h]
    exact ⟨rfl, rfl, rfl, fun _ => rfl, fun no => absurd h no⟩
  · rw [State.powerOn_stays h]
    exact ⟨rfl, rfl, rfl, fun yes => absurd yes h, fun _ => rfl⟩

theorem powerGoodRisesWhenAllIsThere : PowerGoodRisesWhenAllIsThere := by
  intro i s pins cause
  rcases cause with ⟨straps, rfl, aux, rfl⟩ | ⟨rfl, rfl⟩ | ⟨rfl, rfl⟩
  · have run : exec (.auxPowerUp straps) s = .next (State.powerOn { s with pins := { s.pins with aux := true, straps := straps.toNat }, i3c := ⟨none, false, 32, 32, 0, 0⟩, tap := ⟨1, s.tap.boundary⟩ }) :=
      if_neg (by simp [aux])
    obtain ⟨m, i3c, tap, rise, stay⟩ := State.powerOn_spec { s with pins := { s.pins with aux := true, straps := straps.toNat }, i3c := ⟨none, false, 32, 32, 0, 0⟩, tap := ⟨1, s.tap.boundary⟩ }
    refine ⟨_, run, m, rise, stay, ?_⟩
    rw [if_pos ⟨aux, straps, rfl⟩]
    exact ⟨i3c, tap⟩
  · obtain ⟨m, i3c, tap, rise, stay⟩ := State.powerOn_spec { s with pins := { s.pins with pwrEn := true } }
    refine ⟨_, rfl, m, rise, stay, ?_⟩
    rw [if_neg (fun ⟨_, _, h⟩ => nomatch h)]
    exact ⟨i3c, tap⟩
  · obtain ⟨m, i3c, tap, rise, stay⟩ := State.powerOn_spec { s with pins := { s.pins with volt := .inRange } }
    refine ⟨_, rfl, m, rise, stay, ?_⟩
    rw [if_neg (fun ⟨_, _, h⟩ => nomatch h)]
    exact ⟨i3c, tap⟩

/-! ## Loss of the rails -/

theorem Mod.powerLost_gone (s : Mod) : RailsGone s.powerLost := ⟨rfl, rfl, rfl, rfl, rfl, rfl, rfl, rfl, rfl, rfl, rfl, rfl, rfl⟩

theorem State.powerOff_good {s : State} (h : s.pins.pwrGood = true) :
    s.powerOff = { s with pins := { s.pins with pwrGood := false, rails := 0, memKept := false, resetDue := false }, m := s.m.powerLost } := if_pos h

theorem State.powerOff_bad {s : State} (h : s.pins.pwrGood = false) : s.powerOff = s := if_neg (by simp [h])

theorem lossOfTheRailsLosesWhatTheyHold : LossOfTheRailsLosesWhatTheyHold := by
  intro s
  refine ⟨fun good => ⟨?_, ?_, fun rail => ?_⟩, fun bad => ⟨?_, ?_, fun rail => ?_⟩⟩
  · have run : exec .pwrEnDeassert s = .next { s.powerOff with pins := { s.powerOff.pins with pwrEn := false, railFault := false } } := rfl
    rw [State.powerOff_good good] at run
    exact ⟨_, run, s.m.powerLost_gone, rfl⟩
  · have run : exec .p48vBelow36V s = .next { (State.powerOff { s with pins := { s.pins with volt := .absent } }).latch 0x08 with pins := { ((State.powerOff { s with pins := { s.pins with volt := .absent } }).latch 0x08).pins with railFault := true } } := if_pos good
    rw [State.powerOff_good (s := { s with pins := { s.pins with volt := .absent } }) good] at run
    obtain ⟨io, e⟩ := State.latch_eq { s with pins := { s.pins with volt := .absent, pwrGood := false, rails := 0, memKept := false, resetDue := false }, m := s.m.powerLost } 0x08
    rw [e] at run
    exact ⟨_, run, s.m.powerLost_gone, rfl, rfl⟩
  · have run : exec (.railFault rail) s = .next { s.powerOff.latch 0x08 with pins := { (s.powerOff.latch 0x08).pins with railFault := true, rails := 2 ^ rail.val } } := if_pos good
    rw [State.powerOff_good good] at run
    obtain ⟨io, e⟩ := State.latch_eq { s with pins := { s.pins with pwrGood := false, rails := 0, memKept := false, resetDue := false }, m := s.m.powerLost } 0x08
    rw [e] at run
    exact ⟨_, run, s.m.powerLost_gone, rfl, rfl⟩
  · have run : exec .pwrEnDeassert s = .next { s.powerOff with pins := { s.powerOff.pins with pwrEn := false, railFault := false } } := rfl
    rwa [State.powerOff_bad bad] at run
  · exact if_neg (by simp [bad])
  · exact if_neg (by simp [bad])

/-! ## Loss of the auxiliary supply -/

/-- Some registers of the ledger are set. -/
def Mod.putLedger (s : Mod) (ks : List Nat) (v : Nat → Word) : Mod := ks.foldl (fun t k => t.put .MC_LEDGER k (v k)) s

theorem Mod.putLedger_rest (s : Mod) (ks : List Nat) (v : Nat → Word) : s.putLedger ks v = { s with rf := (s.putLedger ks v).rf } :=
  foldl_keeps (P := fun t : Mod => t = { s with rf := t.rf }) (fun t k ht => by
    have put : t.put .MC_LEDGER k (v k) = { t with rf := (t.put .MC_LEDGER k (v k)).rf } := rfl
    rw [put, ht]) ks rfl

theorem Mod.putLedger_other (s : Mod) (ks : List Nat) (v : Nat → Word) {r : RegName} (i : Nat) (h : r ≠ .MC_LEDGER) : (s.putLedger ks v).rd r i = s.rd r i :=
  foldl_keeps (P := fun t : Mod => t.rd r i = s.rd r i) (fun t k ht => (t.rd_put_of_reg_ne k i _ h).trans ht) ks rfl

theorem Mod.putLedger_same (s : Mod) {ks : List Nat} (v : Nat → Word) {k : Nat} (h : k ∈ ks) : (s.putLedger ks v).rd .MC_LEDGER k = v k := by
  induction ks using List.reverseRecOn with
  | nil => exact absurd h List.not_mem_nil
  | append_singleton ks j ih =>
    have last : s.putLedger (ks ++ [j]) v = (s.putLedger ks v).put .MC_LEDGER j (v j) := List.foldl_append
    rw [last]
    by_cases same : k = j
    · rw [same, Mod.rd_put_same]
    · rw [Mod.rd_put_of_idx_ne _ _ _ _ same]
      exact ih ((List.mem_append.1 h).resolve_right fun there => same (List.mem_singleton.1 there))

/-- What is left of the module without the auxiliary supply, before the ledger is read from flash. -/
def Mod.auxLost (s : Mod) : Mod :=
  { s.powerLost with fc := { s.powerLost.fc with mgmt := 0 }, rf := { s.powerLost.rf with vals := .empty }, pwr := { s.powerLost.pwr with capBus := 3200, askBus := none, readings := .empty } }

/-- The state with the ledger's places as flash has them. -/
def Mod.ledgerPlaced (s : Mod) : Mod := { s with rel := { s.rel with ledgerPos := s.rel.flash.pos, alts := s.rel.flash.alts } }

theorem Mod.loadLedger_eq (s : Mod) : s.loadLedger = s.ledgerPlaced.putLedger (List.range 256) fun k => s.rel.flash.words.getD k 0 := by
  have all (ks : List Nat) : ks.foldl (fun t k => t.put .MC_LEDGER k (t.rel.flash.words.getD k 0)) s.ledgerPlaced = s.ledgerPlaced.putLedger ks fun k => s.rel.flash.words.getD k 0 := by
    induction ks using List.reverseRecOn with
    | nil => rfl
    | append_singleton ks j ih =>
      have last : s.ledgerPlaced.putLedger (ks ++ [j]) (fun k => s.rel.flash.words.getD k 0) = (s.ledgerPlaced.putLedger ks fun k => s.rel.flash.words.getD k 0).put .MC_LEDGER j (s.rel.flash.words.getD j 0) := List.foldl_append
      rw [List.foldl_append, ih, last]
      have flash : (s.ledgerPlaced.putLedger ks fun k => s.rel.flash.words.getD k 0).rel = s.ledgerPlaced.rel := by rw [Mod.putLedger_rest]
      show Mod.put _ _ _ _ = _
      rw [flash]
      rfl
  exact all _

theorem auxLossLeavesTheFlashCopyOfTheLedger : AuxLossLeavesTheFlashCopyOfTheLedger := by
  intro s aux
  have run : exec .auxUndervoltage s = .next { s with m := s.m.auxLost.loadLedger, pins := { s.pins with aux := false, pwrGood := false, rails := 0, railFault := false, thermTrip := false, shutdown := false, memKept := false, resetDue := false }, i3c := ⟨none, false, 32, 32, 0, 0⟩ } := if_pos aux
  have rest := s.m.auxLost.ledgerPlaced.putLedger_rest (List.range 256) fun k => s.m.rel.flash.words.getD k 0
  have ledger (k : Nat) (h : k < 256) := s.m.auxLost.ledgerPlaced.putLedger_same (fun k => s.m.rel.flash.words.getD k 0) (List.mem_range.2 h)
  have other {r : RegName} (i : Nat) (h : r ≠ .MC_LEDGER) := s.m.auxLost.ledgerPlaced.putLedger_other (List.range 256) (fun k => s.m.rel.flash.words.getD k 0) i h
  have e : s.m.auxLost.loadLedger = s.m.auxLost.ledgerPlaced.putLedger (List.range 256) fun k => s.m.rel.flash.words.getD k 0 := Mod.loadLedger_eq _
  rw [e] at run
  generalize s.m.auxLost.ledgerPlaced.putLedger (List.range 256) (fun k => s.m.rel.flash.words.getD k 0) = t at run rest ledger other
  have gone : RailsGone t := by
    rw [rest]
    exact s.m.powerLost_gone
  have rel : t.rel = s.m.auxLost.ledgerPlaced.rel := by rw [rest]
  have pwr : t.pwr = s.m.auxLost.pwr := by
    rw [rest]
    rfl
  refine ⟨_, run, gone, rfl, rfl, rfl, rfl, rfl, rfl, rfl, ?_, ?_, ?_, ?_, ledger, fun r k h => other k h⟩
  · exact (congrArg Rel.flash rel :)
  · exact (congrArg Rel.ledgerPos rel :)
  · exact (congrArg Power.readings pwr :)
  · exact (congrArg Power.capBus pwr :)

/-! ## Shutdowns and PERST# -/

/-- A module reset that is under way, or that no other holds, takes the port down and is under way. -/
theorem Mod.resetNow_module {s : Mod} (cause f : Nat) (cmds : List (Nat × Nat)) (h : s.rel.resets.any (·.kind == 5) = false) :
    (s.resetNow 5 0 cause f cmds).rel.resets.any (·.kind == 5) = true ∧ (s.resetNow 5 0 cause f cmds).pci.up = false := by
  have free : (s.rel.resets.find? fun r => s.holds r.kind r.index 5 0) = none := by
    rw [List.find?_eq_none]
    intro r hr held
    have kind : r.kind ≠ 5 := fun five => by
      rw [List.any_eq_false] at h
      exact h r hr (beq_iff_eq.2 five)
    simp [Mod.holds, kind] at held
  rw [Mod.resetNow_eq cause f cmds free]
  constructor
  · rw [Mod.resetMarks_rel]
    simp
  · have down : (s.resetLoses 5 0 f).pci.up = false := rfl
    have cleared := Mod.resetClears_cleared (s.resetLoses 5 0 f) 5 0 cause
    have marked (t : Mod) (inside : List ResetS) : (t.resetMarks 5 0 cause f cmds inside).pci = t.pci := rfl
    rw [marked, cleared.rest]
    exact down

/-- A module reset while no sluice is taken: it is under way at once. -/
theorem Mod.resetAll_idle {s : Mod} (cause : Nat) (h : s.running = false) :
    (s.resetAll cause).rel.resets.any (·.kind == 5) = true ∧ (s.pci.up = false → (s.resetAll cause).pci.up = false) := by
  unfold Mod.resetAll
  rw [if_neg (by simp [h])]
  split
  · next already => exact ⟨already, fun down => down⟩
  · next none =>
    have free : s.rel.resets.any (·.kind == 5) = false := by simpa using none
    unfold Mod.beginReset
    dsimp only
    have kept : (if s.rel.resets.any fun r => s.holds r.kind r.index 5 0 then s else s.prepReset 5 0 cause s.fc.num).rel.resets = s.rel.resets := by
      split
      · rfl
      · exact (s.prepReset_prepared _ _ _ _).resets
    obtain ⟨under, down⟩ := Mod.resetNow_module cause s.fc.num [] (s := if s.rel.resets.any fun r => s.holds r.kind r.index 5 0 then s else s.prepReset 5 0 cause s.fc.num) (by rw [kept]; exact free)
    exact ⟨under, fun _ => down⟩

/-- A module reset while sluices are taken is asked for. -/
theorem Mod.resetAll_asked {s : Mod} (cause : Nat) (h : s.running = true) : s.resetAll cause = { s with rel := { s.rel with asked := s.rel.asked ++ [⟨5, 0, 0, cause, []⟩] } } := if_pos h

/-- What a module reset leaves of the port, and what it asks for or begins. -/
theorem Mod.resetAll_spec (s : Mod) (cause : Nat) :
    (s.running = true → (s.resetAll cause).rel.asked = s.rel.asked ++ [⟨5, 0, 0, cause, []⟩] ∧ (s.resetAll cause).mem = s.mem ∧ (s.resetAll cause).cq = s.cq)
      ∧ (s.running = false → (s.resetAll cause).rel.resets.any (·.kind == 5) = true) ∧ (s.pci.up = false → (s.resetAll cause).pci.up = false) := by
  cases h : s.running with
  | true =>
    rw [Mod.resetAll_asked cause h]
    exact ⟨fun _ => ⟨rfl, rfl, rfl⟩, fun no => (nomatch no), fun down => down⟩
  | false =>
    obtain ⟨under, down⟩ := Mod.resetAll_idle cause h
    exact ⟨fun no => (nomatch no), fun _ => under, down⟩

/-- A shutdown that begins: the pins, the alert byte and the module's reset. -/
theorem State.beginShutdown_spec (s : State) (high : Bool) :
    let t := s.beginShutdown high
    t.i3c.alert = s.i3c.alert ||| (if high then 0x42 else 0x02) ∧ t.pins.volt = s.pins.volt
      ∧ (s.pins.shutdown = false → t.pins.shutdown = true ∧ t.pins.thermTrip = true ∧ t.pins.memKept = true ∧ t.m.bit .MC_TH_STATUS_SHUTDOWN 0 = true
        ∧ (s.m.running = true → t.m.rel.asked = s.m.rel.asked ++ [⟨5, 0, 0, 3, []⟩] ∧ t.m.mem = s.m.mem ∧ t.m.cq = s.m.cq) ∧ (s.m.running = false → t.m.rel.resets.any (·.kind == 5) = true))
      ∧ (s.pins.shutdown = true → t.pins.thermTrip = s.pins.thermTrip ∧ t.m.rel = s.m.rel ∧ t.m.mem = s.m.mem) := by
  obtain ⟨io, e⟩ := s.latch_eq (if high then 0x42 else 0x02)
  intro t
  have te : t = if (s.latch (if high then 0x42 else 0x02)).pins.shutdown then s.latch (if high then 0x42 else 0x02) else
    { s.latch (if high then 0x42 else 0x02) with pins := { (s.latch (if high then 0x42 else 0x02)).pins with shutdown := true, thermTrip := true, memKept := true }, m := ((s.latch (if high then 0x42 else 0x02)).m.resetAll 3).raiseNow .MC_TH_STATUS_SHUTDOWN 0 } := rfl
  rw [e] at te
  dsimp only at te
  cases down : s.pins.shutdown with
  | true =>
    rw [if_pos down] at te
    rw [te]
    exact ⟨rfl, rfl, fun no => (nomatch no), fun _ => ⟨rfl, rfl, rfl⟩⟩
  | false =>
    rw [if_neg (by simp [down])] at te
    obtain ⟨asked, under, -⟩ := Mod.resetAll_spec { s.m with io := io } 3
    have shown := Mod.bit_raiseNow_same (Mod.resetAll { s.m with io := io } 3) .MC_TH_STATUS_SHUTDOWN 0 (by decide)
    rw [te]
    exact ⟨rfl, rfl, fun _ => ⟨rfl, rfl, rfl, shown, asked, under⟩, fun no => (nomatch no)⟩

theorem shutdownsAndPerstResetTheModule : ShutdownsAndPerstResetTheModule := by
  intro s due
  constructor
  · intro high good
    cases high with
    | true =>
      have run : exec (.inputVoltageFault true) s = .next (s.beginShutdown true) := if_pos good
      exact ⟨_, run, s.beginShutdown_spec true⟩
    | false =>
      have run : exec (.inputVoltageFault false) s = .next (State.beginShutdown { s with pins := { s.pins with volt := .low } } false) := if_pos good
      exact ⟨_, run, State.beginShutdown_spec { s with pins := { s.pins with volt := .low } } false⟩
  · by_cases acts : s.pins.pwrGood = true ∧ s.pins.shutdown = false
    · obtain ⟨good, up⟩ := acts
      have run : exec .perstAssert s = .next { s with pins := { s.pins with perst := true, memKept := true }, m := Mod.resetAll { s.m with pci := { s.m.pci with up := false } } 3 } :=
        if_pos ⟨good, by simp [up]⟩
      obtain ⟨asked, under, down⟩ := Mod.resetAll_spec { s.m with pci := { s.m.pci with up := false } } 3
      exact ⟨_, run, rfl, down rfl, fun _ _ => ⟨rfl, asked, under⟩, fun no => by simp [good, up] at no⟩
    · have run : exec .perstAssert s = .next { s with pins := { s.pins with perst := true }, m := { s.m with pci := { s.m.pci with up := false } } } :=
        if_neg fun ⟨good, up⟩ => acts ⟨good, by simpa using up⟩
      exact ⟨_, run, rfl, rfl, fun good up => absurd ⟨good, up⟩ acts, fun _ => rfl⟩

/-- Settles O44: each row's own equation, with what a lost rail, a lost supply and a module reset leave. -/
theorem powerComesAndGoes : Obligations.PowerComesAndGoes :=
  ⟨powerGoodRisesWhenAllIsThere, lossOfTheRailsLosesWhatTheyHold, auxLossLeavesTheFlashCopyOfTheLedger, shutdownsAndPerstResetTheModule⟩

end Sys2Proof.Machine
end

section
/-! SUPPORT. The module start: its steps, its entry in the ledger, and READY (13_reliability_and_recovery.md R389 to R391, R400). -/

namespace Sys2Proof.Machine

/-! ## The steps of a start -/

/-- A start after one that did not fail, at a step: nothing was skipped and no alternate ran. -/
def StartRun.plain (flags step : Nat) (halted cut : Bool) : StartRun := ⟨0, 0, flags, step, halted, cut⟩

/-- One step of a start after one that did not fail. -/
theorem StartRun.next_plain {x : StartRun} {n : Nat} (skipEn ends cut : Bool) (fresh : n ≠ 0) (going : x.halted = false) (alt : x.alt = 0) (skip : x.skip = 0) :
    ∃ flags, x.next n 0 skipEn ends cut = .plain flags n (ends || cut) cut := by
  unfold StartRun.next
  rw [if_neg (by simp [going])]
  dsimp only
  rw [if_neg (fun h => fresh h.1), alt, skip, decide_eq_false fresh]
  have none : setBitTo 0 (n - 1) (false && stepAlt n) = 0 := Nat.zero_sub _
  rw [none]
  exact ⟨_, rfl⟩

/-- A start that has ended goes no further. -/
theorem StartRun.foldl_halted {x : StartRun} (prev : Nat) (skipEn : Bool) (ends cut : Nat → Bool) (done : x.halted = true) (l : List Nat) :
    l.foldl (fun y n => y.next n prev skipEn (ends n) (cut n)) x = x :=
  foldl_keeps (P := fun y => y = x) (fun y n hy => by
    rw [hy]
    exact if_pos done) l rfl

/-- A start of quiet steps, none of which ends it, reaches the last. -/
theorem StartRun.foldl_quiet (skipEn : Bool) {ends cut : Nat → Bool} (l : List Nat) {x : StartRun} (going : x.halted = false) (alt : x.alt = 0) (skip : x.skip = 0) (uncut : x.cut = false)
    (h : ∀ n ∈ l, n ≠ 0 ∧ ends n = false ∧ cut n = false) :
    ∃ flags, l.foldl (fun y n => y.next n 0 skipEn (ends n) (cut n)) x = .plain flags (l.getLastD x.step) false false := by
  induction l generalizing x with
  | nil =>
    refine ⟨x.flags, ?_⟩
    cases x
    cases going
    cases alt
    cases skip
    cases uncut
    rfl
  | cons n l ih =>
    obtain ⟨fresh, calm, free⟩ := h n List.mem_cons_self
    obtain ⟨flags, e⟩ := StartRun.next_plain skipEn (ends n) (cut n) fresh going alt skip
    rw [calm, free] at e
    obtain ⟨flags', e'⟩ := ih (x := .plain flags n false false) rfl rfl rfl rfl fun k hk => h k (List.mem_cons_of_mem n hk)
    refine ⟨flags', ?_⟩
    rw [List.foldl_cons, calm, free, e, Bool.or_false, e', List.getLastD_cons]
    rfl

/-- A start ends at the first step that ends it. -/
theorem StartRun.foldl_ends (skipEn : Bool) {ends cut : Nat → Bool} {l : List Nat} {k : Nat} {x : StartRun} (going : x.halted = false) (alt : x.alt = 0) (skip : x.skip = 0)
    (there : k ∈ l) (sorted : l.Pairwise (· < ·)) (nonzero : ∀ n ∈ l, n ≠ 0) (stops : (ends k || cut k) = true) (before : ∀ n ∈ l, n < k → ends n = false ∧ cut n = false) :
    ∃ flags, l.foldl (fun y n => y.next n 0 skipEn (ends n) (cut n)) x = .plain flags k true (cut k) := by
  induction l generalizing x with
  | nil => exact absurd there List.not_mem_nil
  | cons n l ih =>
    obtain ⟨flags, e⟩ := StartRun.next_plain skipEn (ends n) (cut n) (nonzero n List.mem_cons_self) going alt skip
    obtain ⟨first, rest⟩ := List.pairwise_cons.1 sorted
    rw [List.foldl_cons, e]
    rcases List.mem_cons.1 there with rfl | later
    · rw [stops]
      exact ⟨flags, StartRun.foldl_halted _ _ _ _ rfl l⟩
    · obtain ⟨calm, free⟩ := before n List.mem_cons_self (first k later)
      rw [calm, free]
      exact ih rfl rfl rfl later rest (fun m hm => nonzero m (List.mem_cons_of_mem n hm)) fun m hm => before m (List.mem_cons_of_mem n hm)

/-- The steps of a start in the module's cold state, after one that did not fail. -/
theorem State.startRun_eq {s : State} (r : StartResult) (clean : s.m.prevFail = 0) (cold : s.pins.shutdown = false) :
    s.startRun r = [1, 2, 3, 4, 5, 6, 7, 8].foldl (fun x n => x.next n 0 (s.m.bit .MC_LEDGER_CTRL_SKIP_EN 0) (r.fails.any fun k => k.val == n) (r.cut.any fun k => k.val == n)) (.plain s.m.rel.alts 0 false false) := by
  unfold State.startRun
  simp only [clean, cold, Bool.false_and, Bool.and_false, Bool.or_false]
  rfl

theorem State.startRun_ready {s : State} {r : StartResult} (clean : s.m.prevFail = 0) (cold : s.pins.shutdown = false) (fails : r.fails = []) (cut : r.cut = none) :
    ∃ flags, s.startRun r = .plain flags 8 false false := by
  rw [State.startRun_eq r clean cold, fails, cut]
  exact StartRun.foldl_quiet _ _ rfl rfl rfl rfl (by decide)

/-- No step before k fails, or is one at which PERST# cuts the start off. -/
def FirstEnd (r : StartResult) (k : Nat) : Prop := (∀ j ∈ r.fails, 1 ≤ j.val → k ≤ j.val) ∧ ∀ j, r.cut = some j → 1 ≤ j.val → k ≤ j.val

theorem State.startRun_ends {s : State} {r : StartResult} {k : Nat} (clean : s.m.prevFail = 0) (cold : s.pins.shutdown = false) (low : 1 ≤ k) (high : k ≤ 8) (first : FirstEnd r k)
    (stops : ((r.fails.any fun j => j.val == k) || r.cut.any fun j => j.val == k) = true) : ∃ flags, s.startRun r = .plain flags k true (r.cut.any fun j => j.val == k) := by
  have there : k ∈ [1, 2, 3, 4, 5, 6, 7, 8] := by
    simp only [List.mem_cons, List.not_mem_nil, or_false]
    omega
  obtain ⟨fails, cuts⟩ := first
  rw [State.startRun_eq r clean cold]
  refine StartRun.foldl_ends _ rfl rfl rfl there (by decide) (by decide) stops fun n hn early => ⟨?_, ?_⟩
  · rw [List.any_eq_false]
    intro j hj same
    have := fails j hj
    have : n ≠ 0 := (show ∀ n ∈ [1, 2, 3, 4, 5, 6, 7, 8], n ≠ 0 by decide) n hn
    rw [beq_iff_eq] at same
    omega
  · have : n ≠ 0 := (show ∀ n ∈ [1, 2, 3, 4, 5, 6, 7, 8], n ≠ 0 by decide) n hn
    cases cut : r.cut with
    | none => rfl
    | some j =>
      have := cuts j cut
      simp only [Option.any_some, beq_eq_false_iff_ne]
      omega

/-! ## The ledger -/

/-- The step and result of a start's entry (R391). -/
def StartRun.word (x : StartRun) : Word := BitVec.ofNat 32 (x.step + (if x.cut then 1 else if x.halted then 2 else 0) * 256 + x.alt * 65536 + x.skip * 2 ^ 24)

/-- What MC_START_STATUS shows of a start (R400). -/
def StartRun.status (x : StartRun) (attempt prev : Nat) : Word := BitVec.ofNat 32 ((if x.cut then 0 else if x.halted then 2 ^ 30 else 2 ^ 31) + attempt % 256 * 65536 + prev * 256 + x.step)

/-- The place of a start's entry in the ledger, and the state with the words put there. -/
def Mod.entry (s : Mod) : Nat := s.rel.ledgerPos % 64 * 4

def Mod.putEntry (s : Mod) (e : Nat) (a b c d st : Word) : Mod := ((((s.put .MC_LEDGER e a).put .MC_LEDGER (e + 1) b).put .MC_LEDGER (e + 2) c).put .MC_LEDGER (e + 3) d).put .MC_START_STATUS 0 st

theorem Mod.putEntry_spec (s : Mod) (e : Nat) (a b c d st : Word) :
    let t := s.putEntry e a b c d st
    t.rd .MC_LEDGER e = a ∧ t.rd .MC_LEDGER (e + 1) = b ∧ t.rd .MC_LEDGER (e + 3) = d ∧ t.rd .MC_START_STATUS 0 = st := by
  intro t
  have other (i : Nat) : t.rd .MC_LEDGER i = ((((s.put .MC_LEDGER e a).put .MC_LEDGER (e + 1) b).put .MC_LEDGER (e + 2) c).put .MC_LEDGER (e + 3) d).rd .MC_LEDGER i := Mod.rd_put_of_reg_ne _ _ _ _ (by decide)
  refine ⟨?_, ?_, ?_, Mod.rd_put_same _ _ _ _⟩
  · rw [other, Mod.rd_put_of_idx_ne _ _ _ _ (by omega), Mod.rd_put_of_idx_ne _ _ _ _ (by omega), Mod.rd_put_of_idx_ne _ _ _ _ (by omega), Mod.rd_put_same]
  · rw [other, Mod.rd_put_of_idx_ne _ _ _ _ (by omega), Mod.rd_put_of_idx_ne _ _ _ _ (by omega), Mod.rd_put_same]
  · rw [other, Mod.rd_put_same]

/-- The state with a start's attempt and alternate flags taken. -/
def Mod.attempted (s : Mod) (attempt flags : Nat) : Mod := { s with rel := { s.rel with ledgerPos := attempt, alts := flags } }

theorem Mod.putEntry_attempted (s : Mod) (e : Nat) (a b c d st : Word) (attempt flags : Nat) :
    ({ ((((s.put .MC_LEDGER e a).put .MC_LEDGER (e + 1) b).put .MC_LEDGER (e + 2) c).put .MC_LEDGER (e + 3) d).put .MC_START_STATUS 0 st with
        rel := { ((((s.put .MC_LEDGER e a).put .MC_LEDGER (e + 1) b).put .MC_LEDGER (e + 2) c).put .MC_LEDGER (e + 3) d).rel with ledgerPos := attempt, alts := flags } } : Mod)
      = (s.putEntry e a b c d st).attempted attempt flags := rfl

theorem Mod.writeLedger_eq (s : Mod) (x : StartRun) (r : StartResult) :
    ∃ c, s.writeLedger x r = (s.putEntry s.entry (BitVec.ofNat 32 (s.rel.ledgerPos + 1)) x.word c r.ms (x.status (s.rel.ledgerPos + 1) s.prevFail)).attempted (s.rel.ledgerPos + 1) x.flags := by
  unfold Mod.writeLedger
  exact ⟨_, Mod.putEntry_attempted _ _ _ _ _ _ _ _ _⟩

/-- The words of flash: the ledger's, as they stand. -/
def Mod.ledgerWords (s : Mod) : Tbl Word := (List.range 256).foldl (fun t k => t.set k (s.rd .MC_LEDGER k)) .empty

theorem getD_foldl_set {α : Type} (v : Nat → α) (d : α) (t : Tbl α) {k : Nat} (l : List Nat) (h : k ∈ l) : (l.foldl (fun u j => u.set j (v j)) t).getD k d = v k := by
  induction l using List.reverseRecOn with
  | nil => exact absurd h List.not_mem_nil
  | append_singleton l j ih =>
    rw [List.foldl_append]
    show ((l.foldl (fun u j => u.set j (v j)) t).set j (v j)).getD k d = v k
    by_cases same : k = j
    · rw [same, Tbl.getD_set_same]
    · rw [Tbl.getD_set_ne _ _ _ same]
      exact ih ((List.mem_append.1 h).resolve_right fun there => same (List.mem_singleton.1 there))

theorem Mod.ledgerWords_getD (s : Mod) {k : Nat} (h : k < 256) : s.ledgerWords.getD k 0 = s.rd .MC_LEDGER k :=
  getD_foldl_set (fun k => s.rd .MC_LEDGER k) 0 .empty (List.range 256) (List.mem_range.2 h)

theorem Mod.saveLedger_eq (s : Mod) : ∃ w : Tbl Word, (∀ k < 256, w.getD k 0 = s.rd .MC_LEDGER k) ∧ s.saveLedger = { s with rel := { s.rel with flash := ⟨w, s.rel.ledgerPos, s.rel.alts⟩ } } :=
  ⟨s.ledgerWords, fun _ hk => s.ledgerWords_getD hk, rfl⟩

/-- A saved ledger is in flash. -/
theorem Mod.saveLedger_inFlash (s : Mod) : InFlash s.saveLedger := by
  obtain ⟨w, words, e⟩ := s.saveLedger_eq
  rw [e]
  exact ⟨rfl, rfl, words⟩

/-! ## What the ledger and the start's status outlive -/

/-- Two states whose ledger, its copy in flash and MC_START_STATUS are the same. -/
structure LedgerKept (s t : Mod) : Prop where
  words : ∀ i, t.rd .MC_LEDGER i = s.rd .MC_LEDGER i
  status : t.rd .MC_START_STATUS 0 = s.rd .MC_START_STATUS 0
  pos : t.rel.ledgerPos = s.rel.ledgerPos
  alts : t.rel.alts = s.rel.alts
  flash : t.rel.flash = s.rel.flash

namespace LedgerKept

theorem refl (s : Mod) : LedgerKept s s := ⟨fun _ => rfl, rfl, rfl, rfl, rfl⟩

theorem trans {s t u : Mod} (h : LedgerKept s t) (k : LedgerKept t u) : LedgerKept s u :=
  ⟨fun i => (k.words i).trans (h.words i), k.status.trans h.status, k.pos.trans h.pos, k.alts.trans h.alts, k.flash.trans h.flash⟩

theorem foldl {α : Type} {s t : Mod} {g : Mod → α → Mod} (h : LedgerKept s t) (hg : ∀ t a, LedgerKept t (g t a)) (l : List α) : LedgerKept s (l.foldl g t) :=
  foldl_keeps (P := LedgerKept s) (fun t a ht => ht.trans (hg t a)) l h

theorem ite {s t u : Mod} {c : Prop} [Decidable c] (h : LedgerKept s t) (k : LedgerKept s u) : LedgerKept s (if c then t else u) := by
  split
  · exact h
  · exact k

theorem put (s : Mod) {r : RegName} (i : Nat) (v : Word) (h : RegName.MC_LEDGER ≠ r ∧ RegName.MC_START_STATUS ≠ r) : LedgerKept s (s.put r i v) :=
  ⟨fun j => s.rd_put_of_reg_ne i j v h.1, s.rd_put_of_reg_ne i 0 v h.2, rfl, rfl, rfl⟩

theorem setFld (s : Mod) {f : Fld} (i v : Nat) (h : RegName.MC_LEDGER ≠ f.reg ∧ RegName.MC_START_STATUS ≠ f.reg) : LedgerKept s (s.setFld f i v) := put s i _ h

/-- A change of memory, descriptors, steps, the tiles' places or the port alone. -/
theorem of_rf {s t : Mod} (rf : t.rf = s.rf) (pos : t.rel.ledgerPos = s.rel.ledgerPos) (alts : t.rel.alts = s.rel.alts) (flash : t.rel.flash = s.rel.flash) : LedgerKept s t :=
  ⟨fun i => congrArg (fun x : Regs => x.get .MC_LEDGER i) rf, congrArg (fun x : Regs => x.get .MC_START_STATUS 0) rf, pos, alts, flash⟩

theorem mem (s : Mod) (m : Mem) : LedgerKept s { s with mem := m } := of_rf rfl rfl rfl rfl

theorem relaid (s : Mod) (td : Tbl Desc) (u : Update) (snaps : Tbl (Nat × Nat)) : LedgerKept s { s with td := td, ue := u, rel := { s.rel with snaps := snaps } } := of_rf rfl rfl rfl rfl

theorem tilesUp (s : Mod) (v : Word) : LedgerKept s { s with rel := { s.rel with tilesUp := v } } := of_rf rfl rfl rfl rfl

theorem port (s : Mod) (v : Port8) : LedgerKept s { s with pci := v } := of_rf rfl rfl rfl rfl

theorem inFlash {s t : Mod} (h : LedgerKept s t) (k : InFlash s) : InFlash t := by
  obtain ⟨pos, alts, words⟩ := k
  exact ⟨by rw [h.flash, h.pos, pos], by rw [h.flash, h.alts, alts], fun i hi => by rw [h.flash, h.words, words i hi]⟩

end LedgerKept

/-- Registers that a reset does not pick stay. -/
theorem Mod.resetRegs_rd (s : Mod) {pick : RegBlk → Nat → Bool} {r : RegName} (i : Nat) (h : ∀ b, r.blk = some b → ∀ j, pick b j = false) : (s.resetRegs pick).rd r i = s.rd r i := by
  unfold Mod.resetRegs
  refine foldl_keeps (P := fun t : Mod => t.rd r i = s.rd r i) (fun t c ht => ?_) _ rfl
  split
  · next q _ =>
    split
    · next b blk =>
      split
      · next picked =>
        have other : r ≠ q := fun e => by
          rw [h b (e ▸ blk)] at picked
          cases picked
        exact (t.rd_put_of_reg_ne _ i _ other).trans ht
      · exact ht
    · exact ht
  · exact ht

theorem Mod.newLayout_ledger (s : Mod) (count : Nat) : LedgerKept s (s.newLayout count) := by
  have cleared (t : Mod) : LedgerKept t (t.resetRegs fun b _ => b.own == .group || b.own == .slot) := by
    have apart {r : RegName} (h : (r.blk.any fun b => b.own == .group || b.own == .slot) = false) (b : RegBlk) (hb : r.blk = some b) (_ : Nat) : (b.own == .group || b.own == .slot) = false := by
      rwa [hb] at h
    have rest := t.resetRegs_rest fun b _ => b.own == .group || b.own == .slot
    refine ⟨fun i => t.resetRegs_rd i (apart (by decide)), t.resetRegs_rd 0 (apart (by decide)), ?_, ?_, ?_⟩ <;> rw [rest]
  unfold Mod.newLayout
  dsimp only
  refine LedgerKept.trans ?_ (LedgerKept.relaid _ _ _ _)
  refine LedgerKept.foldl ?_ (fun t fn => LedgerKept.setFld (f := .SP_FUNC_BIND_POLDER) t _ _ (by decide)) _
  exact (LedgerKept.setFld s _ _ (by decide)).trans (cleared _)

/-- The state with a polder's system area placed, and with its recovery area placed. -/
def Mod.placeSystem (s : Mod) (p : Nat) : Mod :=
  match s.mem.place (s.ctlList p 0 0) 0 0 (sysPages 0) with
  | some (ids, m) => { s with mem := { m with sysArea := m.sysArea ++ ids.zipIdx.map fun (x : Nat × Nat) => (p, x.2, x.1) } }
  | none => s

def Mod.placeRecovery (s : Mod) (p : Nat) : Mod :=
  match s.mem.place (s.ctlList p 1 0) 0 0 2 with
  | some (ids, m) => { s with mem := { m with recovery := m.recovery ++ ids.zipIdx.map fun (x : Nat × Nat) => (p, x.2, x.1) } }
  | none => s

theorem Mod.placeAreas_ledger (s : Mod) (p : Nat) : LedgerKept s (s.placeAreas p) := by
  have system : LedgerKept s (s.placeSystem p) := by
    unfold Mod.placeSystem
    split
    · exact .mem s _
    · exact .refl s
  have recovery (t : Mod) : LedgerKept t (t.placeRecovery p) := by
    unfold Mod.placeRecovery
    split
    · exact .mem t _
    · exact .refl t
  have e : s.placeAreas p = (s.placeSystem p).placeRecovery p := rfl
  rw [e]
  exact system.trans (recovery _)

theorem Mod.initMemory_ledger (s : Mod) : LedgerKept s s.initMemory := by
  unfold Mod.initMemory
  dsimp only
  refine LedgerKept.trans ?_ (LedgerKept.mem _ _)
  exact LedgerKept.foldl (LedgerKept.mem s _) Mod.placeAreas_ledger _

theorem Mod.startLayout_ledger (s : Mod) (hbm : Nat) (packs : List Nat) : LedgerKept s (s.startLayout hbm packs) := by
  unfold Mod.startLayout
  dsimp only
  have taken : LedgerKept s (s.setFld .SP_LAYOUT_PENDING 0 0) := .setFld s _ _ (by decide)
  have fresh (t : Mod) : LedgerKept t (t.enableCtls hbm packs) := .mem t _
  refine LedgerKept.ite (LedgerKept.trans ?_ (Mod.initMemory_ledger _)) ?_
  all_goals exact LedgerKept.trans (LedgerKept.ite (taken.trans (Mod.newLayout_ledger _ _)) taken) (fresh _)

theorem Mod.startTile_ledger (s : Mod) (ph : Nat) (logical : Option Nat) (failed : Bool) : LedgerKept s (s.startTile ph logical failed) := by
  have shown : LedgerKept s ((((s.put .BC_TILE_STATUS ph 0).setFld .BC_TILE_STATUS_FAILED ph (if failed then 1 else 0)).setFld .BC_TILE_STATUS_SPARE ph (if logical.isNone && !failed then 1 else 0)).setFld
      .BC_TILE_STATUS_LOGICAL ph (logical.getD 0x3F)) :=
    (((LedgerKept.put s _ _ (by decide)).trans (.setFld _ _ _ (by decide))).trans (.setFld _ _ _ (by decide))).trans (.setFld _ _ _ (by decide))
  unfold Mod.startTile
  dsimp only
  split
  · exact shown.trans (LedgerKept.of_rf rfl rfl rfl rfl)
  · exact shown

theorem Mod.startFail_ledger (s : Mod) (ph mode : Nat) : LedgerKept s (s.startFail ph mode) := by
  have bumped : LedgerKept s s.bump := .of_rf rfl rfl rfl rfl
  unfold Mod.startFail Mod.firstFail'
  dsimp only
  refine LedgerKept.ite bumped ?_
  refine LedgerKept.trans (LedgerKept.trans ?_ (.put _ _ _ (by decide))) (.put _ _ _ (by decide))
  exact (bumped.trans (.put _ _ _ (by decide))).trans (.put _ _ _ (by decide))

theorem Mod.startDie_ledger (s : Mod) (failed : List Nat) (d : Nat) : LedgerKept s (s.startDie failed d) := by
  unfold Mod.startDie
  dsimp only
  have numbered (g : Mod → Nat → Mod) (hg : ∀ t a, LedgerKept t (g t a)) (l : List Nat) : LedgerKept s (l.foldl g s) := .foldl (.refl s) hg l
  refine LedgerKept.trans (LedgerKept.trans (LedgerKept.trans (LedgerKept.trans ?_ (.put _ _ _ (by decide))) (.put _ _ _ (by decide))) (.put _ _ _ (by decide))) (.setFld _ _ _ (by decide))
  refine LedgerKept.ite ?_ (LedgerKept.foldl ?_ (fun t ph => t.startFail_ledger ph 0) _)
  all_goals exact numbered _ (fun t n => t.startTile_ledger _ _ _) _

theorem Mod.startTiles_ledger (s : Mod) (tiles : List (Fin 4 × Fin 52)) : LedgerKept s (s.startTiles tiles) := by
  unfold Mod.startTiles
  dsimp only
  refine LedgerKept.trans ?_ (LedgerKept.tilesUp _ _)
  refine LedgerKept.foldl ?_ (fun t d => t.startDie_ledger _ d) _
  exact LedgerKept.of_rf rfl rfl rfl rfl

theorem Mod.leaveConf_ledger (s : Mod) (p : Nat) : LedgerKept s (s.leaveConf p) := by
  unfold Mod.leaveConf
  exact LedgerKept.ite ((LedgerKept.setFld s _ _ (by decide)).trans (.setFld _ _ _ (by decide))) (.refl s)

theorem Mod.beginTraining_ledger (s : Mod) (l : Nat) : LedgerKept s (s.beginTraining l) := .of_rf rfl rfl rfl rfl

/-- What signals, replies and messages change leaves the ledger. -/
theorem OnlyPosted.ledger {s t : Mod} (h : OnlyPosted s t) : LedgerKept s t :=
  ⟨fun i => h.regs _ i (by decide) (by decide), h.regs _ 0 (by decide) (by decide), congrArg Rel.ledgerPos h.rel, congrArg Rel.alts h.rel, congrArg Rel.flash h.rel⟩

theorem Mod.closeReset_ledger (s : Mod) (r : ResetS) : LedgerKept s (s.closeReset r) := by
  obtain ⟨v, e⟩ := s.closeReset_eq r
  rw [e]
  have marked : LedgerKept s (s.overWith r v) := LedgerKept.trans (t := { s with rel := { s.rel with resets := s.rel.resets.filter (· != r) } }) (.of_rf rfl rfl rfl rfl) (.put _ _ _ (by decide))
  exact marked.trans (OnlyPosted.foldl (.refl _) Mod.completeOne_posted r.cmds).ledger

/-! ## The port after a start -/

/-- With MSI-X off in every function and no message due, a command that completes leaves the port as it is. -/
theorem Mod.completeAt_pci {s : Mod} (c : Cmd) (f : Nat) (off : s.pci.msixEn = []) (idle : s.pci.due = []) : (s.completeAt c f).pci = s.pci := by
  unfold Mod.completeAt
  dsimp only
  split
  · rfl
  · have posted : OnlyPosted s (((((s.signalsOf { c with fin := f, phase := .decided }).foldl (Mod.addSignal f) s) |> (dedup ((s.signalsOf { c with fin := f, phase := .decided }).map (·.weir))).foldl
        (Mod.releaseWeir f)).postReplies [{ c with fin := f, phase := .decided }] f).grants f) :=
      ((OnlyPosted.foldl (OnlyPosted.foldl (.refl s) (Mod.addSignal_posted f) _) (Mod.releaseWeir_posted f) _).trans (Mod.postReplies_posted _ _ _)).trans (Mod.grants_posted _ _)
    change (Mod.sendDue (((((s.signalsOf { c with fin := f, phase := .decided }).foldl (Mod.addSignal f) s) |> (dedup ((s.signalsOf { c with fin := f, phase := .decided }).map (·.weir))).foldl
        (Mod.releaseWeir f)).postReplies [{ c with fin := f, phase := .decided }] f).grants f)).pci = _
    generalize (((((s.signalsOf { c with fin := f, phase := .decided }).foldl (Mod.addSignal f) s) |> (dedup ((s.signalsOf { c with fin := f, phase := .decided }).map (·.weir))).foldl
        (Mod.releaseWeir f)).postReplies [{ c with fin := f, phase := .decided }] f).grants f) = t at posted ⊢
    have port : t.pci = { s.pci with due := t.pci.due } := by
      have quiet := posted.quiet off
      rw [posted.rest]
      rw [quiet]
    rw [Mod.sendDue_off (by rw [port]; exact off), port, ← idle]

theorem Mod.closeReset_pci {s : Mod} (r : ResetS) (off : s.pci.msixEn = []) (idle : s.pci.due = []) : (s.closeReset r).pci = s.pci := by
  obtain ⟨v, e⟩ := s.closeReset_eq r
  rw [e]
  refine foldl_keeps (P := fun t : Mod => t.pci = s.pci) (fun t x ht => ?_) r.cmds (Mod.put_pci _ _ _ _)
  unfold Mod.completeOne
  split
  · exact (t.completeAt_pci _ _ (by rw [ht]; exact off) (by rw [ht]; exact idle)).trans ht
  · exact ht

/-- The links that are enabled begin to train. -/
def Mod.trainLinks (s : Mod) : Mod := (List.range 32).foldl (fun (m : Mod) l => if m.bit .ZL_CTRL_ENABLE l then m.beginTraining l else m) s

theorem Mod.trainLinks_ledger (s : Mod) : LedgerKept s s.trainLinks := LedgerKept.foldl (.refl s) (fun t l => LedgerKept.ite (t.beginTraining_ledger l) (.refl t)) _

theorem Mod.trainLinks_pci (s : Mod) : s.trainLinks.pci = s.pci :=
  foldl_keeps (P := fun t : Mod => t.pci = s.pci) (fun t l ht => by
    split
    · exact ht
    · exact ht) _ rfl

/-- The module at READY, before its reset is closed. -/
def State.readied (s : State) (x : StartRun) (r : StartResult) : Mod :=
  let m := ({ s.m with rel := { s.m.rel with dieDisabled := x.dies r } } : Mod).startLayout (x.hbm r) (x.packages r) |>.startTiles r.tiles
  let m := ((List.range m.polders).foldl Mod.leaveConf m).setFld .SP_DEBUG_SCAN_FUSE 0 (if s.fuse.scanBlown then 1 else 0)
  ({ m with pci := .started } : Mod).trainLinks

theorem State.readied_ledger (s : State) (x : StartRun) (r : StartResult) : LedgerKept s.m (s.readied x r) := by
  unfold State.readied
  dsimp only
  refine LedgerKept.trans (LedgerKept.trans ?_ (LedgerKept.port _ _)) (Mod.trainLinks_ledger _)
  refine LedgerKept.trans ?_ (LedgerKept.setFld _ _ _ (by decide))
  refine LedgerKept.foldl ?_ Mod.leaveConf_ledger _
  refine LedgerKept.trans ?_ (Mod.startTiles_ledger _ _)
  refine LedgerKept.trans ?_ (Mod.startLayout_ledger _ _ _)
  exact LedgerKept.of_rf rfl rfl rfl rfl

theorem State.readied_pci (s : State) (x : StartRun) (r : StartResult) : (s.readied x r).pci = .started := Mod.trainLinks_pci _

theorem State.ready_eq (s : State) (x : StartRun) (r : StartResult) :
    ∃ y, s.ready x r = State.latch { s with m := (s.readied x r).closeReset y, pins := { s.pins with perst := false, memKept := false } } 0x20 := ⟨_, rfl⟩

/-- A start at READY: the ledger stays, the port is up, and the alert byte says so. -/
theorem State.ready_spec (s : State) (x : StartRun) (r : StartResult) :
    LedgerKept s.m (s.ready x r).m ∧ (s.ready x r).m.pci = .started ∧ (s.ready x r).pins = { s.pins with perst := false, memKept := false } ∧ (s.ready x r).i3c.alert = s.i3c.alert ||| 0x20 := by
  obtain ⟨y, e⟩ := s.ready_eq x r
  have ledger := (s.readied_ledger x r).trans ((s.readied x r).closeReset_ledger y)
  have port := (Mod.closeReset_pci y (by rw [s.readied_pci]; rfl) (by rw [s.readied_pci]; rfl)).trans (s.readied_pci x r)
  obtain ⟨io, latched⟩ := State.latch_eq { s with m := (s.readied x r).closeReset y, pins := { s.pins with perst := false, memKept := false } } 0x20
  rw [e, latched]
  exact ⟨ledger.trans (.of_rf rfl rfl rfl rfl), port, rfl, rfl⟩

/-! ## A start's effect -/

/-- A start's record: the ledger's entry, and its copy in flash but where PERST# cuts the start off. -/
def Mod.recorded (s : Mod) (x : StartRun) (r : StartResult) : Mod := if x.cut then s.writeLedger x r else (s.writeLedger x r).saveLedger

/-- Whether a start is past a step. -/
def StartRun.past (x : StartRun) (n : Nat) : Bool := decide (n < x.step) || (x.step == n && !x.halted)

/-- The module takes its slot from the straps. -/
def Mod.takeSlot (s : Mod) (slot : Nat) : Mod := { (s.setFld .ZL_NODE_SLOT 0 slot).setFld .ZL_NODE_NODE 0 (nodeOf slot) with rel := { s.rel with slot := slot } }

/-- The pins past a start's steps. -/
def StartRun.pins (x : StartRun) (p : Pins) (straps : Nat) : Pins :=
  let p := if x.past 3 then { p with shutdown := false } else p
  if x.past 4 then { p with thermTrip := false, straps := straps } else p

/-- The state of a start at its end, before what follows it. -/
def State.begun (s : State) (x : StartRun) (r : StartResult) : State :=
  { s with m := if x.past 4 then (s.m.recorded x r).takeSlot r.straps.toNat else s.m.recorded x r, pins := x.pins s.pins r.straps.toNat, tap := if 3 ≤ s.tap.ir ∧ s.tap.ir ≤ 5 then { s.tap with ir := 0xFF } else s.tap }

theorem State.start_eq (s : State) (r : StartResult) :
    s.start r = if (s.startRun r).cut then { s.begun (s.startRun r) r with m := { (s.begun (s.startRun r) r).m with pci := { (s.begun (s.startRun r) r).m.pci with up := false } }, pins := { (s.begun (s.startRun r) r).pins with perst := true } }
      else if (s.startRun r).halted then State.latch { s.begun (s.startRun r) r with
        m := { (s.begun (s.startRun r) r).m with pci := { (s.begun (s.startRun r) r).m.pci with up := true }, rel := { (s.begun (s.startRun r) r).m.rel with resets := (s.begun (s.startRun r) r).m.rel.resets.filter fun y => y.kind != 5 } }
        pins := { (s.begun (s.startRun r) r).pins with perst := false } } 0x10
      else (s.begun (s.startRun r) r).ready (s.startRun r) r := by
  unfold State.start State.begun
  dsimp only
  generalize s.startRun r = x
  unfold Mod.recorded Mod.takeSlot StartRun.pins StartRun.past
  rfl

/-- What a start's record holds. -/
structure Recorded (s : Mod) (x : StartRun) (ms : Word) (t : Mod) : Prop where
  pos : t.rel.ledgerPos = s.rel.ledgerPos + 1
  attempt : t.rd .MC_LEDGER s.entry = BitVec.ofNat 32 (s.rel.ledgerPos + 1)
  word : t.rd .MC_LEDGER (s.entry + 1) = x.word
  ms : t.rd .MC_LEDGER (s.entry + 3) = ms
  status : t.rd .MC_START_STATUS 0 = x.status (s.rel.ledgerPos + 1) s.prevFail

theorem Recorded.kept {s t u : Mod} {x : StartRun} {ms : Word} (h : Recorded s x ms t) (k : LedgerKept t u) : Recorded s x ms u :=
  ⟨k.pos.trans h.pos, (k.words _).trans h.attempt, (k.words _).trans h.word, (k.words _).trans h.ms, k.status.trans h.status⟩

/-- Two states of the module that agree but in registers, the ledger's record and the slot. -/
structure OnlyRecorded (s t : Mod) : Prop where
  rest : t = { s with rf := t.rf, rel := { s.rel with ledgerPos := t.rel.ledgerPos, alts := t.rel.alts, flash := t.rel.flash, slot := t.rel.slot } }

theorem OnlyRecorded.saved {s t : Mod} (h : OnlyRecorded s t) (v : Flash) : OnlyRecorded s { t with rel := { t.rel with flash := v } } := ⟨by rw [h.rest]⟩

theorem Recorded.saved {s t : Mod} {x : StartRun} {ms : Word} (h : Recorded s x ms t) (v : Flash) : Recorded s x ms { t with rel := { t.rel with flash := v } } := ⟨h.pos, h.attempt, h.word, h.ms, h.status⟩

theorem Mod.attempted_spec (s : Mod) (e : Nat) (a b c d st : Word) (attempt flags : Nat) :
    let t := (s.putEntry e a b c d st).attempted attempt flags
    (t.rel.ledgerPos = attempt ∧ t.rd .MC_LEDGER e = a ∧ t.rd .MC_LEDGER (e + 1) = b ∧ t.rd .MC_LEDGER (e + 3) = d ∧ t.rd .MC_START_STATUS 0 = st) ∧ OnlyRecorded s t ∧ t.rel.flash = s.rel.flash :=
  ⟨⟨rfl, s.putEntry_spec e a b c d st⟩, ⟨rfl⟩, rfl⟩

theorem Mod.writeLedger_spec (s : Mod) (x : StartRun) (r : StartResult) : Recorded s x r.ms (s.writeLedger x r) ∧ OnlyRecorded s (s.writeLedger x r) ∧ (s.writeLedger x r).rel.flash = s.rel.flash := by
  obtain ⟨c, e⟩ := s.writeLedger_eq x r
  obtain ⟨⟨pos, attempt, word, ms, status⟩, only, flash⟩ := s.attempted_spec s.entry (BitVec.ofNat 32 (s.rel.ledgerPos + 1)) x.word c r.ms (x.status (s.rel.ledgerPos + 1) s.prevFail) (s.rel.ledgerPos + 1) x.flags
  rw [e]
  exact ⟨⟨pos, attempt, word, ms, status⟩, only, flash⟩

theorem Mod.recorded_spec (s : Mod) (x : StartRun) (r : StartResult) :
    Recorded s x r.ms (s.recorded x r) ∧ OnlyRecorded s (s.recorded x r) ∧ (x.cut = true → (s.recorded x r).rel.flash = s.rel.flash) ∧ (x.cut = false → InFlash (s.recorded x r)) := by
  obtain ⟨written, only, flash⟩ := s.writeLedger_spec x r
  unfold Mod.recorded
  cases cut : x.cut with
  | true => exact ⟨written, only, fun _ => flash, fun no => (nomatch no)⟩
  | false =>
    obtain ⟨w, -, e⟩ := (s.writeLedger x r).saveLedger_eq
    have saved := (s.writeLedger x r).saveLedger_inFlash
    refine ⟨?_, ?_, fun no => (nomatch no), fun _ => saved⟩
    · show Recorded s x r.ms (s.writeLedger x r).saveLedger
      rw [e]
      exact written.saved _
    · show OnlyRecorded s (s.writeLedger x r).saveLedger
      rw [e]
      exact only.saved _

theorem OnlyRecorded.trans {s t u : Mod} (h : OnlyRecorded s t) (k : OnlyRecorded t u) : OnlyRecorded s u := ⟨by rw [k.rest, h.rest]⟩
theorem OnlyRecorded.mem {s t : Mod} (h : OnlyRecorded s t) : t.mem = s.mem := by rw [h.rest]
theorem OnlyRecorded.resets {s t : Mod} (h : OnlyRecorded s t) : t.rel.resets = s.rel.resets := by rw [h.rest]

theorem Mod.takeSlot_spec (s : Mod) (slot : Nat) : LedgerKept s (s.takeSlot slot) ∧ OnlyRecorded s (s.takeSlot slot) := by
  have shown : LedgerKept s ((s.setFld .ZL_NODE_SLOT 0 slot).setFld .ZL_NODE_NODE 0 (nodeOf slot)) := (LedgerKept.setFld s _ _ (by decide)).trans (.setFld _ _ _ (by decide))
  exact ⟨shown.trans (LedgerKept.of_rf rfl rfl rfl rfl), ⟨rfl⟩⟩

/-- The state at a start's end holds the start's record. -/
theorem State.begun_spec (s : State) (x : StartRun) (r : StartResult) :
    let b := s.begun x r
    Recorded s.m x r.ms b.m ∧ OnlyRecorded s.m b.m ∧ (x.cut = true → b.m.rel.flash = s.m.rel.flash) ∧ (x.cut = false → InFlash b.m) ∧ b.i3c = s.i3c ∧ b.pins = x.pins s.pins r.straps.toNat := by
  obtain ⟨recorded, only, flash, copied⟩ := s.m.recorded_spec x r
  have e : (s.begun x r).m = if x.past 4 then (s.m.recorded x r).takeSlot r.straps.toNat else s.m.recorded x r := rfl
  intro b
  have be : b.m = _ := e
  refine (?_ : Recorded s.m x r.ms b.m ∧ OnlyRecorded s.m b.m ∧ (x.cut = true → b.m.rel.flash = s.m.rel.flash) ∧ (x.cut = false → InFlash b.m)) |> fun ⟨h, o, f, c⟩ => ⟨h, o, f, c, rfl, rfl⟩
  rw [be]
  generalize s.m.recorded x r = t at recorded only flash copied
  split
  · obtain ⟨kept, placed⟩ := t.takeSlot_spec r.straps.toNat
    exact ⟨recorded.kept kept, only.trans placed, fun cut => kept.flash.trans (flash cut), fun uncut => kept.inFlash (copied uncut)⟩
  · exact ⟨recorded, only, flash, copied⟩

/-- The number of MC_START_STATUS after a start whose predecessor did not fail. -/
theorem StartRun.status_plain (flags : Nat) {k : Nat} (halted cut : Bool) (attempt : Nat) (h : k ≤ 8) :
    ((StartRun.plain flags k halted cut).status attempt 0).toNat = (if cut then 0 else if halted then 2 ^ 30 else 2 ^ 31) + attempt % 256 * 65536 + k := by
  have top : (if cut then 0 else if halted then 2 ^ 30 else 2 ^ 31) ≤ 2 ^ 31 := by
    cases cut <;> cases halted <;> decide
  show (BitVec.ofNat 32 ((if cut then 0 else if halted then 2 ^ 30 else 2 ^ 31) + attempt % 256 * 65536 + 0 * 256 + k)).toNat = _
  generalize (if cut then 0 else if halted then 2 ^ 30 else 2 ^ 31) = n at top ⊢
  rw [BitVec.toNat_ofNat]
  omega

/-- The low half of the entry's second word: the step, and the result. -/
theorem StartRun.word_plain (flags : Nat) {k : Nat} (halted cut : Bool) (h : k ≤ 8) :
    (StartRun.plain flags k halted cut).word.toNat % 65536 = k + (if cut then 1 else if halted then 2 else 0) * 256 := by
  have result : (if cut then 1 else if halted then 2 else 0) ≤ 2 := by
    cases cut <;> cases halted <;> decide
  show (BitVec.ofNat 32 (k + (if cut then 1 else if halted then 2 else 0) * 256 + 0 * 65536 + 0 * 2 ^ 24)).toNat % 65536 = _
  generalize (if cut then 1 else if halted then 2 else 0) = n at result ⊢
  rw [BitVec.toNat_ofNat]
  omega

/-- The flags above a number of 24 bits. -/
theorem startFlags_bits (halted cut : Bool) {n : Nat} (h : n < 2 ^ 24) :
    bits ((if cut then 0 else if halted then 2 ^ 30 else 2 ^ 31) + n) 31 31 = (!cut && !halted).toNat ∧ bits ((if cut then 0 else if halted then 2 ^ 30 else 2 ^ 31) + n) 30 30 = (!cut && halted).toNat := by
  unfold bits
  cases cut with
  | true =>
    simp only [if_true, Bool.not_true, Bool.false_and, Bool.toNat_false]
    omega
  | false =>
    cases halted with
    | true =>
      simp only [if_true, Bool.false_eq_true, if_false, Bool.not_true, Bool.not_false, Bool.and_false, Bool.and_true, Bool.toNat_false, Bool.toNat_true]
      omega
    | false =>
      simp only [Bool.false_eq_true, if_false, Bool.not_false, Bool.and_false, Bool.and_true, Bool.toNat_false, Bool.toNat_true]
      omega

theorem toNat_bne_zero (b : Bool) : (b.toNat != 0) = b := by cases b <;> rfl

/-- What a start after one that did not fail shows in the ledger and in MC_START_STATUS. -/
theorem Recorded.shows {s t : Mod} {flags k : Nat} {halted cut : Bool} {ms : Word} (h : Recorded s (.plain flags k halted cut) ms t) (clean : s.prevFail = 0) (small : s.rel.ledgerPos + 1 < 2 ^ 32) (step : k ≤ 8) :
    (t.rd .MC_LEDGER (s.rel.ledgerPos % 64 * 4)).toNat = s.rel.ledgerPos + 1
      ∧ (t.rd .MC_LEDGER (s.rel.ledgerPos % 64 * 4 + 1)).toNat % 65536 = k + (if cut then 1 else if halted then 2 else 0) * 256
      ∧ t.bit .MC_START_STATUS_DONE 0 = (!cut && !halted) ∧ t.bit .MC_START_STATUS_HALT 0 = (!cut && halted) ∧ t.fld .MC_START_STATUS_STEP 0 = k := by
  have status := h.status
  rw [clean] at status
  have number := StartRun.status_plain flags halted cut (s.rel.ledgerPos + 1) step
  rw [← status] at number
  refine ⟨?_, ?_, ?_, ?_, ?_⟩
  · rw [show s.rel.ledgerPos % 64 * 4 = s.entry from rfl, h.attempt, BitVec.toNat_ofNat, Nat.mod_eq_of_lt small]
  · rw [show s.rel.ledgerPos % 64 * 4 = s.entry from rfl, h.word, StartRun.word_plain flags halted cut step]
  all_goals generalize s.rel.ledgerPos + 1 = a at number
  all_goals rw [Nat.add_assoc] at number
  · show (bits (t.rd .MC_START_STATUS 0).toNat 31 31 != 0) = _
    rw [number, (startFlags_bits halted cut (by omega)).1, toNat_bne_zero]
  · show (bits (t.rd .MC_START_STATUS 0).toNat 30 30 != 0) = _
    rw [number, (startFlags_bits halted cut (by omega)).2, toNat_bne_zero]
  · have even : (if cut then 0 else if halted then 2 ^ 30 else 2 ^ 31) % 256 = 0 := by
      cases cut <;> cases halted <;> decide
    show bits (t.rd .MC_START_STATUS 0).toNat 7 0 = _
    rw [number]
    unfold bits
    omega

/-- Settles O45: a start after one that did not fail runs its steps in order up to the first that ends it; the entry that it writes stays through what READY does. -/
theorem startsReachReadyOrHaltAtTheirStep : Obligations.StartsReachReadyOrHaltAtTheirStep := by
  intro r s may clean cold small n
  have run : exec (.moduleStart r) s = .next (s.start r) := if_pos may
  refine ⟨fun fails cut => ?_, fun k cut low high first => ?_, fun k there low high first later => ?_⟩
  · obtain ⟨flags, x⟩ := State.startRun_ready clean cold fails cut
    have e := s.start_eq r
    rw [x] at e
    have e : s.start r = (s.begun (.plain flags 8 false false) r).ready (.plain flags 8 false false) r := e
    obtain ⟨recorded, only, -, copied, i3c, pins⟩ := s.begun_spec (.plain flags 8 false false) r
    obtain ⟨kept, port, after, alert⟩ := (s.begun (.plain flags 8 false false) r).ready_spec (.plain flags 8 false false) r
    have held := recorded.kept kept
    obtain ⟨attempt, word, done, -, -⟩ := held.shows clean small (by decide)
    rw [e] at run
    refine ⟨_, run, done, held.pos, attempt, word, held.ms, port, ?_, kept.inFlash (copied rfl), ?_, ?_⟩
    · rw [after]
    · rw [after, pins]
      rfl
    · rw [alert, i3c]
  · have stops : ((r.fails.any fun j => j.val == k.val) || r.cut.any fun j => j.val == k.val) = true := by simp [cut]
    obtain ⟨flags, x⟩ := State.startRun_ends clean cold low high ⟨first, fun j hj _ => by rw [cut, Option.some.injEq] at hj; rw [hj]⟩ stops
    have off : (r.cut.any fun j => j.val == k.val) = true := by simp [cut]
    rw [off] at x
    have e := s.start_eq r
    rw [x] at e
    have e := e.trans (if_pos rfl)
    obtain ⟨recorded, only, flash, -, i3c, -⟩ := s.begun_spec (.plain flags k.val true true) r
    obtain ⟨-, word, done, halt, step⟩ := recorded.shows clean small high
    rw [e] at run
    exact ⟨_, run, done, halt, step, recorded.pos, word, rfl, rfl, only.resets, flash rfl, only.mem, i3c⟩
  · have stops : ((r.fails.any fun j => j.val == k.val) || r.cut.any fun j => j.val == k.val) = true := by
      have fails : (r.fails.any fun j => j.val == k.val) = true := List.any_eq_true.2 ⟨k, there, beq_self_eq_true _⟩
      rw [fails]
      rfl
    obtain ⟨flags, x⟩ := State.startRun_ends clean cold low high ⟨first, fun j hj hl => (later j hj hl).le⟩ stops
    have on : (r.cut.any fun j => j.val == k.val) = false := by
      cases cut : r.cut with
      | none => rfl
      | some j =>
        have := later j cut
        have : 1 ≤ j.val → k.val < j.val := this
        simp only [Option.any_some, beq_eq_false_iff_ne]
        omega
    rw [on] at x
    have e := s.start_eq r
    rw [x] at e
    have e := e.trans ((if_neg Bool.false_ne_true).trans (if_pos rfl))
    obtain ⟨recorded, only, -, copied, i3c, -⟩ := s.begun_spec (.plain flags k.val true false) r
    generalize s.begun (.plain flags k.val true false) r = b at e recorded only copied i3c
    obtain ⟨-, word, done, -, step⟩ := recorded.shows clean small high
    obtain ⟨io, latched⟩ := State.latch_eq { b with m := { b.m with pci := { b.m.pci with up := true }, rel := { b.m.rel with resets := b.m.rel.resets.filter fun y => y.kind != 5 } }, pins := { b.pins with perst := false } } 0x10
    rw [e, latched] at run
    exact ⟨_, run, done, step, recorded.pos, word, copied rfl, rfl, only.mem, congrArg (fun x : I3c => x.alert ||| 0x10) i3c⟩

end Sys2Proof.Machine
end

section
/-! SUPPORT. The host port's own events: vectors unmasked, and Function Level Resets (10_command_interface.md R300 to R302, 18_pins_and_electrical.md R496). -/

namespace Sys2Proof.Machine

/-! ## A vector unmasked -/

/-- The state with a vector unmasked, before its pending message is looked for. -/
def Mod.bared (s : Mod) (k : Nat) : Mod := s.setVec k { s.pci.vecs.getD k .zero with masked := false }

/-- A vector that is not masked is listed. -/
theorem Mod.bared_eq (s : Mod) (k : Nat) : s.bared k = { s with pci := { s.pci with vecs := s.pci.vecs.set k { s.pci.vecs.getD k .zero with masked := false } } } := by
  have listed : ({ s.pci.vecs.getD k .zero with masked := false } : Vec) ≠ Vec.zero := fun e => absurd (congrArg Vec.masked e) Bool.false_ne_true
  unfold Mod.bared Mod.setVec
  rw [if_neg listed]

/-- A message that is pending on a vector that nothing masks is sent, and pends no more. -/
theorem Mod.flushVec_sends {s : Mod} {k : Nat} (pend : k ∈ s.pci.pend) (enabled : k / 2048 ∈ s.pci.msixEn) (open_ : k / 2048 ∉ s.pci.fmask) (bare : (s.pci.vecs.getD k .zero).masked = false) :
    s.flushVec k = { s with pci := { s.pci with pend := s.pci.pend.filter (· != k) }, io := { s.io with out := s.io.out ++ [.msix (k / 2048) (k % 2048) (s.pci.vecs.getD k .zero).addr (s.pci.vecs.getD k .zero).data] } } := by
  have free : has s.pci.fmask (k / 2048) = false := Bool.eq_false_iff.2 fun h => open_ (has_iff.1 h)
  unfold Mod.flushVec
  dsimp only
  rw [has_iff.2 pend, has_iff.2 enabled, free, bare, if_pos (by decide)]
  unfold Mod.sendVec
  dsimp only
  rw [if_neg (by simp [has_iff.2 enabled]), if_neg (by simp [free, bare])]
  rfl

theorem Mod.flushVec_stays {s : Mod} {k : Nat} (h : ¬ (k ∈ s.pci.pend ∧ k / 2048 ∈ s.pci.msixEn ∧ k / 2048 ∉ s.pci.fmask)) : s.flushVec k = s := by
  refine if_neg fun all => h ?_
  simp only [Bool.and_eq_true, Bool.not_eq_true', has_iff] at all
  obtain ⟨⟨⟨pend, enabled⟩, free⟩, -⟩ := all
  exact ⟨pend, enabled, fun there => by rw [has_iff.2 there] at free; cases free⟩

theorem unmaskedVectorsSendTheirPendingMessage : UnmaskedVectorsSendTheirPendingMessage := by
  intro f v s up enabled k sends
  have ready : (s.m.pci.up && has s.m.pci.memEn f) = true := by rw [up, has_iff.2 enabled]; rfl
  have run : exec (.vectorUnmask f v) s = .next { s with m := (s.m.bared k).flushVec k } := State.when_true _ ready
  have fn : k / 2048 = f.val := by
    have := v.isLt
    omega
  have vec : k % 2048 = v.val := by
    have := v.isLt
    omega
  rw [Mod.bared_eq] at run
  have bare : ((s.m.pci.vecs.set k { s.m.pci.vecs.getD k .zero with masked := false }).getD k .zero) = { s.m.pci.vecs.getD k .zero with masked := false } := Tbl.getD_set_same _ _ _ _
  have others (j : Nat) (hj : j ≠ k) : (s.m.pci.vecs.set k { s.m.pci.vecs.getD k .zero with masked := false }).get j = s.m.pci.vecs.get j := Tbl.get_set_ne _ _ hj
  by_cases h : sends
  · obtain ⟨pend, on, free⟩ := h
    rw [Mod.flushVec_sends (s := { s.m with pci := { s.m.pci with vecs := s.m.pci.vecs.set k { s.m.pci.vecs.getD k .zero with masked := false } } }) pend (by rw [fn]; exact on) (by rw [fn]; exact free) (by rw [bare])] at run
    refine ⟨_, _, run, rfl, rfl, Tbl.get_set_same _ _ _, rfl, ?_, fun j hj => ⟨?_, others j hj⟩, ?_⟩
    · exact ⟨fun there => by simp at there, fun ⟨_, no⟩ => absurd ⟨pend, on, free⟩ no⟩
    · simp [hj]
    · rw [if_pos (show sends from ⟨pend, on, free⟩)]
      show s.m.io.out ++ [.msix (k / 2048) (k % 2048) _ _] = _
      rw [bare, fn, vec]
  · rw [Mod.flushVec_stays (s := { s.m with pci := { s.m.pci with vecs := s.m.pci.vecs.set k { s.m.pci.vecs.getD k .zero with masked := false } } }) (by rw [fn]; exact h)] at run
    refine ⟨_, _, run, rfl, rfl, Tbl.get_set_same _ _ _, rfl, ?_, fun j hj => ⟨.rfl, others j hj⟩, ?_⟩
    · exact ⟨fun there => ⟨there, h⟩, fun there => there.1⟩
    · rw [if_neg h]

/-! ## Commands that are in flight already -/

/-- No command enters: every command in flight was there, of the same queue. -/
def NoneEnters (s t : Mod) : Prop := ∀ c ∈ t.cq.cmds, ∃ d ∈ s.cq.cmds, d.mgmt = c.mgmt ∧ d.qn = c.qn

namespace NoneEnters

theorem refl (s : Mod) : NoneEnters s s := fun c hc => ⟨c, hc, rfl, rfl⟩

theorem trans {s t u : Mod} (h : NoneEnters s t) (k : NoneEnters t u) : NoneEnters s u := fun c hc => by
  obtain ⟨d, hd, dm, dq⟩ := k c hc
  obtain ⟨e, he, em, eq⟩ := h d hd
  exact ⟨e, he, em.trans dm, eq.trans dq⟩

theorem foldl {α : Type} {s t : Mod} {g : Mod → α → Mod} (h : NoneEnters s t) (hg : ∀ t a, NoneEnters t (g t a)) (l : List α) : NoneEnters s (l.foldl g t) :=
  foldl_keeps (P := NoneEnters s) (fun t a ht => ht.trans (hg t a)) l h

theorem ite {s t u : Mod} {c : Prop} [Decidable c] (h : NoneEnters s t) (k : NoneEnters s u) : NoneEnters s (if c then t else u) := by
  split
  · exact h
  · exact k

theorem of_cmds {s t : Mod} (h : t.cq.cmds = s.cq.cmds) : NoneEnters s t := fun c hc => ⟨c, h ▸ hc, rfl, rfl⟩

theorem of_map {s t : Mod} {g : Cmd → Cmd} (h : t.cq.cmds = s.cq.cmds.map g) (hg : ∀ c, (g c).mgmt = c.mgmt ∧ (g c).qn = c.qn) : NoneEnters s t := fun c hc => by
  rw [h] at hc
  obtain ⟨d, hd, rfl⟩ := List.mem_map.1 hc
  exact ⟨d, hd, (hg d).1.symm, (hg d).2.symm⟩

/-- Commands that are marked. -/
theorem marked (s : Mod) {g : Cmd → Cmd} (hg : ∀ c, (g c).mgmt = c.mgmt ∧ (g c).qn = c.qn) : NoneEnters s { s with cq := { s.cq with cmds := s.cq.cmds.map g } } := of_map rfl hg

theorem signalled (s : Mod) (w : Weirs) : NoneEnters s { s with wr := w } := of_cmds rfl

theorem dropped (s : Mod) (l : List Staged) (u : Update) : NoneEnters s { s with stg := l, ue := u } := of_cmds rfl

theorem observed {s t : Mod} (h : OnlyObserved s t) : NoneEnters s t := of_cmds (by rw [h.cq])

end NoneEnters

theorem Mod.postReply_noneEnters (s : Mod) (c : Cmd) : NoneEnters s (s.postReply c) := by
  have mq (b : Bool) : NoneEnters s (s.mqReply c b) := by
    unfold Mod.mqReply
    exact .ite (.of_cmds rfl) (.of_cmds rfl)
  have cq (b : Bool) : NoneEnters s (s.cqReply c b) := by
    unfold Mod.cqReply
    exact .ite (.of_cmds rfl) (.of_cmds rfl)
  have drop (t : Mod) : NoneEnters t (t.dropCmd c) := fun d hd => ⟨d, List.mem_of_mem_filter hd, rfl, rfl⟩
  unfold Mod.postReply
  dsimp only
  refine NoneEnters.trans ?_ (drop _)
  refine NoneEnters.trans ?_ (.observed ((Mod.hubEvent_observed _ _ _ _ _).trans (Mod.hubEvent_observed _ _ _ _ _)))
  have noted : NoneEnters s ((if c.mgmt then s.mqReply c ((s.signalsOf c).any (·.add != 0)) else s.cqReply c ((s.signalsOf c).any (·.add != 0))).note c.pol c.fin (.of 7 c.src c.qn c.seq c.status c.frames)) :=
    (NoneEnters.ite (mq _) (cq _)).trans (.observed (Mod.note_observed _ _ _ _))
  exact .ite (noted.trans (.of_cmds rfl)) noted

theorem Mod.postOne_noneEnters (f : Nat) (s : Mod) (c : Cmd) : NoneEnters s (Mod.postOne f s c) := by
  have stop (t : Mod) (q st seq : Nat) : NoneEnters t (t.stopQueue q st seq) := by
    unfold Mod.stopQueue
    dsimp only
    split
    · exact .of_cmds rfl
    · exact .of_cmds rfl
    · exact .refl t
  have posted : NoneEnters s (if c.status = 0x06 then (s.noteWaits f 0x06 c).postReply { c with waits := [] } else s.postReply c) :=
    .ite ((NoneEnters.observed (s.noteWaits_observed f 0x06 c)).trans (Mod.postReply_noneEnters _ _)) (s.postReply_noneEnters c)
  unfold Mod.postOne
  exact .ite (posted.trans (stop _ _ _ _)) posted

theorem Mod.postReplies_noneEnters (s : Mod) (cs : List Cmd) (f : Nat) : NoneEnters s (s.postReplies cs f) :=
  .foldl (.foldl (.refl s) (Mod.postOne_noneEnters f) _) Mod.postReply_noneEnters _

theorem Mod.grants_noneEnters (s : Mod) (f : Nat) : NoneEnters s (s.grants f) := by
  have readied : NoneEnters s { s with cq := { s.cq with cmds := s.cq.cmds.map fun c => if c.phase = .granted then { c with phase := .ready, caps := [] } else c } } :=
    .of_map rfl fun c => by
      split
      · exact ⟨rfl, rfl⟩
      · exact ⟨rfl, rfl⟩
  unfold Mod.grants
  dsimp only
  refine readied.trans (.of_map rfl fun c => ?_)
  split
  · exact ⟨rfl, rfl⟩
  · exact ⟨rfl, rfl⟩

theorem Mod.endCmds_noneEnters (s : Mod) (pick : Cmd → Bool) (st f : Nat) : NoneEnters s (s.endCmds pick st f) := by
  have noted : NoneEnters s ((s.cq.cmds.filter pick).foldl (Mod.noteWaits f (if st = 0x21 then 0x21 else 0x06)) s) := .foldl (.refl s) (fun t c => .observed (t.noteWaits_observed f _ c)) _
  unfold Mod.endCmds
  dsimp only
  generalize (s.cq.cmds.filter pick).foldl (Mod.noteWaits f (if st = 0x21 then 0x21 else 0x06)) s = t at noted ⊢
  split
  · refine (noted.trans (NoneEnters.ite (.refl t) (.signalled t _))).trans (.marked _ fun c => ?_)
    split
    · exact ⟨rfl, rfl⟩
    · exact ⟨rfl, rfl⟩
  · refine NoneEnters.trans (NoneEnters.trans ?_ (Mod.postReplies_noneEnters _ _ _)) (Mod.grants_noneEnters _ _)
    exact noted.trans (.signalled t _)

theorem Mod.clearRegion_noneEnters (s : Mod) (i : Nat) : NoneEnters s (s.clearRegion i) := .of_cmds rfl

theorem Mod.mapStep_noneEnters (s : Mod) (p : Nat) (g : Step → Step) : NoneEnters s (s.mapStep p g) := .of_cmds rfl

theorem Mod.abandonStep_noneEnters (s : Mod) (p reasons : Nat) (plain now : Bool) : NoneEnters s (s.abandonStep p reasons plain now) := by
  have dropped : NoneEnters s (s.dropWork p) := by
    unfold Mod.dropWork
    exact .foldl (.dropped s _ _) (fun t i => t.clearRegion_noneEnters i) _
  unfold Mod.abandonStep
  split
  · exact .refl s
  · refine .ite (.refl s) ?_
    dsimp only
    have mapped (g : Step → Step) : NoneEnters s ((s.dropWork p).mapStep p g) := dropped.trans (Mod.mapStep_noneEnters _ p g)
    split
    · refine (mapped _).trans (.marked _ fun c => ?_)
      split
      · exact ⟨rfl, rfl⟩
      · exact ⟨rfl, rfl⟩
    · exact (mapped _).trans (Mod.endCmds_noneEnters _ _ _ _)

/-! ## A Function Level Reset -/

/-- Commands that are dropped one by one are gone. -/
theorem Mod.dropCmds_cmds (l : List Cmd) (s : Mod) : ∀ c ∈ (l.foldl Mod.dropCmd s).cq.cmds, c ∈ s.cq.cmds ∧ c ∉ l := by
  induction l generalizing s with
  | nil => exact fun c hc => ⟨hc, List.not_mem_nil⟩
  | cons d l ih =>
    intro c hc
    obtain ⟨there, rest⟩ := ih (s.dropCmd d) c hc
    obtain ⟨was, apart⟩ := List.mem_filter.1 there
    refine ⟨was, fun h => ?_⟩
    rcases List.mem_cons.1 h with rfl | later
    · simp [Cmd.same] at apart
    · exact rest later

theorem flrQueues_dropsItsCommands (m : Mod) (f fn : Nat) : ∀ c ∈ (m.flrQueues f fn).cq.cmds, c.mgmt = false → m.queueOwner c.qn ≠ some fn := by
  have left (sigs : List Sig) : ∀ c ∈ ((m.cq.cmds.filter fun c => !c.mgmt && m.queueOwner c.qn == some fn).foldl Mod.dropCmd { m with wr := { m.wr with sigs := sigs } }).cq.cmds, c.mgmt = false → m.queueOwner c.qn ≠ some fn := by
    intro c hc host owned
    obtain ⟨there, gone⟩ := Mod.dropCmds_cmds _ _ c hc
    exact gone (List.mem_filter.2 ⟨there, by rw [host, owned]; simp⟩)
  unfold Mod.flrQueues
  dsimp only
  split
  · intro c hc host
    obtain ⟨d, hd, dm, dq⟩ := Mod.abandonStep_noneEnters _ _ _ _ _ c hc
    rw [← dq]
    exact left _ d hd (dm.trans host)
  · exact left _

/-- A slot of a function that a reset drops is free. -/
theorem Mod.dropSlots_free (s : Mod) (fn : Nat) {k : Nat} {c : CtSlot} (h : (s.dropSlots fn).ct.slots.get k = some c) : (k / 16 = fn → c.st = .free) ∧ ∃ d, s.ct.slots.get k = some d ∧ (d.st = .free → c.st = .free) := by
  have mapped := Tbl.get_map s.ct.slots (fun k c => if k / 16 = fn ∧ c.st ≠ .free then ⟨.free, [], false, 0x26⟩ else c) k
  rw [show (s.dropSlots fn).ct.slots.get k = _ from mapped] at h
  obtain ⟨d, was, rfl⟩ := Option.map_eq_some_iff.1 h
  refine ⟨fun mine => ?_, d, was, fun free => ?_⟩
  · split
    · rfl
    · next no => exact not_not.1 fun busy => no ⟨mine, busy⟩
  · split
    · rfl
    · exact free

theorem Mod.dropSlots_all (l : List Nat) (s : Mod) {k : Nat} {c : CtSlot} (h : (l.foldl Mod.dropSlots s).ct.slots.get k = some c) : (k / 16 ∈ l → c.st = .free) ∧ ∃ d, s.ct.slots.get k = some d ∧ (d.st = .free → c.st = .free) := by
  induction l generalizing s with
  | nil => exact ⟨fun no => absurd no List.not_mem_nil, c, h, id⟩
  | cons fn l ih =>
    obtain ⟨later, d, there, stays⟩ := ih (s.dropSlots fn) h
    obtain ⟨first, e, was, kept⟩ := s.dropSlots_free fn there
    refine ⟨fun hk => ?_, e, was, fun free => stays (kept free)⟩
    rcases List.mem_cons.1 hk with mine | rest
    · exact stays (first mine)
    · exact later rest

/-- An entry that a table's filter keeps by its key reads as before; one that it drops is not listed. -/
theorem Tbl.get_filter_key {α : Type} (t : Tbl α) (p : Nat → Bool) (k : Nat) : (t.filter fun j _ => p j).get k = if p k then t.get k else none := by
  obtain ⟨cells⟩ := t
  unfold Tbl.filter Tbl.get
  dsimp only
  induction cells with
  | nil => simp [lookupKey]
  | cons c cells ih =>
    obtain ⟨j, v⟩ := c
    by_cases same : j = k
    · subst same
      by_cases kept : p j = true <;> simp [lookupKey, kept, ih]
    · by_cases kept : p j = true <;> simp [lookupKey, kept, same, ih]

theorem functionLevelResetsClearTheirFunction : FunctionLevelResetsClearTheirFunction := by
  refine ⟨fun f s up => ?_, flrQueues_dropsItsCommands, fun m fn k c hfn h mine => ?_⟩
  · have run : exec (.functionLevelReset f) s = .next { s with m := s.m.functionReset f } := State.when_true _ up
    have queues : ∀ q x, (q, x) ∈ s.m.cq.queues.cells → s.m.queueOwner q = some f.val → (⟨f.val, .CQ_CMD, q, 4#32⟩ : RegWr) ∈
        s.m.rf.stage ++ ((s.m.cq.queues.cells.map (·.1)).filter fun q => s.m.queueOwner q == some f.val).map fun q => RegWr.mk f .CQ_CMD q 4#32 := by
      intro q x hq owned
      refine List.mem_append_right _ (List.mem_map.2 ⟨q, List.mem_filter.2 ⟨List.mem_map.2 ⟨(q, x), hq, rfl⟩, ?_⟩, rfl⟩)
      rw [owned]
      exact beq_self_eq_true _
    have vecs (g v : Nat) (hv : v < 2048) : (s.m.pci.vecs.filter fun k _ => k / 2048 != f.val).get (g * 2048 + v) = if g ≠ f.val then s.m.pci.vecs.get (g * 2048 + v) else none := by
      have place : (g * 2048 + v) / 2048 = g := by omega
      rw [Tbl.get_filter_key s.m.pci.vecs fun k => k / 2048 != f.val]
      simp only [place, bne_iff_ne]
    have port : (s.m.functionReset f).pci = { s.m.pci with
        flr := addOnce s.m.pci.flr f, vecs := s.m.pci.vecs.filter (fun k _ => k / 2048 != f.val), pend := s.m.pci.pend.filter (fun k => k / 2048 != f.val), due := s.m.pci.due.filter (fun k => k / 2048 != f.val)
        memEn := s.m.pci.memEn.filter (· != f.val), msixEn := s.m.pci.msixEn.filter (· != f.val), fmask := s.m.pci.fmask.filter (· != f.val), bars := s.m.pci.bars.filter fun k _ => k / 3 != f.val
        held := s.m.pci.held.filter fun a => a.fn != f.val } := by
      unfold Mod.functionReset
      dsimp only
      split
      · rfl
      · rfl
    have rest : (s.m.functionReset f).cq = s.m.cq ∧ (s.m.functionReset f).ct = s.m.ct ∧ (s.m.functionReset f).rf.stage = s.m.rf.stage ++ ((s.m.cq.queues.cells.map (·.1)).filter fun q => s.m.queueOwner q == some f.val).map fun q => RegWr.mk f .CQ_CMD q 4#32 := by
      unfold Mod.functionReset
      dsimp only
      split
      · exact ⟨rfl, rfl, rfl⟩
      · exact ⟨rfl, rfl, rfl⟩
    have sessions : f = 0 → ∀ x ∈ (s.m.functionReset f).sec.sessions, x.fn ≠ 0 := by
      intro zero x hx
      rw [zero] at hx
      simpa using (List.mem_filter.1 hx).2
    obtain ⟨cq, ct, stage⟩ := rest
    refine ⟨_, run, rfl, ?_, cq, ct, ?_, ?_, fun v hv => ⟨?_, ?_⟩, fun g hg => ⟨?_, fun v hv => ?_⟩, fun a ha => ?_, fun q x hq owned => ?_, sessions⟩
    · rw [port]
      exact mem_addOnce.2 (.inr rfl)
    · rw [port]
      simp
    · rw [port]
      simp
    · rw [port]
      exact (vecs _ v hv).trans (if_neg (not_not.2 rfl))
    · rw [port]
      simp only [List.mem_filter, bne_iff_ne]
      omega
    · rw [port]
      simp [hg]
    · rw [port]
      exact (vecs _ v hv).trans (if_pos hg)
    · rw [port] at ha
      simpa using (List.mem_filter.1 ha).2
    · rw [stage]
      exact queues q x hq owned
  · have e : (m.abandonSlots).ct.slots = (m.pci.flr.foldl Mod.dropSlots (m.ct.abandons.foldl (fun s x => s.setSlot x.1 x.2 ⟨.free, [], false, 0x26⟩) m)).ct.slots := rfl
    rw [e] at h
    obtain ⟨all, -⟩ := Mod.dropSlots_all m.pci.flr _ h
    exact all (mine ▸ hfn)

/-- Settles O48: each event's own equation; no command enters while a function's queues are emptied, and a slot once free stays free while the others are dropped. -/
theorem portEventsOfAFunction : Obligations.PortEventsOfAFunction := ⟨unmaskedVectorsSendTheirPendingMessage, functionLevelResetsClearTheirFunction⟩

end Sys2Proof.Machine
end

section
/-! SUPPORT. IJTAG instruments: when they answer, when they are locked, and what a scan ends (14_self_test.md R412, R413, 18_pins_and_electrical.md R505). -/

namespace Sys2Proof.Machine

/-! ## An access of an instrument -/

theorem State.instrument_idle {s : State} (d : Option Nat) (other : Bool) (len : Nat) (f : Mod → Mod × Nat) (h : s.pins.aux = false ∨ s.tap.ir ≠ 0x10) : s.instrument d other len f = .next s :=
  if_pos (h.imp (fun off => by rw [off]; rfl) id)

/-- An instrument that IJTAG selects: zeros of a segment that does not answer. -/
theorem State.instrument_selected {s : State} (d : Option Nat) (other : Bool) (len : Nat) (f : Mod → Mod × Nat) (aux : s.pins.aux = true) (selected : s.tap.ir = 0x10) :
    s.instrument d other len f = if !s.segment d then .next { s with m := s.m.emit (.tdo 0 len) } else
      if other && (if other then s.m.raiseNow .SP_DEBUG_JTAG_OPEN 0 else s.m).anyConf then .next { s with m := (if other then s.m.raiseNow .SP_DEBUG_JTAG_OPEN 0 else s.m).emit (.tdo 0 len) }
      else .next { s with m := (f (if other then s.m.raiseNow .SP_DEBUG_JTAG_OPEN 0 else s.m)).1.emit (.tdo (f (if other then s.m.raiseNow .SP_DEBUG_JTAG_OPEN 0 else s.m)).2 len) } :=
  if_neg (by simp [aux, selected])

theorem State.instrument_dead {s : State} {d : Option Nat} (other : Bool) (len : Nat) (f : Mod → Mod × Nat) (aux : s.pins.aux = true) (selected : s.tap.ir = 0x10) (dead : s.segment d = false) :
    s.instrument d other len f = .next { s with m := s.m.emit (.tdo 0 len) } := by
  rw [State.instrument_selected d other len f aux selected, dead]
  rfl

/-- An instrument that is never locked. -/
theorem State.instrument_free {s : State} {d : Option Nat} (len : Nat) (f : Mod → Mod × Nat) (aux : s.pins.aux = true) (selected : s.tap.ir = 0x10) (live : s.segment d = true) :
    s.instrument d false len f = .next { s with m := (f s.m).1.emit (.tdo (f s.m).2 len) } := by
  rw [State.instrument_selected d false len f aux selected, live]
  rfl

/-- The state in which the test port has been found open. -/
def Mod.opened (s : Mod) : Mod := s.raiseNow .SP_DEBUG_JTAG_OPEN 0

theorem Mod.opened_rf (s : Mod) : s.opened = { s with rf := s.opened.rf } := rfl

theorem Mod.opened_shown (s : Mod) : s.opened.bit .SP_DEBUG_JTAG_OPEN 0 = true := s.bit_raiseNow_same .SP_DEBUG_JTAG_OPEN 0 (by decide)

/-- Whether any polder is confidential does not depend on the test port. -/
theorem Mod.opened_anyConf (s : Mod) : s.opened.anyConf = s.anyConf := by
  unfold Mod.anyConf Mod.conf
  have same (p : Nat) : s.opened.bit .SP_CONF_CONF p = s.bit .SP_CONF_CONF p := Mod.bit_congr (s.rd_raiseNow_of_reg_ne 0 p (by decide))
  simp only [same]

/-- An instrument that is locked while a polder is confidential. -/
theorem State.instrument_locked {s : State} {d : Option Nat} (len : Nat) (f : Mod → Mod × Nat) (aux : s.pins.aux = true) (selected : s.tap.ir = 0x10) (live : s.segment d = true) :
    s.instrument d true len f = .next { s with m := if s.m.anyConf then s.m.opened.emit (.tdo 0 len) else (f s.m.opened).1.emit (.tdo (f s.m.opened).2 len) } := by
  have e := State.instrument_selected d true len f aux selected
  rw [live] at e
  have e : s.instrument d true len f = if s.m.opened.anyConf then .next { s with m := s.m.opened.emit (.tdo 0 len) } else .next { s with m := (f s.m.opened).1.emit (.tdo (f s.m.opened).2 len) } := e
  rw [e, s.m.opened_anyConf]
  split
  · rfl
  · rfl

/-! ## The words of a result -/

/-- Words as a number, the first lowest. -/
def packWords (ws : List Word) : Nat := ws.foldr (fun w v => w.toNat + 2 ^ 32 * v) 0

theorem packWords_lt (ws : List Word) : packWords ws < 2 ^ (32 * ws.length) := by
  induction ws with
  | nil => exact Nat.one_pos
  | cons w ws ih =>
    have word := w.isLt
    have e : packWords (w :: ws) = w.toNat + 2 ^ 32 * packWords ws := rfl
    have size : 2 ^ (32 * (w :: ws).length) = 2 ^ 32 * 2 ^ (32 * ws.length) := by
      rw [List.length_cons, Nat.mul_add, Nat.pow_add, Nat.mul_comm]
    rw [e, size]
    generalize 2 ^ (32 * ws.length) = n at ih ⊢
    omega

theorem packWords_word (ws : List Word) {i : Nat} (h : i < ws.length) : BitVec.ofNat 32 (packWords ws / 2 ^ (32 * i)) = ws.getD i 0 := by
  induction ws generalizing i with
  | nil => exact absurd h (Nat.not_lt_zero i)
  | cons w ws ih =>
    have word := w.isLt
    have e : packWords (w :: ws) = w.toNat + 2 ^ 32 * packWords ws := rfl
    rw [e]
    cases i with
    | zero =>
      rw [Nat.mul_zero, Nat.pow_zero, Nat.div_one, List.getD_cons_zero]
      apply BitVec.eq_of_toNat_eq
      rw [BitVec.toNat_ofNat]
      omega
    | succ i =>
      have shift : (w.toNat + 2 ^ 32 * packWords ws) / 2 ^ (32 * (i + 1)) = packWords ws / 2 ^ (32 * i) := by
        rw [Nat.mul_add, Nat.add_comm (32 * i), Nat.pow_add, ← Nat.div_div_eq_div_mul]
        congr 1
        omega
      rw [shift, List.getD_cons_succ]
      exact ih (Nat.lt_of_succ_lt_succ h)

theorem Mod.selfTestWords_length (s : Mod) (d : Nat) : (s.selfTestWords d).length = 60 := by simp [Mod.selfTestWords]

/-! ## What a scan ends -/

/-- A key of a polder that is withdrawn is gone, and none is added. -/
theorem Mod.withdraw_keys (s : Mod) (p : Nat) : ∀ c ∈ (s.withdraw p).sec.keys.cells, c ∈ s.sec.keys.cells ∧ c.1 / 16 ≠ p := by
  intro c hc
  unfold Mod.withdraw at hc
  split at hc
  · obtain ⟨there, apart⟩ := List.mem_filter.1 (show c ∈ s.sec.keys.cells.filter fun x => x.1 / 16 != p from hc)
    exact ⟨there, bne_iff_ne.1 apart⟩
  · next none => exact ⟨hc, fun same => none (List.any_eq_true.2 ⟨c, hc, beq_iff_eq.2 same⟩)⟩

theorem Mod.withdrawAll_keys (l : List Nat) (s : Mod) : ∀ c ∈ (l.foldl Mod.withdraw s).sec.keys.cells, c ∈ s.sec.keys.cells ∧ c.1 / 16 ∉ l := by
  induction l generalizing s with
  | nil => exact fun c hc => ⟨hc, List.not_mem_nil⟩
  | cons p l ih =>
    intro c hc
    obtain ⟨there, rest⟩ := ih (s.withdraw p) c hc
    obtain ⟨was, apart⟩ := s.withdraw_keys p c there
    exact ⟨was, fun h => (List.mem_cons.1 h).elim apart rest⟩

/-- The hub's reset adds no key. -/
theorem Mod.dropHub_keys (s : Mod) (f : Nat) : ∀ c ∈ (s.dropHub f).sec.keys.cells, c ∈ s.sec.keys.cells := by
  have polders (l : List Nat) : (l.foldl (fun s p => Mod.dropPolder false s p f) s).sec = s.sec := by
    have kept := Prepared.foldl (.refl s) (fun t p => t.dropPolder_prepared false p f) l
    rw [kept.rest]
  have cmds (t : Mod) (l : List Cmd) : (l.foldl Mod.dropCmd t).sec = t.sec := by
    refine foldl_keeps (P := fun u : Mod => u.sec = t.sec) ?_ l rfl
    exact fun u c hu => hu
  intro c hc
  unfold Mod.dropHub at hc
  dsimp only at hc
  obtain ⟨there, -⟩ := Mod.withdrawAll_keys _ _ c hc
  rwa [cmds, polders] at there

theorem Mod.enterScan_eq (s : Mod) :
    s.enterScan = { (((List.range 4).foldl Mod.withdraw s).dropHub ((List.range 4).foldl Mod.withdraw s).fc.num).raiseNow .SP_DEBUG_SCAN_USED 0 with
      sec := { ((((List.range 4).foldl Mod.withdraw s).dropHub ((List.range 4).foldl Mod.withdraw s).fc.num).raiseNow .SP_DEBUG_SCAN_USED 0).sec with stage := [], sessions := [], ide := [], imports := [], scan := true }
      pci := { ((((List.range 4).foldl Mod.withdraw s).dropHub ((List.range 4).foldl Mod.withdraw s).fc.num).raiseNow .SP_DEBUG_SCAN_USED 0).pci with up := false } } := rfl

/-- What a scan ends, and what it shows. -/
theorem Mod.enterScan_spec (s : Mod) :
    s.enterScan.sec.scan = true ∧ s.enterScan.pci.up = false ∧ s.enterScan.sec.sessions = [] ∧ s.enterScan.sec.ide = [] ∧ s.enterScan.sec.stage = [] ∧ (∀ c ∈ s.enterScan.sec.keys.cells, 64 ≤ c.1)
      ∧ s.enterScan.bit .SP_DEBUG_SCAN_USED 0 = true := by
  have keys := Mod.dropHub_keys ((List.range 4).foldl Mod.withdraw s) ((List.range 4).foldl Mod.withdraw s).fc.num
  have withdrawn := Mod.withdrawAll_keys (List.range 4) s
  rw [Mod.enterScan_eq]
  generalize ((List.range 4).foldl Mod.withdraw s).dropHub ((List.range 4).foldl Mod.withdraw s).fc.num = t at keys
  refine ⟨rfl, rfl, rfl, rfl, rfl, fun c hc => ?_, t.bit_raiseNow_same .SP_DEBUG_SCAN_USED 0 (by decide)⟩
  obtain ⟨-, apart⟩ := withdrawn c (keys c hc)
  rw [List.mem_range] at apart
  omega

/-! ## The rows -/

/-- A die's segment answers where the rails are up and its clock runs. -/
theorem State.segment_die (s : State) (d : Nat) : s.segment (some d) = (s.pins.pwrGood && !s.m.dieDown d) := rfl

theorem State.segment_hub (s : State) : s.segment none = s.pins.pwrGood := Bool.and_true _

/-- What the rows of a die's instruments answer. -/
def InstrumentRow (s : State) (d : Fin 4) (r : Instr × Nat × Bool) : Prop :=
  ((s.pins.aux = false ∨ s.tap.ir ≠ 0x10) → exec r.1 s = .next s)
    ∧ (s.pins.aux = true → s.tap.ir = 0x10 → ∃ t w, exec r.1 s = .next t ∧ OnlyModule s t ∧ t.m.io.out = s.m.io.out ++ [.tdo w r.2.1] ∧ w < 2 ^ r.2.1
      ∧ t.m = { s.m with io := t.m.io, rf := t.m.rf }
      ∧ ((s.pins.pwrGood = false ∨ s.m.dieDown d = true) → w = 0 ∧ t.m.rf = s.m.rf)
      ∧ (s.pins.pwrGood = true → s.m.dieDown d = false →
        (r.2.2 = false → t.m.rf = s.m.rf) ∧ (r.2.2 = true → t.m.bit .SP_DEBUG_JTAG_OPEN 0 = true ∧ (s.m.anyConf = true → w = 0)) ∧ (r.1 = .bcResult d → ∀ i < 60, (BitVec.ofNat 32 (w / 2 ^ (32 * i))) = (s.m.selfTestWords d).getD i 0)))

/-- A die's instrument that is never locked: its answer is its own, or zeros. -/
theorem instrumentRow_free {s : State} {d : Fin 4} {i : Instr} {len : Nat} (f : Mod → Mod × Nat) (row : exec i s = s.instrument (some d.val) false len f)
    (io : (f s.m).1 = { s.m with io := (f s.m).1.io }) (out : (f s.m).1.io.out = s.m.io.out) (small : (f s.m).2 < 2 ^ len)
    (words : i = .bcResult d → ∀ j < 60, BitVec.ofNat 32 ((f s.m).2 / 2 ^ (32 * j)) = (s.m.selfTestWords d).getD j 0) : InstrumentRow s d (i, len, false) := by
  refine ⟨fun idle => row.trans (State.instrument_idle _ _ _ _ idle), fun aux selected => ?_⟩
  cases live : s.segment (some d.val) with
  | false =>
    have run := row.trans (State.instrument_dead false len f aux selected live)
    rw [State.segment_die] at live
    refine ⟨_, 0, run, rfl, rfl, Nat.two_pow_pos len, rfl, fun _ => ⟨rfl, rfl⟩, fun good up => ?_⟩
    rw [good, up] at live
    cases live
  | true =>
    have run := row.trans (State.instrument_free len f aux selected live)
    rw [State.segment_die] at live
    have rf : (f s.m).1.rf = s.m.rf := by rw [io]
    generalize f s.m = r at run io out small words rf
    obtain ⟨m, w⟩ := r
    refine ⟨_, w, run, rfl, ?_, small, ?_, fun down => ?_, fun good up => ⟨fun _ => rf, fun no => (nomatch no), words⟩⟩
    · show m.io.out ++ [.tdo w len] = _
      rw [show m.io.out = s.m.io.out from out]
    · have whole : m = { s.m with io := m.io } := io
      show { m with io := _ } = _
      rw [whole]
      rfl
    · rcases down with off | down
      · rw [off] at live
        cases live
      · rw [down, Bool.not_true, Bool.and_false] at live
        cases live

/-- MISR_READ: locked while a polder is confidential. -/
theorem instrumentRow_misr (s : State) (d : Fin 4) : InstrumentRow s d (.misrRead d, 1664, true) := by
  have row : exec (.misrRead d) s = s.instrument (some d.val) true 1664 fun m => (m.bump, Config.freeNat m.io.free % 2 ^ (32 * 52)) := rfl
  refine ⟨fun idle => row.trans (State.instrument_idle _ _ _ _ idle), fun aux selected => ?_⟩
  cases live : s.segment (some d.val) with
  | false =>
    have run := row.trans (State.instrument_dead true 1664 _ aux selected live)
    rw [State.segment_die] at live
    refine ⟨_, 0, run, rfl, rfl, Nat.two_pow_pos _, rfl, fun _ => ⟨rfl, rfl⟩, fun good up => ?_⟩
    rw [good, up] at live
    cases live
  | true =>
    have run := row.trans (State.instrument_locked 1664 _ aux selected live)
    rw [State.segment_die] at live
    have alive (down : s.pins.pwrGood = false ∨ s.m.dieDown d = true) : False := by
      rcases down with off | down
      · rw [off] at live
        cases live
      · rw [down, Bool.not_true, Bool.and_false] at live
        cases live
    have shown := s.m.opened_shown
    have rest := s.m.opened_rf
    have io : s.m.opened.io = s.m.io := rfl
    generalize s.m.opened = m at run shown rest io
    cases conf : s.m.anyConf with
    | true =>
      rw [conf, if_pos rfl] at run
      refine ⟨_, 0, run, rfl, congrArg (fun x : Io => x.out ++ [.tdo 0 1664]) io, Nat.two_pow_pos _, ?_, fun down => (alive down).elim, fun _ _ => ⟨fun no => (nomatch no), fun _ => ⟨shown, fun _ => rfl⟩, fun no => (nomatch no)⟩⟩
      show { m with io := _ } = _
      rw [rest]
      rfl
    | false =>
      rw [conf, if_neg Bool.false_ne_true] at run
      have small : Config.freeNat m.io.free % 2 ^ (32 * 52) < 2 ^ (32 * 52) := Nat.mod_lt _ (Nat.two_pow_pos _)
      dsimp only at run
      generalize Config.freeNat m.io.free % 2 ^ (32 * 52) = w at run small
      refine ⟨_, w, run, rfl, congrArg (fun x : Io => x.out ++ [.tdo w 1664]) io, small, ?_, fun down => (alive down).elim, fun _ _ => ⟨fun no => (nomatch no), fun _ => ⟨shown, fun no => (nomatch no)⟩, fun no => (nomatch no)⟩⟩
      show { m with io := _ } = _
      rw [rest]
      rfl

theorem instrumentRows (d : Fin 4) (s : State) : ∀ r ∈ [(Instr.bcResult d, 1920, false), (.pprStatus d, 32, false), (.misrRead d, 1664, true)], InstrumentRow s d r := by
  have size := s.m.selfTestWords_length d
  intro r hr
  simp only [List.mem_cons, List.not_mem_nil, or_false] at hr
  rcases hr with rfl | rfl | rfl
  · refine instrumentRow_free (fun m => (m, packWords (m.selfTestWords d))) rfl rfl rfl ?_ fun _ j hj => packWords_word _ (by rw [size]; exact hj)
    have bound := packWords_lt (s.m.selfTestWords d)
    rwa [size] at bound
  · exact instrumentRow_free (fun m => (m.bump, Config.freeNat m.io.free % 2 ^ 32)) rfl rfl rfl (Nat.mod_lt _ (Nat.two_pow_pos _)) fun no => (nomatch no)
  · exact instrumentRow_misr s d

/-- A scan request: locked, refused by the fuse, or the end of the module's operation. -/
theorem scanRequests (s : State) (aux : s.pins.aux = true) (selected : s.tap.ir = 0x10) : ∃ t, exec .scanEn s = .next t ∧ OnlyModule s t ∧
    (s.pins.pwrGood = false → t.m = { s.m with io := t.m.io })
    ∧ (s.pins.pwrGood = true → (s.m.anyConf = true ∨ s.fuse.scanBlown = true) → t.m = { s.m with io := t.m.io, rf := t.m.rf } ∧ t.m.bit .SP_DEBUG_JTAG_OPEN 0 = true)
    ∧ (s.pins.pwrGood = true → s.m.anyConf = false → s.fuse.scanBlown = false →
      t.m.sec.scan = true ∧ t.m.pci.up = false ∧ t.m.sec.sessions = [] ∧ t.m.sec.ide = [] ∧ t.m.sec.stage = [] ∧ (∀ c ∈ t.m.sec.keys.cells, 64 ≤ c.1) ∧ t.m.bit .SP_DEBUG_SCAN_USED 0 = true) := by
  have row : exec .scanEn s = s.instrument none true 1 fun m => if s.fuse.scanBlown then (m, 0) else (m.enterScan, 0) := rfl
  cases good : s.pins.pwrGood with
  | false =>
    have run := row.trans (State.instrument_dead true 1 _ aux selected ((State.segment_hub s).trans good))
    exact ⟨_, run, rfl, fun _ => rfl, fun no => (nomatch no), fun no => (nomatch no)⟩
  | true =>
    have run := row.trans (State.instrument_locked 1 _ aux selected ((State.segment_hub s).trans good))
    have shown := s.m.opened_shown
    have rest := s.m.opened_rf
    generalize s.m.opened = m at run shown rest
    have kept (o : Out) : (m.emit o) = { s.m with io := (m.emit o).io, rf := (m.emit o).rf } := by
      rw [rest]
      rfl
    cases conf : s.m.anyConf with
    | true =>
      rw [conf, if_pos rfl] at run
      exact ⟨_, run, rfl, fun no => (nomatch no), fun _ _ => ⟨kept _, shown⟩, fun _ no => (nomatch no)⟩
    | false =>
      rw [conf, if_neg Bool.false_ne_true] at run
      cases blown : s.fuse.scanBlown with
      | true =>
        simp only [blown, if_true] at run
        exact ⟨_, run, rfl, fun no => (nomatch no), fun _ _ => ⟨kept _, shown⟩, fun _ _ no => (nomatch no)⟩
      | false =>
        simp only [blown, Bool.false_eq_true, if_false] at run
        exact ⟨_, run, rfl, fun no => (nomatch no), fun _ no => by simp at no, fun _ _ _ => m.enterScan_spec⟩

/-- Settles O52: every instrument is one access, which is idle, dead, locked or answered; what a scan leaves is read off in one lemma. -/
theorem instrumentsAnswerAsTheyAreLocked : Obligations.InstrumentsAnswerAsTheyAreLocked :=
  ⟨instrumentRows, fun s idle => State.instrument_idle none true 1 (fun m => if s.fuse.scanBlown then (m, 0) else (m.enterScan, 0)) idle, scanRequests⟩

end Sys2Proof.Machine
end

section
/-! SUPPORT. The SPDM responder and its sessions (15_security_and_polders.md R424 to R426). -/

namespace Sys2Proof.Machine

/-! ## A reply in a mailbox -/

/-- A row of the responder while the port is up. -/
theorem State.spdm_up {s : State} (m : Mod) (h : s.m.pci.up = true) : s.spdm m = .next { s with m := m } := State.when_true m h

/-- A reply alone, over a state whose security state is another. -/
theorem answersTo_reply (s : State) (f : Fin 8) (code : Nat) (msg : List Byte) (sec : Sec) : AnswersTo s { s with m := Mod.spdmReply { s.m with sec := sec } f code msg } f code msg sec := ⟨rfl, rfl⟩

theorem answersTo_plain (s : State) (f : Fin 8) (code : Nat) (msg : List Byte) : AnswersTo s { s with m := s.m.spdmReply f code msg } f code msg s.m.sec := ⟨rfl, rfl⟩

/-- A request that needs a connection. -/
theorem answersTo_connected (s : State) (f : Fin 8) (code : Nat) (msg : List Byte) : AnswersTo s { s with m := s.m.connected f code msg } f (if f.val ∈ s.m.sec.negotiated then code else 0x7F) msg s.m.sec := by
  have e : s.m.connected f code msg = s.m.spdmReply f (if f.val ∈ s.m.sec.negotiated then code else 0x7F) msg := by
    unfold Mod.connected Mod.negotiated
    rw [if_congr has_iff rfl rfl]
    rfl
  rw [e]
  exact answersTo_plain s f _ msg

/-- A request that needs an established session, in one and outside one. -/
theorem Mod.secured_in {s : Mod} {fn n : Nat} (code : Nat) (msg : List Byte) (g : Mod → Mod) (h : s.inSession fn n = true) : s.secured fn n code msg g = (g s).spdmReply fn code msg := if_pos h

theorem Mod.secured_out {s : Mod} {fn n : Nat} (code : Nat) (msg : List Byte) (g : Mod → Mod) (h : s.inSession fn n = false) : s.secured fn n code msg g = s.spdmReply fn 0x7F msg := if_neg (by simp [h])

/-! ## Sessions -/

/-- A session is found by its function and its number. -/
theorem Mod.session_some {s : Mod} {fn n : Nat} {x : Session} (h : s.session fn n = some x) : x.fn = fn ∧ x.num = n := by
  have found := List.find?_some h
  simpa using found

/-- Sessions that are changed, but not in function and number, are found where they were. -/
theorem session_map {s : Mod} {l : List Session} {g : Session → Session} (hl : s.sec.sessions = l.map g) (same : ∀ x, (g x).fn = x.fn ∧ (g x).num = x.num) (fn n : Nat) :
    s.session fn n = (l.find? fun x => x.fn == fn && x.num == n).map g := by
  unfold Mod.session
  rw [hl, List.find?_map]
  congr 1
  congr 1
  funext x
  simp only [Function.comp_apply, (same x).1, (same x).2]

/-- A session that is dropped is gone. -/
theorem Mod.dropSession_same (s : Mod) (fn n : Nat) : (s.dropSession fn n).session fn n = none := by
  unfold Mod.session
  rw [List.find?_eq_none]
  intro x hx found
  have kept := (List.mem_filter.1 hx).2
  rw [found] at kept
  cases kept

/-- No other session is dropped. -/
theorem Mod.dropSession_other (s : Mod) {fn n g k : Nat} (h : g ≠ fn ∨ k ≠ n) : (s.dropSession fn n).session g k = s.session g k := by
  unfold Mod.session
  show (s.sec.sessions.filter fun x => !(x.fn == fn && x.num == n)).find? (fun x => x.fn == g && x.num == k) = s.sec.sessions.find? fun x => x.fn == g && x.num == k
  rw [List.find?_filter]
  congr 1
  funext x
  by_cases found : x.fn = g ∧ x.num = k
  · obtain ⟨rfl, rfl⟩ := found
    simp only [beq_self_eq_true, Bool.and_self]
    rcases h with h | h <;> simp [h]
  · have apart : (x.fn == g && x.num == k) = false := Bool.eq_false_iff.2 fun h => found (by simpa using h)
    simp only [apart, Bool.false_eq_true, and_false, decide_false]

/-- The lowest free number of a session. -/
theorem Mod.freeSession_some {s : Mod} {fn k : Nat} (hk : k < 4) (free : s.session fn k = none) (taken : ∀ j < k, (s.session fn j).isSome = true) : s.freeSession fn = some k := by
  unfold Mod.freeSession
  rw [List.find?_eq_some_iff_append]
  refine ⟨by rw [free]; rfl, List.range k, (List.range' (k + 1) (3 - k)), ?_, fun j hj => ?_⟩
  · interval_cases k <;> rfl
  · rw [List.mem_range] at hj
    have some := taken j hj
    cases found : s.session fn j with
    | none =>
      rw [found] at some
      cases some
    | some x => rfl

theorem Mod.freeSession_none {s : Mod} {fn : Nat} (taken : ∀ k < 4, (s.session fn k).isSome = true) : s.freeSession fn = none := by
  unfold Mod.freeSession
  rw [List.find?_eq_none]
  intro k hk none
  have some := taken k ((show ∀ k ∈ [0, 1, 2, 3], k < 4 by decide) k hk)
  rw [Option.isNone_iff_eq_none.1 none] at some
  cases some

/-! ## The rows -/

/-- KEY_EXCHANGE (R424). -/
theorem keyExchange_answers (f : Fin 8) (msg : List Byte) (s : State) (up : s.m.pci.up = true) : ∃ t, exec (.keyExchange f msg) s = .next t ∧
    ((f.val ∉ s.m.sec.negotiated ∨ ∀ k < 4, (s.m.session f k).isSome = true) → AnswersTo s t f 0x7F msg s.m.sec)
    ∧ ∀ k < 4, f.val ∈ s.m.sec.negotiated → s.m.session f k = none → (∀ j < k, (s.m.session f j).isSome = true) →
      AnswersTo s t f 0x64 msg { s.m.sec with sessions := s.m.sec.sessions ++ [⟨f, k, false, false, 0⟩] } := by
  have row : exec (.keyExchange f msg) s = s.spdm (match s.m.freeSession f, s.m.negotiated f with
    | some n, true => { s.m with sec := { s.m.sec with sessions := s.m.sec.sessions ++ [Session.mk f.val n false false 0] } }.spdmReply f 0x64 msg
    | _, _ => s.m.spdmReply f spdmError msg) := rfl
  cases free : s.m.freeSession f with
  | none =>
    rw [free] at row
    refine ⟨_, row.trans (State.spdm_up _ up), fun _ => answersTo_plain s f _ msg, fun k hk _ none taken => ?_⟩
    have found := Mod.freeSession_some hk none taken
    rw [free] at found
    cases found
  | some n =>
    cases connected : s.m.negotiated f with
    | false =>
      rw [free, connected] at row
      refine ⟨_, row.trans (State.spdm_up _ up), fun _ => answersTo_plain s f _ msg, fun k _ there => ?_⟩
      have yes : s.m.negotiated f = true := has_iff.2 there
      rw [connected] at yes
      cases yes
    | true =>
      rw [free, connected] at row
      refine ⟨_, row.trans (State.spdm_up _ up), fun no => ?_, fun k hk _ none taken => ?_⟩
      · rcases no with no | all
        · exact absurd (has_iff.1 connected) no
        · have found := Mod.freeSession_none all
          rw [free] at found
          cases found
      · have found := Mod.freeSession_some hk none taken
        rw [free, Option.some.injEq] at found
        rw [found]
        exact answersTo_reply s f _ msg _

/-- The session that FINISH establishes. -/
def raiseSession (x y : Session) : Session := if y == x then { y with established := true } else y

theorem raiseSession_same (x y : Session) : (raiseSession x y).fn = y.fn ∧ (raiseSession x y).num = y.num := by
  unfold raiseSession
  split
  · exact ⟨rfl, rfl⟩
  · exact ⟨rfl, rfl⟩

/-- FINISH (R424; log entry 50). -/
theorem finish_answers (f : Fin 8) (n : Fin 4) (msg : List Byte) (s : State) (up : s.m.pci.up = true) : ∃ t, exec (.finish f n msg) s = .next t ∧
    (s.m.session f n = none → AnswersTo s t f 0x7F msg s.m.sec)
    ∧ ∀ x, s.m.session f n = some x →
      (x.established = true → AnswersTo s t f 0x7F msg s.m.sec)
      ∧ (x.established = false → Config.spdmVerifies 0xE5 msg s.m.io.free = true → AnswersTo s t f 0x65 msg t.m.sec ∧ t.m.inSession f n = true)
      ∧ (x.established = false → Config.spdmVerifies 0xE5 msg s.m.io.free = false → AnswersTo s t f 0x7F msg t.m.sec ∧ t.m.session f n = none) := by
  have row : exec (.finish f n msg) s = s.spdm (match s.m.session f n with
    | some x =>
      if x.established then s.m.spdmReply f 0x7F msg
      else if Config.spdmVerifies 0xE5 msg s.m.io.free then { s.m with sec := { s.m.sec with sessions := s.m.sec.sessions.map (raiseSession x) } }.spdmReply f 0x65 msg
      else (s.m.dropSession f n).spdmReply f 0x7F msg
    | none => s.m.spdmReply f 0x7F msg) := rfl
  cases found : s.m.session f n with
  | none =>
    rw [found] at row
    exact ⟨_, row.trans (State.spdm_up _ up), fun _ => answersTo_plain s f _ msg, fun _ no => (nomatch no)⟩
  | some x =>
    rw [found] at row
    dsimp only at row
    cases established : x.established with
    | true =>
      rw [established, if_pos rfl] at row
      refine ⟨_, row.trans (State.spdm_up _ up), fun no => (nomatch no), fun y same => ?_⟩
      cases same
      exact ⟨fun _ => answersTo_plain s f _ msg, fun no => (nomatch established.symm.trans no), fun no => (nomatch established.symm.trans no)⟩
    | false =>
      rw [established, if_neg Bool.false_ne_true] at row
      cases verifies : Config.spdmVerifies 0xE5 msg s.m.io.free with
      | true =>
        rw [verifies, if_pos rfl] at row
        refine ⟨_, row.trans (State.spdm_up _ up), fun no => (nomatch no), fun y same => ?_⟩
        cases same
        refine ⟨fun no => (nomatch established.symm.trans no), fun _ _ => ⟨answersTo_reply s f _ msg _, ?_⟩, fun _ no => (nomatch no)⟩
        have raised := session_map (s := Mod.spdmReply { s.m with sec := { s.m.sec with sessions := s.m.sec.sessions.map (raiseSession x) } } f 0x65 msg) rfl (raiseSession_same x) f n
        have first : (s.m.sec.sessions.find? fun y => y.fn == f.val && y.num == n.val) = some x := found
        rw [first] at raised
        show Option.any _ (Mod.session _ _ _) = true
        rw [raised]
        show (raiseSession x x).established = true
        unfold raiseSession
        rw [if_pos (beq_self_eq_true x)]
      | false =>
        rw [verifies, if_neg Bool.false_ne_true] at row
        refine ⟨_, row.trans (State.spdm_up _ up), fun no => (nomatch no), fun y same => ?_⟩
        cases same
        exact ⟨fun no => (nomatch established.symm.trans no), fun _ no => (nomatch no), fun _ _ => ⟨answersTo_reply s f _ msg _, s.m.dropSession_same f n⟩⟩

/-- Requests in a session: HEARTBEAT, KEY_UPDATE and END_SESSION (R424). -/
theorem securedRows_answer (f : Fin 8) (n : Fin 4) (msg : List Byte) (s : State) (up : s.m.pci.up = true) :
    (∃ t, exec (.heartbeat f n msg) s = .next t ∧ AnswersTo s t f (if s.m.inSession f n = true then 0x68 else 0x7F) msg s.m.sec)
    ∧ (∃ t, exec (.keyUpdate f n msg) s = .next t ∧ (s.m.inSession f n = false → AnswersTo s t f 0x7F msg s.m.sec)
      ∧ (s.m.inSession f n = true → AnswersTo s t f 0x69 msg { s.m.sec with sessions := s.m.sec.sessions.map fun x => if x.fn = f.val ∧ x.num = n.val then { x with keys := x.keys + 1 } else x }))
    ∧ ∃ t, exec (.endSession f n msg) s = .next t ∧ (s.m.inSession f n = false → AnswersTo s t f 0x7F msg s.m.sec)
      ∧ (s.m.inSession f n = true → AnswersTo s t f 0x6C msg t.m.sec ∧ t.m.session f n = none ∧ ∀ g k, (g ≠ f.val ∨ k ≠ n.val) → t.m.session g k = s.m.session g k) := by
  have heart : exec (.heartbeat f n msg) s = s.spdm (s.m.secured f n 0x68 msg id) := rfl
  have update : exec (.keyUpdate f n msg) s = s.spdm (s.m.secured f n 0x69 msg fun m => m.updateKeys f n) := rfl
  have drop : exec (.endSession f n msg) s = s.spdm (s.m.secured f n 0x6C msg fun m => m.dropSession f n) := rfl
  cases inside : s.m.inSession f n with
  | false =>
    rw [Mod.secured_out _ _ _ inside] at heart update drop
    exact ⟨⟨_, heart.trans (State.spdm_up _ up), answersTo_plain s f _ msg⟩, ⟨_, update.trans (State.spdm_up _ up), fun _ => answersTo_plain s f _ msg, fun no => (nomatch no)⟩,
      ⟨_, drop.trans (State.spdm_up _ up), fun _ => answersTo_plain s f _ msg, fun no => (nomatch no)⟩⟩
  | true =>
    rw [Mod.secured_in _ _ _ inside] at heart update drop
    have keys : s.m.updateKeys f n = { s.m with sec := { s.m.sec with sessions := s.m.sec.sessions.map fun x => if x.fn = f.val ∧ x.num = n.val then { x with keys := x.keys + 1 } else x } } := by
      unfold Mod.updateKeys
      simp only [Bool.and_eq_true, beq_iff_eq]
    rw [keys] at update
    exact ⟨⟨_, heart.trans (State.spdm_up _ up), answersTo_plain s f _ msg⟩, ⟨_, update.trans (State.spdm_up _ up), fun no => (nomatch no), fun _ => answersTo_reply s f _ msg _⟩,
      ⟨_, drop.trans (State.spdm_up _ up), fun no => (nomatch no), fun _ => ⟨answersTo_reply s f _ msg _, s.m.dropSession_same f n, fun _ _ apart => s.m.dropSession_other apart⟩⟩⟩

theorem responderRequestsAnswer : ResponderRequestsAnswer := by
  intro f n msg s up
  have row (m : Mod) : s.spdm m = .next { s with m := m } := State.spdm_up m up
  refine ⟨⟨_, row _, answersTo_reply s f _ msg _⟩, ⟨_, row _, answersTo_plain s f _ msg⟩, ⟨_, row _, answersTo_reply s f _ msg _⟩, ?_, keyExchange_answers f msg s up, finish_answers f n msg s up, securedRows_answer f n msg s up⟩
  intro r hr
  simp only [List.mem_cons, List.not_mem_nil, or_false] at hr
  rcases hr with rfl | rfl | rfl
  all_goals exact ⟨_, row _, answersTo_connected s f _ msg⟩

/-! ## Measurements -/

/-- Whether GET_MEASUREMENTS has a connection or a session for its answer. -/
def Mod.mayMeasure (s : Mod) (f : Fin 8) : Option (Fin 4) → Bool
  | some k => s.inSession f k
  | none => s.negotiated f

theorem Mod.mayMeasure_iff (s : Mod) (f : Fin 8) (n : Option (Fin 4)) : s.mayMeasure f n = true ↔ match n with
    | some k => s.inSession f k = true
    | none => f.val ∈ s.sec.negotiated := by
  cases n with
  | none => exact has_iff
  | some k => exact Iff.rfl

/-- The session in which the report is read is marked. -/
def markSession (f : Fin 8) (n : Option (Fin 4)) (index : Byte) (x : Session) : Session := if index = 0xF0 ∧ x.fn = f.val ∧ n.map (·.val) = some x.num then { x with measured := true } else x

theorem getMeasurements_eq (f : Fin 8) (n : Option (Fin 4)) (index : Byte) (nonce : List Byte) (s : State) :
    exec (.getMeasurements f n index nonce) s = match s.measurement index.toNat nonce, s.m.mayMeasure f n with
      | some body, true => s.spdm ((({ s.m with sec := { s.m.sec with sessions := s.m.sec.sessions.map (markSession f n index) } } : Mod).emit (.spdm f (body ++ Config.spdmResponse 0x60 body s.m.io.free))).bump)
      | _, _ => s.spdm (s.m.spdmReply f 0x7F nonce) := by
  have mark : (fun x : Session => if n.any (fun n => n.val == x.num) && x.fn == f.val && index == 0xF0 then { x with measured := true } else x) = markSession f n index := by
    funext x
    unfold markSession
    refine if_congr ?_ rfl rfl
    cases n with
    | none => simp
    | some k => simp only [Option.any_some, Bool.and_eq_true, beq_iff_eq, Option.map_some, Option.some.injEq]; tauto
  rw [← mark]
  cases n <;> rfl

/-- What a measurement index holds: one of the firmware's digests, or the report. -/
theorem State.measurement_of (s : State) (index : Byte) (nonce : List Byte) {body : List Byte}
    (h : (1 ≤ index.toNat ∧ index.toNat ≤ 4 ∧ body = digestBytes (Config.firmware index.toNat)) ∨ (index = 0xF0 ∧ body = s.m.reportBody s.fuse nonce s.m.fc.num)) : s.measurement index.toNat nonce = some body := by
  unfold State.measurement
  rcases h with ⟨low, high, rfl⟩ | ⟨rfl, rfl⟩
  · exact if_pos ⟨low, high⟩
  · rfl

theorem State.measurement_none (s : State) (index : Byte) (nonce : List Byte) (h : index.toNat ∉ [1, 2, 3, 4, 0xF0]) : s.measurement index.toNat nonce = none := by
  generalize index.toNat = i at h ⊢
  simp only [List.mem_cons, List.not_mem_nil, or_false, not_or] at h
  unfold State.measurement
  rw [if_neg (by omega), if_neg (by omega)]

/-- A request that is answered with an error, and one that is answered with its measurement. -/
theorem getMeasurements_refused {f : Fin 8} {n : Option (Fin 4)} {index : Byte} {nonce : List Byte} {s : State} (up : s.m.pci.up = true) (h : s.measurement index.toNat nonce = none ∨ s.m.mayMeasure f n = false) :
    exec (.getMeasurements f n index nonce) s = .next { s with m := s.m.spdmReply f 0x7F nonce } := by
  rw [getMeasurements_eq]
  rcases h with none | no
  · rw [none]
    exact State.spdm_up _ up
  · rw [no]
    cases s.measurement index.toNat nonce with
    | none => exact State.spdm_up _ up
    | some body => exact State.spdm_up _ up

theorem getMeasurements_answered {f : Fin 8} {n : Option (Fin 4)} {index : Byte} {nonce body : List Byte} {s : State} (up : s.m.pci.up = true) (h : s.measurement index.toNat nonce = some body) (may : s.m.mayMeasure f n = true) :
    exec (.getMeasurements f n index nonce) s =
      .next { s with m := (({ s.m with sec := { s.m.sec with sessions := s.m.sec.sessions.map (markSession f n index) } } : Mod).emit (.spdm f (body ++ Config.spdmResponse 0x60 body s.m.io.free))).bump } := by
  rw [getMeasurements_eq, h, may]
  exact State.spdm_up _ up

theorem measurementsAnswerAndMarkTheSession : MeasurementsAnswerAndMarkTheSession := by
  intro f n index nonce s up open_
  have may : s.m.mayMeasure f n = true ↔ open_ := s.m.mayMeasure_iff f n
  have refused (h : s.measurement index.toNat nonce = none ∨ s.m.mayMeasure f n = false) (no : open_ → ∀ body, s.measurement index.toNat nonce ≠ some body) :
      ∃ t, exec (.getMeasurements f n index nonce) s = .next t ∧ OnlyModule s t ∧ t.m = { s.m with sec := t.m.sec, io := t.m.io } ∧ t.m.sec = { s.m.sec with sessions := t.m.sec.sessions }
        ∧ ((¬ open_ ∨ (index.toNat ∉ [1, 2, 3, 4, 0xF0])) → AnswersTo s t f 0x7F nonce s.m.sec)
        ∧ (open_ → ∀ body, ((1 ≤ index.toNat ∧ index.toNat ≤ 4 ∧ body = digestBytes (Config.firmware index.toNat)) ∨ (index = 0xF0 ∧ body = s.m.reportBody s.fuse nonce s.m.fc.num)) →
          t.m.io.out = s.m.io.out ++ [.spdm f (body ++ Config.spdmResponse 0x60 body s.m.io.free)]
          ∧ t.m.sec.sessions = s.m.sec.sessions.map fun x => if index = 0xF0 ∧ x.fn = f.val ∧ n.map (·.val) = some x.num then { x with measured := true } else x) :=
    ⟨_, getMeasurements_refused up h, rfl, rfl, rfl, fun _ => answersTo_plain s f _ nonce, fun yes body held => absurd (s.measurement_of index nonce held) (no yes body)⟩
  cases held : s.measurement index.toNat nonce with
  | none => exact refused (.inl held) fun _ body some => by rw [held] at some; cases some
  | some body =>
    cases allowed : s.m.mayMeasure f n with
    | false => exact refused (.inr allowed) fun yes => by rw [may.2 yes] at allowed; cases allowed
    | true =>
      refine ⟨_, getMeasurements_answered up held allowed, rfl, rfl, rfl, fun no => ?_, fun _ body' held' => ?_⟩
      · rcases no with no | none
        · exact absurd (may.1 allowed) no
        · rw [s.measurement_none index nonce none] at held
          cases held
      · have same := s.measurement_of index nonce held'
        rw [held, Option.some.injEq] at same
        rw [← same]
        exact ⟨rfl, rfl⟩

/-- Settles O53: each request's own equation; sessions are found by function and number, whatever else of them changes. -/
theorem responderRequestsAndMeasurements : Obligations.ResponderRequestsAndMeasurements := ⟨responderRequestsAnswer, measurementsAnswerAndMarkTheSession⟩

/-! ## Weight keys (R426, R427) -/

/-- A vendor-defined request in an established session, with a body that is well formed and with one that is not, and outside such a session. -/
theorem State.vendor_out {s : State} {fn n op : Nat} {body : List Byte} (f : Nat → Nat → Word → List Byte → List Byte → Mod) (up : s.m.pci.up = true) (h : s.m.inSession fn n = false) :
    s.vendor fn n op body f = .next { s with m := s.m.spdmReply fn 0x7F body } :=
  (State.spdm_up _ up).trans (congrArg (fun m => Host.Outcome.next { s with m := m }) (if_pos (by rw [h]; rfl)))

theorem State.vendor_in {s : State} {fn n op : Nat} {body : List Byte} (f : Nat → Nat → Word → List Byte → List Byte → Mod) (up : s.m.pci.up = true) (h : s.m.inSession fn n = true) :
    s.vendor fn n op body f = .next { s with m := match keyRequest op body with
      | none => s.m.keyReply fn 6 4
      | some (p, k, id, key, digest) => f p k id key digest } :=
  (State.spdm_up _ up).trans (congrArg (fun m => Host.Outcome.next { s with m := m }) (if_neg (by rw [h]; exact Bool.false_ne_true)))

/-- What the well-formed request of an established session does: the row's own function of its fields. -/
structure KeyAnswer (s : State) (f : Fin 8) (n : Fin 4) (op p k : Nat) (id : Word) (key digest : List Byte) (m : Mod) : Prop where
  rest : m = { s.m with sec := { s.m.sec with stage := m.sec.stage }, io := m.io }
  answer :
    let owns := s.m.polderOf f = p
    let read := (s.m.session f n).any (·.measured) = true
    let sealed := s.m.conf p = true ∧ s.m.bit .SP_CONF_OFF_PENDING p = false
    let scanned := s.m.bit .SP_DEBUG_SCAN_USED 0 = true
    let same := digest = digestBytes (s.m.reportDigest s.fuse)
    ∃ b mask, m.io.out = s.m.io.out ++ [.spdm f (BitVec.ofNat 8 b :: leBytes mask 3)] ∧ mask = (if p < 4 then s.m.heldKeys p else 0)
      ∧ (b = 0 ↔ owns ∧ (op = 1 → read ∧ sealed ∧ ¬ scanned ∧ same)) ∧ (¬ owns → b = 1)
      ∧ (op = 1 → owns → (¬ read → b = 2) ∧ (read → ¬ sealed → b = 3) ∧ (read → sealed → scanned → b = 5) ∧ (read → sealed → ¬ scanned → ¬ same → b = 4))
      ∧ m.sec.stage = s.m.sec.stage ++ (if b = 0 ∧ op = 1 then [(p * 16 + k, some ⟨id, key⟩)] else if b = 0 ∧ op = 2 then [(p * 16 + k, none)] else [])

/-- The answer to a malformed request. -/
theorem Mod.keyReply_malformed (s : Mod) (fn : Nat) : (s.keyReply fn 6 4).io.out = s.io.out ++ [.spdm fn [6, 0, 0, 0]] ∧ (s.keyReply fn 6 4).sec.stage = s.sec.stage := by
  unfold Mod.keyReply
  rw [if_neg (by decide)]
  exact ⟨rfl, rfl⟩

/-- The result of a RELEASE names the first condition that fails. -/
theorem State.releaseResult_spec (s : State) (f : Fin 8) (n : Fin 4) (p : Nat) (digest : List Byte) :
    let owns := s.m.polderOf f = p
    let read := (s.m.session f n).any (·.measured) = true
    let sealed := s.m.conf p = true ∧ s.m.bit .SP_CONF_OFF_PENDING p = false
    let scanned := s.m.bit .SP_DEBUG_SCAN_USED 0 = true
    let same := digest = digestBytes (s.m.reportDigest s.fuse)
    let b := s.releaseResult f n p digest
    (b = 0 ↔ owns ∧ read ∧ sealed ∧ ¬ scanned ∧ same) ∧ (¬ owns → b = 1) ∧ (owns → (¬ read → b = 2) ∧ (read → ¬ sealed → b = 3) ∧ (read → sealed → scanned → b = 5) ∧ (read → sealed → ¬ scanned → ¬ same → b = 4)) := by
  intro owns read sealed scanned same b
  have e : b = if ¬ owns then 1 else if ¬ read then 2 else if ¬ sealed then 3 else if scanned then 5 else if ¬ same then 4 else 0 := by
    have h2 : ((!(s.m.session f n).any (·.measured)) = true) ↔ ¬ read := by simp [read]
    have h3 : ((!s.m.conf p || s.m.bit .SP_CONF_OFF_PENDING p) = true) ↔ ¬ sealed := by simp [sealed, imp_iff_not_or]
    show s.releaseResult f n p digest = _
    unfold State.releaseResult
    dsimp only
    rw [if_congr h2 rfl (if_congr h3 rfl rfl)]
  rw [e]
  by_cases h1 : owns
  · by_cases h2 : read
    · by_cases h3 : sealed
      · by_cases h4 : scanned
        · simp [h1, h2, h3, h4]
        · by_cases h5 : same <;> simp [h1, h2, h3, h4, h5]
      · simp [h1, h2, h3]
    · simp [h1, h2]
  · simp [h1]

theorem release_keyAnswer (s : State) (f : Fin 8) (n : Fin 4) (p k : Nat) (id : Word) (key digest : List Byte) :
    KeyAnswer s f n 1 p k id key digest (if s.releaseResult f n p digest = 0 then (s.m.stageKey p k (some ⟨id, key⟩)).keyReply f 0 p else s.m.keyReply f (s.releaseResult f n p digest) p) := by
  obtain ⟨zero, other, named⟩ := s.releaseResult_spec f n p digest
  generalize s.releaseResult f n p digest = b at zero other named
  by_cases accepted : b = 0
  · rw [if_pos accepted]
    refine ⟨rfl, b, _, ?_, rfl, zero.trans (and_congr_right fun _ => ⟨fun h _ => h, fun h => h rfl⟩), other, fun _ => named, ?_⟩
    · rw [accepted]
      rfl
    · rw [if_pos ⟨accepted, rfl⟩]
      rfl
  · rw [if_neg accepted]
    refine ⟨rfl, b, _, rfl, rfl, zero.trans (and_congr_right fun _ => ⟨fun h _ => h, fun h => h rfl⟩), other, fun _ => named, ?_⟩
    rw [if_neg (fun h => accepted h.1), if_neg (fun h => accepted h.1), List.append_nil]
    rfl

/-- A request whose result is whether the function owns the polder. -/
theorem owned_keyAnswer {s : State} {f : Fin 8} {n : Fin 4} {op p k : Nat} {id : Word} {key digest : List Byte} {m : Mod} (other : op ≠ 1) (rest : m = { s.m with sec := { s.m.sec with stage := m.sec.stage }, io := m.io })
    (out : m.io.out = s.m.io.out ++ [.spdm f (BitVec.ofNat 8 (if s.m.polderOf f = p then 0 else 1) :: leBytes (if p < 4 then s.m.heldKeys p else 0) 3)])
    (stage : m.sec.stage = s.m.sec.stage ++ if s.m.polderOf f = p ∧ op = 2 then [(p * 16 + k, none)] else []) : KeyAnswer s f n op p k id key digest m := by
  refine ⟨rest, _, _, out, rfl, ?_, fun no => if_neg no, fun no => absurd no other, ?_⟩
  · by_cases owns : s.m.polderOf f = p
    · simp [owns, other]
    · simp [owns]
  · rw [stage]
    by_cases owns : s.m.polderOf f = p
    · simp [owns, other]
    · simp [owns]

theorem revoke_keyAnswer (s : State) (f : Fin 8) (n : Fin 4) (p k : Nat) (id : Word) (key digest : List Byte) :
    KeyAnswer s f n 2 p k id key digest (if s.m.polderOf f = p then (s.m.stageKey p k none).keyReply f 0 p else s.m.keyReply f 1 p) := by
  by_cases owns : s.m.polderOf f = p
  · rw [if_pos owns]
    refine owned_keyAnswer (by decide) rfl ?_ ?_
    · rw [if_pos owns]
      rfl
    · rw [if_pos ⟨owns, rfl⟩]
      rfl
  · rw [if_neg owns]
    refine owned_keyAnswer (by decide) rfl ?_ ?_
    · rw [if_neg owns]
      rfl
    · rw [if_neg (fun h => owns h.1), List.append_nil]
      rfl

theorem query_keyAnswer (s : State) (f : Fin 8) (n : Fin 4) (p k : Nat) (id : Word) (key digest : List Byte) :
    KeyAnswer s f n 3 p k id key digest (s.m.keyReply f (if s.m.polderOf f = p then 0 else 1) p) := by
  refine owned_keyAnswer (by decide) rfl rfl ?_
  rw [if_neg (show ¬ (s.m.polderOf f = p ∧ 3 = 2) from fun h => absurd h.2 (by decide)), List.append_nil]
  rfl

/-- A vendor-defined row whose well-formed requests in a session are answered as they are to be. -/
theorem vendorRow {s : State} {f : Fin 8} {n : Fin 4} {op : Nat} {body : List Byte} {i : Instr} {g : Nat → Nat → Word → List Byte → List Byte → Mod} (up : s.m.pci.up = true) (row : exec i s = s.vendor f n op body g)
    (answers : ∀ p k id key digest, KeyAnswer s f n op p k id key digest (g p k id key digest)) :
    ∃ t, exec i s = .next t ∧ OnlyModule s t ∧ t.m = { s.m with sec := { s.m.sec with stage := t.m.sec.stage }, io := t.m.io } ∧
      (s.m.inSession f n = false → AnswersTo s t f 0x7F body s.m.sec)
      ∧ (s.m.inSession f n = true → keyRequest op body = none → t.m.io.out = s.m.io.out ++ [.spdm f [6, 0, 0, 0]] ∧ t.m.sec.stage = s.m.sec.stage)
      ∧ ∀ p k id key digest, s.m.inSession f n = true → keyRequest op body = some (p, k, id, key, digest) → KeyAnswer s f n op p k id key digest t.m := by
  cases inside : s.m.inSession f n with
  | false => exact ⟨_, row.trans (State.vendor_out g up inside), rfl, rfl, fun _ => answersTo_plain s f _ body, fun no => (nomatch no), fun _ _ _ _ _ no => (nomatch no)⟩
  | true =>
    have run := row.trans (State.vendor_in g up inside)
    cases form : keyRequest op body with
    | none =>
      rw [form] at run
      exact ⟨_, run, rfl, rfl, fun no => (nomatch no), fun _ _ => s.m.keyReply_malformed f, fun _ _ _ _ _ _ no => (nomatch no)⟩
    | some r =>
      obtain ⟨p, k, id, key, digest⟩ := r
      rw [form] at run
      refine ⟨_, run, rfl, (answers p k id key digest).rest, fun no => (nomatch no), fun _ no => (nomatch no), fun p' k' id' key' digest' _ same => ?_⟩
      cases same
      exact answers p k id key digest

theorem keyRequestsStageKeysOrSayWhyNot : KeyRequestsStageKeysOrSayWhyNot := by
  intro f n body s up r hr
  have rows : ∃ g : Nat → Nat → Word → List Byte → List Byte → Mod, exec r.1 s = s.vendor f n r.2 body g ∧ ∀ p k id key digest, KeyAnswer s f n r.2 p k id key digest (g p k id key digest) := by
    simp only [List.mem_cons, List.not_mem_nil, or_false] at hr
    rcases hr with rfl | rfl | rfl
    · exact ⟨_, rfl, release_keyAnswer s f n⟩
    · exact ⟨_, rfl, revoke_keyAnswer s f n⟩
    · exact ⟨_, rfl, query_keyAnswer s f n⟩
  obtain ⟨g, row, answers⟩ := rows
  obtain ⟨t, run, only, rest, out, malformed, formed⟩ := vendorRow up row answers
  exact ⟨t, run, only, rest, out, malformed, fun p k id key digest inside form => (formed p k id key digest inside form).answer⟩

/-! ## Stream keys (R431) -/

theorem streamKeysStartAndStop : StreamKeysStartAndStop := by
  intro f n k s up r hr
  have rows : ∃ on, r.2 = (0x7E, on) ∧ exec r.1 s = s.ideKm f n 0x7E k on := by
    simp only [List.mem_cons, List.not_mem_nil, or_false] at hr
    rcases hr with rfl | rfl
    · exact ⟨true, rfl, rfl⟩
    · exact ⟨false, rfl, rfl⟩
  obtain ⟨on, codes, row⟩ := rows
  rw [codes]
  by_cases may : f = 0 ∧ s.m.inSession 0 n = true
  · obtain ⟨rfl, inside⟩ := may
    have run : exec r.1 s = .next { s with m := Mod.spdmReply { s.m with sec := { s.m.sec with ide := if on then addOnce s.m.sec.ide k else s.m.sec.ide.filter (· != k.val) } } 0 0x7E [BitVec.ofNat 8 k.val] } :=
      row.trans ((State.spdm_up _ up).trans (congrArg (fun m => Host.Outcome.next { s with m := m }) ((if_pos rfl).trans (Mod.secured_in _ _ _ inside))))
    refine ⟨_, run, rfl, rfl, fun _ => ⟨rfl, ?_, fun j hj => ?_⟩, fun no => absurd ⟨rfl, inside⟩ no⟩
    · show k.val ∈ (if on then addOnce s.m.sec.ide k else s.m.sec.ide.filter (· != k.val)) ↔ on = true
      cases on with
      | true => exact ⟨fun _ => rfl, fun _ => mem_addOnce.2 (.inr rfl)⟩
      | false => simp
    · show j ∈ (if on then addOnce s.m.sec.ide k else s.m.sec.ide.filter (· != k.val)) ↔ j ∈ s.m.sec.ide
      cases on with
      | true => exact mem_addOnce.trans (or_iff_left hj)
      | false => simp [hj]
  · have run : exec r.1 s = .next { s with m := s.m.spdmReply f 0x7F [BitVec.ofNat 8 k.val] } := by
      refine row.trans ((State.spdm_up _ up).trans (congrArg (fun m => Host.Outcome.next { s with m := m }) ?_))
      by_cases zero : f.val = 0
      · rw [if_pos zero]
        have outside : s.m.inSession f n = false := Bool.eq_false_iff.2 fun inside => may ⟨Fin.ext zero, by rwa [zero] at inside⟩
        exact Mod.secured_out _ _ _ outside
      · exact if_neg zero
    exact ⟨_, run, rfl, rfl, fun yes => absurd yes may, fun _ => answersTo_plain s f _ _⟩

/-- Settles O54: a vendor-defined request is answered by its row's own function of the body's fields; a stream's key needs F0's session. -/
theorem keysAreRequestedInSessions : Obligations.KeysAreRequestedInSessions := ⟨keyRequestsStageKeysOrSayWhyNot, streamKeysStartAndStop⟩

end Sys2Proof.Machine
end

section
/-! SUPPORT. The operations of the store, of memory, of commands and of checkpoints keep device memory canonical: one rule per operation, in the model's order (R8, R45). -/

namespace Sys2Proof.Machine

/-- Device memory in its canonical form: addresses strictly rising, no zero byte listed. -/
def Mod.Canon (s : Mod) : Prop := Memory.wf s.mem.cells = true

namespace Mod.Canon

/-! ## Records, branches and folds -/

/-- A change of anything but memory. -/
theorem upd {s : Mod} {a b c d e f g i j k l n o p q r} (h : s.Canon) : (Mod.mk a b c d e f g s.mem i j k l n o p q r).Canon := h

/-- A change of anything but the bytes of memory. -/
theorem updMem {s : Mod} {a b c d e f g i j k l n o p q r m1 m2 m3 m4 m5 m6 m7 m8 m9} (h : s.Canon) :
    (Mod.mk a b c d e f g (Mem.mk s.mem.cells m1 m2 m3 m4 m5 m6 m7 m8 m9) i j k l n o p q r).Canon := h

theorem ite {c : Prop} [Decidable c] {s t : Mod} (h : s.Canon) (k : t.Canon) : (if c then s else t).Canon := by
  split
  · exact h
  · exact k

/-- Two ways to go on from one module. -/
theorem fork {c : Prop} [Decidable c] {s t u : Mod} (h : s.Canon) (kt : s.Canon → t.Canon) (ku : s.Canon → u.Canon) : (if c then t else u).Canon := ite (kt h) (ku h)

theorem when {c : Prop} [Decidable c] {s t : Mod} (h : s.Canon) (k : s.Canon → t.Canon) : (if c then t else s).Canon := ite (k h) h

theorem whenNot {c : Prop} [Decidable c] {s t : Mod} (h : s.Canon) (k : s.Canon → t.Canon) : (if c then s else t).Canon := ite h (k h)

theorem foldl {α : Type} {g : Mod → α → Mod} {s : Mod} {l : List α} (h : s.Canon) (hg : ∀ {t a}, t.Canon → (g t a).Canon) : (l.foldl g s).Canon :=
  foldl_keeps (P := Mod.Canon) (fun _ _ => hg) l h

/-- A fold that carries a result beside the module. -/
theorem foldlFst {α β : Type} {g : Mod × β → α → Mod × β} {x : Mod × β} {l : List α} (h : x.1.Canon) (hg : ∀ {t a}, t.1.Canon → (g t a).1.Canon) :
    (l.foldl g x).1.Canon := foldl_keeps (P := fun x : Mod × β => x.1.Canon) (fun _ _ => hg) l h

/-! ## Registers, fields, flags and counters -/

theorem put {s : Mod} {r idx v} (h : s.Canon) : (s.put r idx v).Canon := h.upd

theorem setFld {s : Mod} {f idx v} (h : s.Canon) : (s.setFld f idx v).Canon := h.put

theorem raiseNow {s : Mod} {f idx} (h : s.Canon) : (s.raiseNow f idx).Canon := h.put

theorem raiseBits {s : Mod} {r idx b} (h : s.Canon) : (s.raiseBits r idx b).Canon := h.whenNot fun h1 => h1.upd

theorem raise {s : Mod} {f idx} (h : s.Canon) : (s.raise f idx).Canon := h.raiseBits

theorem countReg {s : Mod} {r idx n} (h : s.Canon) : (s.countReg r idx n).Canon := h.put

theorem bumpFld {s : Mod} {f idx n} (h : s.Canon) : (s.bumpFld f idx n).Canon := h.setFld

theorem putPair {s : Mod} {lo hi idx v} (h : s.Canon) : (s.putPair lo hi idx v).Canon := h.put.put

theorem emit {s : Mod} {o} (h : s.Canon) : (s.emit o).Canon := h.upd

theorem fresh {s : Mod} {f} (h : s.Canon) : (s.fresh f).2.Canon := h.upd

theorem setQueue {s : Mod} {q v} (h : s.Canon) : (s.setQueue q v).Canon := h.upd

/-! ## Device memory and pages -/

theorem stage {s : Mod} {rank e} (h : s.Canon) : (s.stage rank e).Canon := h.upd

theorem countLater {s : Mod} {r idx n} (h : s.Canon) : (s.countLater r idx n).Canon := h.stage

theorem countFldLater {s : Mod} {f idx n} (h : s.Canon) : (s.countFldLater f idx n).Canon := h.stage

theorem stageAll {s : Mod} {l} (h : s.Canon) : (s.stageAll l).Canon := h.upd

theorem queueZero {s : Mod} {id retired} (h : s.Canon) : (s.queueZero id retired).Canon := Mod.wf_queueZero id retired h

theorem putMem {s : Mod} {p cells} (h : s.Canon) : (s.putMem p cells).Canon := Mod.wf_putMem p cells h

theorem reduceAt {s : Mod} {p addr cs} (h : s.Canon) : (s.reduceAt p addr cs).1.Canon := by
  unfold Mod.reduceAt
  split
  · exact h
  · exact h.putMem.raiseBits

theorem reduceAll {s : Mod} {p cs} (h : s.Canon) : (s.reduceAll p cs).1.Canon := foldlFst h reduceAt

theorem releaseObj {s : Mod} {p n} (h : s.Canon) : (s.releaseObj p n).Canon := by
  unfold Mod.releaseObj
  split
  · exact h
  · exact (h.updMem.foldl queueZero).upd.updMem.foldl queueZero

/-! ## Flags -/

theorem alert {s : Mod} {f p} (h : s.Canon) : (s.alert f p).Canon := h.raise

theorem alertAll {s : Mod} {f} (h : s.Canon) : (s.alertAll f).Canon := h.foldl alert

/-! ## Tensors -/

theorem putLoc {s : Mod} {l cells} (h : s.Canon) : (s.putLoc l cells).Canon := by
  unfold Mod.putLoc
  split
  · exact h.putMem
  · exact h.upd

/-! ## Copies and the copy-first rule of checkpoints -/

theorem addPoison {s : Mod} {gs} (h : s.Canon) : (s.addPoison gs).Canon := h.updMem

theorem copyBytes {s : Mod} {p src dst n} (h : s.Canon) : (s.copyBytes p src dst n).Canon := h.putMem.addPoison

theorem putHead {s : Mod} {p obj off v} (h : s.Canon) : (s.putHead p obj off v).Canon := by
  unfold Mod.putHead
  split
  · exact h.putMem
  · exact h

theorem markSubs {s : Mod} {k is} (h : s.Canon) : (s.markSubs k is).Canon := h.updMem

theorem copySubs {s : Mod} {k is} (h : s.Canon) : (s.copySubs k is).Canon := by
  unfold Mod.copySubs
  split
  · exact h
  · exact h.whenNot fun h1 => (h1.foldl copyBytes).putHead.markSubs

theorem ckptCopies {s : Mod} {k is} (h : s.Canon) : (s.ckptCopies k is).1.Canon := by
  unfold Mod.ckptCopies
  dsimp only
  split
  · exact h
  · split
    · exact h
    · exact h.markSubs

theorem saveFirst {s : Mod} {p addrs} (h : s.Canon) : (s.saveFirst p addrs).Canon := h.foldl fun h1 => h1.whenNot copySubs

theorem writeNow {s : Mod} {p cells} (h : s.Canon) : (s.writeNow p cells).Canon := h.saveFirst.putMem.whenNot fun h1 => h1.updMem

theorem putPoison {s : Mod} {p gs} (h : s.Canon) : (s.putPoison p gs).Canon := h.saveFirst.addPoison

theorem applyWrite {s : Mod} {e} (h : s.Canon) : (s.applyWrite e).Canon := by
  unfold Mod.applyWrite
  split
  · exact h.writeNow
  · exact h.putPoison
  · exact h.putLoc
  · exact h

theorem writeLate {s : Mod} {e} (h : s.Canon) : (s.writeLate e).Canon := (h.when raise).applyWrite.foldl fun h1 => by split; exacts [(h1.whenNot writeNow), h1]

/-! ## Commands -/

theorem setCmd {s : Mod} {c} (h : s.Canon) : (s.setCmd c).Canon := h.upd

theorem finish {s : Mod} {c status detail} (h : s.Canon) : (s.finish c status detail).Canon := h.setCmd

theorem landIn {s : Mod} {c p m} (h : s.Canon) : (s.landIn c p m).Canon := ite h.finish h.setCmd.stageAll

theorem runPlan {s : Mod} {c p} (h : s.Canon) : (s.runPlan c p).Canon := ite h.finish (by split; exacts [h.finish, h.landIn])

theorem stall {s : Mod} {c eng die} (h : s.Canon) : (s.stall c eng die).Canon := by
  unfold Mod.stall
  split
  · exact h.setCmd.upd
  · exact h.setCmd.upd

theorem failAt {s : Mod} {c st d} (h : s.Canon) : (s.failAt c st d).Canon := ite h.stall h.finish

theorem tellCmd {s : Mod} {r last sr inexact} (h : s.Canon) : (s.tellCmd r last sr inexact).Canon := by
  unfold Mod.tellCmd
  split
  · split
    · exact h.setCmd
    · exact h
  · exact h

theorem runProg {s : Mod} {pr op eng ps p} (h : s.Canon) : (s.runProg pr op eng ps p).Canon := by
  unfold Mod.runProg
  dsimp only
  split
  · exact h.tellCmd.upd.stageAll
  · split
    · exact (h.when countLater).upd
    · exact h.when countLater

theorem bump {s : Mod} (h : s.Canon) : s.bump.Canon := h.upd

theorem failProg {s : Mod} {p eng} (h : s.Canon) : (s.failProg p eng).Canon := by
  unfold Mod.failProg
  split
  · split
    · exact h.finish.upd
    · exact h
  · exact h.runProg

theorem runWork {s : Mod} {op w blk plan eng} (h : s.Canon) : (s.runWork op w blk plan eng).Canon := by
  unfold Mod.runWork
  split
  · split
    · exact ite h.finish (by split; exacts [h.stall, h.bump.runPlan])
    · exact h
  · split
    · exact ite h.failProg h.bump.runProg
    · exact h

theorem runCmd {s : Mod} {c plan} (h : s.Canon) : (s.runCmd c plan).Canon := by
  unfold Mod.runCmd
  split
  · split
    · exact h.stall
    · exact h.bump.runPlan
  · exact h

/-! ## Objects, migration and transfers -/

theorem putObj {s : Mod} {p n o frames sys} (h : s.Canon) : (s.putObj p n o frames sys).Canon := by simpa [Mod.Canon] using h

theorem putMigs {s : Mod} {p l} (h : s.Canon) : (s.putMigs p l).Canon := by simpa [Mod.Canon] using h

theorem landSub {s : Mod} {p page k} (h : s.Canon) : (s.landSub p page k).Canon := Mod.wf_landSub p page k h

theorem landMig {s : Mod} {p page} (h : s.Canon) : (s.landMig p page).Canon := by
  unfold Mod.landMig
  split
  · exact h.whenNot fun h1 => h1.updMem.queueZero
  · exact h

theorem dropMig {s : Mod} {g} (h : s.Canon) : (s.dropMig g).Canon := Mod.wf_dropMig g h

theorem sweepMigs {s : Mod} (h : s.Canon) : s.sweepMigs.Canon := h.foldl fun h1 => h1.whenNot dropMig

theorem markRetire {s : Mod} {id} (h : s.Canon) : (s.markRetire id).Canon := h.updMem

theorem scratch {s : Mod} (h : s.Canon) : s.scratch.Canon := h.foldl fun h1 => by split; exacts [h1.putObj, h1.putMigs, h1]

theorem tearFills {s : Mod} {p ranges} (h : s.Canon) : (s.tearFills p ranges).Canon := h.upd

theorem runImport {s : Mod} {c} (h : s.Canon) : (s.runImport c).Canon := by
  unfold Mod.runImport
  split
  · exact h
  · extract_lets _ _ _ _ _ _ _ _ _ _ u
    refine ite h.finish ?_
    split
    · split
      · exact h.failAt.stage
      · exact h.failAt
    · refine ite h.landIn (ite h.landIn ?_)
      have k : u.Canon := by
        unfold u
        split
        · exact h.landIn.setCmd
        · exact h.landIn
      exact k.upd.stageAll

theorem importRecord {s : Mod} {p reason slot chunk} (h : s.Canon) : (s.importRecord p reason slot chunk).Canon := h.whenNot put

theorem stopImport {s : Mod} {x reason chunk} (h : s.Canon) : (s.stopImport x reason chunk).Canon := h.setCmd.upd.importRecord

/-! ## Grants -/

theorem grants {s : Mod} {f} (h : s.Canon) : (s.grants f).Canon := h.upd.upd

/-! ## Counter banks and the trace -/

theorem setBank {s : Mod} {b v} (h : s.Canon) : (s.setBank b v).Canon := h.upd

theorem event {s : Mod} {f b i n} (h : s.Canon) : (s.event f b i n).Canon := h.whenNot setBank

theorem hubEvent {s : Mod} {f p i n} (h : s.Canon) : (s.hubEvent f p i n).Canon := h.event

theorem bankStep {s : Mod} {f b} (h : s.Canon) : (Mod.bankStep f s b).Canon := by
  unfold Mod.bankStep
  split
  · exact h.whenNot fun h1 => h1.when setBank
  · exact h.setBank

theorem banksStep {s : Mod} {f} (h : s.Canon) : (s.banksStep f).Canon := h.foldl bankStep

theorem setTrace {s : Mod} {p t} (h : s.Canon) : (s.setTrace p t).Canon := h.upd

theorem putRec {s : Mod} {p f r} (h : s.Canon) : (Mod.putRec p f s r).Canon := by
  unfold Mod.putRec
  split
  · exact h
  · exact h.whenNot fun h1 => ite h1.countReg.setTrace (ite h1.countReg.setTrace (h1.writeNow.when countReg).setTrace.hubEvent)

theorem openTrace {s : Mod} {p f} (h : s.Canon) : (Mod.openTrace p f s).Canon := by
  unfold Mod.openTrace
  split
  · exact h
  · exact h.whenNot fun h1 => h1.setTrace.whenNot putRec

theorem fireTrace {s : Mod} {p f r} (h : s.Canon) : (Mod.fireTrace p f s r).Canon := by
  unfold Mod.fireTrace
  split
  · exact h
  · exact h.whenNot fun h1 => (h1.setTrace.whenNot fun h2 => h2.put.putPair.raiseNow).putRec

theorem note {s : Mod} {p f r} (h : s.Canon) : (s.note p f r).Canon := by
  unfold Mod.note
  split
  · exact h
  · exact ite (h.openTrace.putRec.when fireTrace) h.setTrace

theorem flushTrace {s : Mod} {f p} (h : s.Canon) : (Mod.flushTrace f s p).Canon := by
  unfold Mod.flushTrace
  dsimp only
  split
  · exact h
  · split
    · exact (h.setTrace.openTrace.foldl putRec).fireTrace
    · exact h.setTrace.openTrace.foldl putRec

theorem flushTraces {s : Mod} {f} (h : s.Canon) : (s.flushTraces f).Canon := h.foldl flushTrace

theorem stopTrace {s : Mod} {p wipe} (h : s.Canon) : (s.stopTrace p wipe).Canon := by
  unfold Mod.stopTrace
  split
  · exact h
  · exact h.setTrace.when writeNow

/-! ## Weirs -/

theorem addSignal {s : Mod} {f g} (h : s.Canon) : (Mod.addSignal f s g).Canon := h.note.hubEvent.whenNot fun h1 => (h1.when fun h2 => h2.upd).put.when raiseNow

theorem noteWaits {s : Mod} {f status c} (h : s.Canon) : (Mod.noteWaits f status s c).Canon := h.foldl note

theorem releaseWeir {s : Mod} {f n} (h : s.Canon) : (Mod.releaseWeir f s n).Canon := h.whenNot fun h1 => ((h1.when put).note.hubEvent.foldl noteWaits).upd.upd

theorem releaseWeirs {s : Mod} {f} (h : s.Canon) : (s.releaseWeirs f).Canon := h.foldl releaseWeir

theorem conclude {s : Mod} {q k f status result} (h : s.Canon) : (s.conclude q k f status result).Canon := by
  unfold Mod.conclude
  split
  · exact h
  · exact h.setCmd

theorem endLoop {s : Mod} {p f status l} (h : s.Canon) : (s.endLoop p f status l).Canon := h.upd.conclude.foldl conclude

theorem clearWeir {s : Mod} {f n} (h : s.Canon) : (Mod.clearWeir f s n).Canon := (h.put.foldl noteWaits).upd.foldl endLoop

theorem signalHub {s : Mod} {n add} (h : s.Canon) : (s.signalHub n add).Canon := h.upd

theorem weirStep {s : Mod} {f} (h : s.Canon) : (s.weirStep f).Canon := ((h.foldl clearWeir).upd.foldl addSignal).releaseWeirs

/-! ## Replies and messages -/

theorem sendVec {s : Mod} {k} (h : s.Canon) : (s.sendVec k).Canon := h.whenNot fun h1 => ite h1.upd h1.emit

theorem sendDue {s : Mod} (h : s.Canon) : s.sendDue.Canon := h.upd.foldl sendVec

theorem due {s : Mod} {fn vec} (h : s.Canon) : (s.due fn vec).Canon := h.upd

theorem alertNow {s : Mod} {f p} (h : s.Canon) : (s.alertNow f p).Canon := h.whenNot fun h1 => h1.raiseNow.when due

theorem mqReply {s : Mod} {c signalled} (h : s.Canon) : (s.mqReply c signalled).Canon := h.upd.when due

theorem cqReply {s : Mod} {c signalled} (h : s.Canon) : (s.cqReply c signalled).Canon := h.emit.setQueue.when due

theorem dropCmd {s : Mod} {c} (h : s.Canon) : (s.dropCmd c).Canon := h.upd

theorem postReply {s : Mod} {c} (h : s.Canon) : (s.postReply c).Canon := ((ite h.mqReply h.cqReply).note.when countReg).hubEvent.hubEvent.dropCmd

theorem holdStep {s : Mod} {f} (h : s.Canon) : (Mod.holdStep f s).Canon := h.upd

theorem endHeld {s : Mod} {p f commit} (h : s.Canon) : (s.endHeld p f commit).Canon := h.upd

theorem cancelQueue {s : Mod} {f q} (h : s.Canon) : (Mod.cancelQueue f s q).Canon := h.foldl fun h1 => h1.noteWaits.postReply

theorem stopQueue {s : Mod} {q status seq} (h : s.Canon) : (s.stopQueue q status seq).Canon := by
  unfold Mod.stopQueue
  dsimp only
  split
  · exact h.setQueue
  · exact h.setQueue
  · exact h

theorem postOne {s : Mod} {f c} (h : s.Canon) : (Mod.postOne f s c).Canon := (ite h.noteWaits.postReply h.postReply).when stopQueue

theorem postReplies {s : Mod} {cs f} (h : s.Canon) : (s.postReplies cs f).Canon := (h.foldl postOne).foldl postReply

theorem replyStep {s : Mod} {f} (h : s.Canon) : (s.replyStep f).Canon := h.holdStep.postReplies

theorem endCmds {s : Mod} {pick status f} (h : s.Canon) : (s.endCmds pick status f).Canon := by
  unfold Mod.endCmds
  dsimp only
  split
  · exact ((h.foldl noteWaits).whenNot fun h1 => h1.upd).upd
  · exact (h.foldl noteWaits).upd.postReplies.grants

theorem completeAt {s : Mod} {c f} (h : s.Canon) : (s.completeAt c f).Canon := ite h.setCmd ((h.foldl addSignal).foldl releaseWeir).postReplies.grants.sendDue

theorem weirTimeout {s : Mod} {c} (h : s.Canon) : (s.weirTimeout c).Canon := by
  unfold Mod.weirTimeout
  split
  · exact h.endCmds
  · exact h

/-! ## Checkpoints -/

theorem runCkptTake {s : Mod} {c} (h : s.Canon) : (s.runCkptTake c).Canon := by
  unfold Mod.runCkptTake
  dsimp only
  split
  · exact h
  · exact ite h.finish (by split; exacts [h.finish, h.setCmd.upd])

theorem markCow {s : Mod} {p ranges on} (h : s.Canon) : (s.markCow p ranges on).Canon := h.updMem

theorem takeCkpt {s : Mod} {f t} (h : s.Canon) : (Mod.takeCkpt f s t).Canon := by
  unfold Mod.takeCkpt
  dsimp only
  split
  · exact h
  · split
    · exact h.conclude
    · exact h.writeNow.updMem.markCow.conclude

theorem takeCkpts {s : Mod} {p f} (h : s.Canon) : (s.takeCkpts p f).Canon := h.upd.foldl takeCkpt

theorem takeIdle {s : Mod} {f} (h : s.Canon) : (s.takeIdle f).Canon := h.foldl fun h1 => h1.whenNot takeCkpts

theorem completeCkpt {s : Mod} {p} (h : s.Canon) : (s.completeCkpt p).Canon := by
  unfold Mod.completeCkpt
  split
  · exact h
  · exact h.putHead.updMem.markCow.foldl markCow

theorem failRestore {s : Mod} {p err} (h : s.Canon) : (s.failRestore p err).Canon := h.setFld.setFld.raiseNow

theorem beginRestore {s : Mod} {p obj f} (h : s.Canon) : (s.beginRestore p obj f).Canon :=
  h.whenNot fun h1 => ite h1.failRestore (by split; exacts [h1.failRestore, (ite h1.failRestore h1.updMem.setFld)])

theorem paceRestore {s : Mod} {f r} (h : s.Canon) : (s.paceRestore f r).1.Canon := by
  unfold Mod.paceRestore
  dsimp only
  split
  · exact h.updMem.failRestore
  · split
    · exact h.updMem.failRestore
    · split
      · exact h.updMem.failRestore
      · exact h.updMem

theorem loadSlot {s : Mod} {n img} (h : s.Canon) : (s.loadSlot n img).Canon := h.setFld.setFld.setFld

theorem endRestore {s : Mod} {p} (h : s.Canon) : (s.endRestore p).Canon := by
  unfold Mod.endRestore
  dsimp only
  split
  · exact h
  · apply raiseNow; apply setFld; apply updMem; apply putPair
    refine (h.foldl ?_).foldl fun h2 => h2.when loadSlot
    exact fun h1 => h1.when fun h2 => h2.put.put.put.setFld

/-! ## Debug commands -/

theorem runTrace {s : Mod} {c} (h : s.Canon) : (s.runTrace c).Canon := h.runCmd

theorem traceOp {s : Mod} {f e} (h : s.Canon) : (Mod.traceOp f s e).Canon := by
  unfold Mod.traceOp
  split
  · split
    · exact h.setTrace
    · exact h.whenNot fun h1 => ite h1.setTrace h1.setTrace
    · exact h.when setTrace
    · exact h
  · exact h

theorem setBrk {s : Mod} {p id b} (h : s.Canon) : (s.setBrk p id b).Canon := h.upd

theorem resumeBrk {s : Mod} {p ids single} (h : s.Canon) : (s.resumeBrk p ids single).Canon := h.upd

theorem haltFrame {s : Mod} (h : s.Canon) : s.haltFrame.Canon := h.upd

theorem brkHit {s : Mod} {p id} (h : s.Canon) : (s.brkHit p id).Canon := by
  unfold Mod.brkHit
  split
  · exact h
  · exact (h.upd.upd.when fun h1 => h1.setFld.note).whenNot fun h1 => (h1.whenNot note).upd

theorem brkStatus {s : Mod} {p} (h : s.Canon) : (s.brkStatus p).Canon := h.setFld.setFld

end Mod.Canon
end Sys2Proof.Machine
end

section
/-! SUPPORT. The work of engines, links and buckets, and the effects of a frame, keep device memory canonical. -/

namespace Sys2Proof.Machine

namespace Mod.Canon

/-! ## The forward product -/

theorem mapOrd {s : Mod} {o f} (h : s.Canon) : (s.mapOrd o f).Canon := h.upd

theorem landLater {s : Mod} {c f l} (h : s.Canon) : (s.landLater c f l).Canon := ite h.upd h.mapOrd

theorem join {s : Mod} {e} (h : s.Canon) : (s.join e).Canon := by
  unfold Mod.join
  split
  · exact (h.when mapOrd).stageAll
  · exact h.stageAll

theorem begin {s : Mod} {f e} (h : s.Canon) : (Mod.begin f s e).Canon := by
  unfold Mod.begin
  split
  · exact ite (h.mapOrd.bump.foldl join) h.mapOrd.bump.landLater
  · exact h.join

/-! ## The reverse product -/

theorem flushRgn {s : Mod} {tile rgn} (h : s.Canon) : (s.flushRgn tile rgn).Canon := h.bump.stageAll

theorem runRow {s : Mod} {w} (h : s.Canon) : (s.runRow w).Canon := h.runWork

/-! ## Scale and quantization -/

theorem runSlotClear {s : Mod} {c} (h : s.Canon) : (s.runSlotClear c).Canon := by
  unfold Mod.runSlotClear
  split
  · exact h
  · split
    · exact ite h.finish h.failAt
    · exact h.landIn

/-! ## Layout transforms -/

theorem runXf {s : Mod} {w} (h : s.Canon) : (s.runXf w).Canon := h.runWork

/-! ## The embedding service -/

theorem embView {s : Mod} {p} (h : s.Canon) : (s.embView p).Canon := h.foldl putMem

/-! ## Links -/

theorem setLink {s : Mod} {l v} (h : s.Canon) : (s.setLink l v).Canon := h.upd

theorem leaveUp {s : Mod} {l st cause} (h : s.Canon) : (s.leaveUp l st cause).Canon := h.setLink.when fun h1 => h1.raise.alertAll

theorem beginTraining {s : Mod} {l} (h : s.Canon) : (s.beginTraining l).Canon := h.setLink

theorem trainLink {s : Mod} {l lanes peer} (h : s.Canon) : (s.trainLink l lanes peer).Canon :=
  ite h.setFld.setLink (by split; exacts [h.setFld.emit, (ite h.setFld.emit.put.setLink h.setFld.emit.put.setLink)])

theorem raiseLinks {s : Mod} (h : s.Canon) : s.raiseLinks.Canon := h.foldl fun h1 => h1.when fun h2 => h2.setLink.when raiseNow

theorem sendOn {s : Mod} {l m} (h : s.Canon) : (s.sendOn l m).Canon := h.setLink.hubEvent

theorem putFlit {s : Mod} {l f} (h : s.Canon) : (s.putFlit l f).Canon := h.setLink.emit

theorem newFlit {s : Mod} {l vc data} (h : s.Canon) : (s.newFlit l vc data).Canon := h.setLink.putFlit

theorem flushLink {l n : Nat} : ∀ {s : Mod}, s.Canon → (Mod.flushLink l n s).Canon := by
  induction n with
  | zero => exact fun h => h
  | succ n ih =>
    intro s h
    unfold Mod.flushLink
    dsimp only
    split
    · exact h
    · split
      · exact h
      · exact ih (h.setLink.foldl fun h1 => h1.whenNot hubEvent).newFlit

theorem answer {s : Mod} {l} (h : s.Canon) : (s.answer l).Canon := h.when newFlit

theorem sendOne {s : Mod} {m} (h : s.Canon) : (s.sendOne m).1.Canon := by
  unfold Mod.sendOne
  dsimp only
  split
  · exact h.countLater
  · exact h.setLink
  · split
    · exact h.countLater
    · split
      · exact h
      · exact h.sendOn.upd

/-- A message joins the queue of those that wait to be sent. -/
theorem requeue {s : Mod} {m : Msg} (h : s.Canon) : ({ s with zl := { s.zl with sendq := s.zl.sendq ++ [m] } } : Mod).Canon := h.upd

theorem pumpOne {s : Mod} {m : Msg} (h : s.Canon) : (match s.sendOne m with
    | (s, true) => s
    | (s, false) => { s with zl := { s.zl with sendq := s.zl.sendq ++ [m] } } : Mod).Canon := by
  have k := h.sendOne (m := m)
  split
  · rename_i heq
    rw [heq] at k
    exact k
  · rename_i heq
    rw [heq] at k
    exact requeue k

theorem pump {s : Mod} (h : s.Canon) : (s.pump).Canon := (h.upd.foldl fun h1 => ite h1.upd h1.pumpOne).foldl flushLink

theorem send {s : Mod} {m} (h : s.Canon) : (s.send m).Canon := h.upd

theorem startLinks {s : Mod} (h : s.Canon) : s.startLinks.Canon := by
  unfold Mod.startLinks
  exact (h.foldl fun h1 => (h1.whenNot setLink).when sendOn).pump

theorem takeMsg {s : Mod} {l m} (h : s.Canon) : (s.takeMsg l m).Canon := by
  unfold Mod.takeMsg
  split
  · exact h.countLater
  · exact h.countLater.whenNot fun h1 => ite h.setLink (h1.whenNot fun h2 => (by split; exacts [h.send, h2]))

theorem loseMsgs {s : Mod} {l ms} (h : s.Canon) : (s.loseMsgs l ms).Canon := h.whenNot fun h1 => h1.raise.upd

theorem takePayload {s : Mod} {l vc tag bs} (h : s.Canon) : (s.takePayload l vc tag bs).Canon := by
  unfold Mod.takePayload
  dsimp only
  generalize (if tag = s.fc.num % 65536 then some (s.fc.num + 1) else _) = o
  split
  · exact h.setLink.countLater.countFldLater.loseMsgs
  · exact ((h.setLink.whenNot fun h1 => h1.foldl hubEvent).whenNot countLater).foldl takeMsg

theorem resend {s : Mod} {l} (h : s.Canon) : (s.resend l).Canon := h.whenNot fun h1 => ite h1.leaveUp (h1.setLink.countLater.foldl putFlit)

theorem takeHeader {s : Mod} {l x2} (h : s.Canon) : (s.takeHeader l x2).Canon := h.setLink.when resend

theorem dropFlit {s : Mod} {l} (h : s.Canon) : (s.dropFlit l).Canon := h.countLater.setLink.answer

theorem takeFlit {s : Mod} {l flit corrected} (h : s.Canon) : (s.takeFlit l flit corrected).Canon :=
  (h.whenNot countLater).dropFlit.whenNot fun h1 => ite (h.whenNot countLater).countLater
    (ite h1 ((h.whenNot countLater).setLink.takeHeader.whenNot fun h2 => h2.takePayload.pump.answer))

theorem denied {s : Mod} {p} (h : s.Canon) : (s.denied p).Canon := h.countLater

theorem deliver {s : Mod} {m f} (h : s.Canon) (k2 : ∀ {t0 t1}, t0.Canon → (f t0 t1).Canon) : (s.deliver m f).Canon :=
  h.whenNot fun h2 => h2.whenNot fun h3 => ite h3.denied (k2 h3)

theorem failRejoin {s : Mod} {reason} (h : s.Canon) : (s.failRejoin reason).Canon := h.upd.setFld.setFld.raise

theorem onIdle {s : Mod} {l m} (h : s.Canon) : (Mod.onIdle l s m).Canon := by
  unfold Mod.onIdle
  dsimp only
  split
  · exact h.stage.stage.setFld.when fun h1 => ite h1.upd h1.failRejoin
  · exact h.stage.stage.setFld

theorem onXfer {s : Mod} {l m} (h : s.Canon) : (Mod.onXfer l s m).Canon := h.deliver (fun h1 => ite h1.stage h1.denied)

theorem onRowadd {s : Mod} {l m} (h : s.Canon) : (Mod.onRowadd l s m).Canon := by
  unfold Mod.onRowadd
  dsimp only
  exact h.deliver (fun h1 => ite h1.hubEvent.denied (by split; exacts [h1.hubEvent.upd, (by split; exacts [h1.hubEvent.stage.upd, (h1.hubEvent.when fun h2 => h2.upd)])]))

/-! ## Buckets -/

theorem setBkts {s : Mod} {p l} (h : s.Canon) : (s.setBkts p l).Canon := h.upd

theorem writeAt {s : Mod} {p cells} (h : s.Canon) : (s.writeAt p cells).Canon := ite h.stage h.writeLate

theorem setBkt {s : Mod} {p b} (h : s.Canon) : (s.setBkt p b).Canon := h.setBkts.writeAt

theorem openBkt {s : Mod} {p b} (h : s.Canon) : (Mod.openBkt p s b).Canon := h.writeAt

theorem noteBkt {s : Mod} {p f b i n} (h : s.Canon) : (s.noteBkt p f b i n).Canon := h.note.hubEvent

theorem sendRank {s : Mod} {p r vc kind a b frame body} (h : s.Canon) : (s.sendRank p r vc kind a b frame body).Canon := h.send

theorem firstFail {s : Mod} {p b} (h : s.Canon) : (s.firstFail p b).Canon := h.whenNot put

theorem endReduce {s : Mod} {p f status b} (h : s.Canon) : (s.endReduce p f status b).Canon := by
  unfold Mod.endReduce
  dsimp only
  split
  · exact h
  · split
    · exact h.setBkts.setCmd
    · exact h.setBkts

theorem failBkt {s : Mod} {p f cause b} (h : s.Canon) : (s.failBkt p f cause b).Canon := h.setBkt.firstFail.noteBkt.endReduce

theorem bktFinal {s : Mod} {p f b} (h : s.Canon) : (s.bktFinal p f b).Canon := ite h.setBkt h.setBkt.noteBkt.endReduce

theorem putPayload {s : Mod} {p b at_ codes} (h : s.Canon) : (s.putPayload p b at_ codes).1.Canon := h.writeAt

theorem closeBkt {s : Mod} {p f num b} (h : s.Canon) : (s.closeBkt p f num b).Canon := ite h.writeAt.failBkt h.noteBkt.setBkt.writeAt

theorem onBucketClose {s : Mod} {p n} (h : s.Canon) : (s.onBucketClose p n).Canon := by
  unfold Mod.onBucketClose
  split
  · exact h.closeBkt
  · exact h

theorem sendShard {s : Mod} {p r kind frame b shard step codes} (h : s.Canon) : (s.sendShard p r kind frame b shard step codes).Canon := h.foldl sendRank

theorem onStageOne {s : Mod} {p n} (h : s.Canon) : (s.onStageOne p n).Canon := by
  unfold Mod.onStageOne
  split
  · exact ite h.putPayload.bktFinal (h.foldl sendShard).bktFinal
  · exact h

theorem onShard {s : Mod} {x0 m} (h : s.Canon) : (Mod.onShard x0 s m).Canon := h.deliver (fun h1 => by split; exacts [(h1.whenNot setBkt), h1])

theorem onOwnSum {s : Mod} {p n} (h : s.Canon) : (s.onOwnSum p n).Canon := by
  unfold Mod.onOwnSum
  split
  · split
    · exact h
    · exact (h.foldl sendShard).putPayload.bktFinal
  · exact h

theorem onResult {s : Mod} {l m} (h : s.Canon) : (Mod.onResult l s m).Canon :=
  h.deliver (fun h1 => by split; exacts [(h1.whenNot fun h2 => h2.stage.bktFinal), h1])

theorem onBucketLate {s : Mod} {p n} (h : s.Canon) : (s.onBucketLate p n).Canon := by
  unfold Mod.onBucketLate
  split
  · exact h.failBkt
  · exact h

theorem onPassOne {s : Mod} {p n} (h : s.Canon) : (s.onPassOne p n).Canon := by
  unfold Mod.onPassOne
  split
  · exact h.upd.hubEvent.setBkt
  · exact h

theorem runReduce {s : Mod} {c} (h : s.Canon) : (s.runReduce c).Canon := by
  unfold Mod.runReduce
  split
  · exact h
  · exact ite h.finish (by split; exacts [h.failAt, (ite h.setCmd.setBkts.openBkt.failBkt.setBkts.finish h.setCmd.setBkts.openBkt.closeBkt)])

/-! ## The update engine -/

theorem passItem {acc : Mod × List WCell × PassTwo} {clip norms i} (h : acc.1.Canon) : (Mod.passItem clip norms acc i).1.Canon := h.putMem

theorem commitGroups {s : Mod} {t sp} (h : s.Canon) : (s.commitGroups t sp).Canon := h.foldl fun h1 => h1.setFld.put.put.put

theorem applySelection {s : Mod} {replay p x} (h : s.Canon) : (Mod.applySelection replay p s x).Canon := (h.setFld.setFld.setFld.setFld.when raiseNow).writeNow

/-! ## The effects of a frame -/

theorem clearRegion {s : Mod} {i} (h : s.Canon) : (s.clearRegion i).Canon := h.upd.setFld.setFld

theorem mapStep {s : Mod} {p f} (h : s.Canon) : (s.mapStep p f).Canon := h.upd

theorem dropWork {s : Mod} {p} (h : s.Canon) : (s.dropWork p).Canon := h.upd.foldl clearRegion

theorem abandonStep {s : Mod} {p reasons plain now} (h : s.Canon) : (s.abandonStep p reasons plain now).Canon := by
  unfold Mod.abandonStep
  split
  · exact h
  · exact h.whenNot fun h1 => ite h1.dropWork.mapStep.upd h1.dropWork.mapStep.endCmds

theorem mapColl {s : Mod} {n f} (h : s.Canon) : (s.mapColl n f).Canon := h.upd

theorem collEvent {s : Mod} {n m} (h : s.Canon) : (s.collEvent n m).Canon := by
  unfold Mod.collEvent
  split
  · exact h.hubEvent
  · exact h

theorem addAcb {s : Mod} {tile rgn ds} (h : s.Canon) : (s.addAcb tile rgn ds).Canon := h.upd.when setFld

theorem useAcb {s : Mod} {i} (h : s.Canon) : (s.useAcb i).Canon := h.setFld.setFld

theorem applyReduce {s : Mod} {p cs} (h : s.Canon) : (s.applyReduce p cs).Canon := (h.when raise).saveFirst.reduceAll.when mapStep

theorem openChunk {s : Mod} {q k i} (h : s.Canon) : (s.openChunk q k i).1.Canon := by
  unfold Mod.openChunk
  split
  · exact h
  · dsimp only
    split
    · generalize hk : s.hubEvent _ _ 17 _ = t
      have k : t.Canon := hk ▸ h.hubEvent
      split
      · exact k.setCmd
      · split
        · exact k.upd.setCmd
        · exact k.upd.raise.stopImport
    · exact h

theorem sendHost {s : Mod} {t p fn q k dev host n} (h : s.Canon) : (s.sendHost t p fn q k dev host n).Canon := ite h.upd h.hubEvent.emit

theorem applyData {s : Mod} (h : s.Canon) : (s.applyData).1.Canon := by
  unfold Mod.applyData
  dsimp only
  refine foldl (foldl (upd (when (foldlFst (foldl (foldl (foldl (foldlFst (foldlFst (foldl (foldl h ?_) ?_) ?_) ?_) ?_) ?_) ?_) ?_) ?_)) ?_) ?_
  · exact fun h1 => by split; exacts [h1.putMigs, h1.landSub, h1]
  · exact fun h1 => by split; exacts [h1.sendHost, h1]
  · exact fun h1 => by split; exacts [h1.openChunk, h1]
  · exact paceRestore
  · exact addAcb
  · exact fun h1 => by split; exacts [h1.collEvent.mapColl, h1.collEvent.mapColl, h1.useAcb, h1.clearRegion, h1]
  · exact fun h1 => by split; exacts [h1.upd, h1]
  · exact ckptCopies
  · exact raise
  · exact applyWrite
  · exact fun h1 => h1.whenNot applyReduce

theorem putStageUse {s : Mod} {p n rows} (h : s.Canon) : (s.putStageUse p n rows).Canon := by
  unfold Mod.putStageUse
  split
  · exact h
  · exact h.writeNow.upd

theorem addSlot {s : Mod} {slot conv flag sat bins} (h : s.Canon) : (s.addSlot slot conv flag sat bins).Canon := h.upd

theorem markBlocks {s : Mod} {p addr marks} (h : s.Canon) : (s.markBlocks p addr marks).Canon := h.foldl writeNow

theorem firstIndexError {s : Mod} {o : Option (Nat × Nat)} {p : Nat} {w : Word} (h : s.Canon) : (match o with
    | some (pos, v) =>
      if s.bit .TD_IDX_FIRST_VALID p then s else
      let s := s.put .TD_IDX_FIRST p w
      ((s.put .TD_IDX_POS p (BitVec.ofNat 32 pos)).putPair .TD_IDX_VALUE_LO .TD_IDX_VALUE_HI p v).putPair .TD_IDX_FRAME_LO .TD_IDX_FRAME_HI p s.fc.num
    | none => s : Mod).Canon := by
  split
  · exact h.whenNot fun h1 => h1.put.put.putPair.putPair
  · exact h

theorem indexErrors {s : Mod} {p die xform handle errs} (h : s.Canon) : (s.indexErrors p die xform handle errs).Canon := h.put.firstIndexError.mapStep

theorem shadowEnd {s : Mod} {tile p seq outcome} (h : s.Canon) : (s.shadowEnd tile p seq outcome).Canon :=
  ite h.raiseNow (h.countReg.whenNot fun h1 => (h1.countReg.raiseNow.whenNot fun h2 => h2.put.putPair).note.mapStep.alertNow)

theorem stopIfIn {s : Mod} {p n} (h : s.Canon) : (s.stopIfIn p n).Canon := by
  unfold Mod.stopIfIn
  split
  · exact h.when stopTrace
  · exact h

theorem putPcs {s : Mod} {idx ws} (h : s.Canon) : (s.putPcs idx ws).Canon := h.put.put.foldl put

theorem applyOne {s : Mod} {stg x} (h : s.Canon) : (Mod.applyOne stg s x).Canon := by
  unfold Mod.applyOne
  split
  · exact h.upd
  · exact h.putPcs
  · exact h.put
  · exact h.put
  · exact h.countReg
  · exact h.bumpFld
  · exact h.put
  · exact h.upd
  · exact h.upd
  · exact h.putObj
  · exact h.stopIfIn.releaseObj
  · exact h.when landMig
  · exact h.markRetire
  · exact ite h.addSlot.raiseNow h.addSlot
  · exact h.markBlocks
  · exact h.upd
  · exact h.upd
  · exact h.indexErrors
  · exact h.upd
  · exact h.shadowEnd
  · exact h.putStageUse
  · exact h.upd
  · exact h.event
  · exact h.note
  · exact h.setBrk
  · exact h.resumeBrk
  · exact h.upd
  · exact h.importRecord
  · exact h

theorem applyRest {s : Mod} (h : s.Canon) : s.applyRest.Canon := h.foldl applyOne

theorem applyBehind {s : Mod} {b} (h : s.Canon) : (s.applyBehind b).Canon := by
  unfold Mod.applyBehind
  split
  · exact h.writeNow
  · exact h.putLoc
  · exact h.applyReduce
  · exact h

/-! ## Control commands -/

theorem runDelay {s : Mod} {c} (h : s.Canon) : (s.runDelay c).Canon := by
  unfold Mod.runDelay
  split
  · exact h
  · exact ite h.landIn h.landIn

theorem runSignal {s : Mod} {w} (h : s.Canon) : (s.runSignal w).Canon := by
  unfold Mod.runSignal
  split
  · split
    · exact h
    · exact ite h.finish h.landIn
  · split
    · exact h
    · split
      · exact h.upd
      · exact (h.when countLater).upd

theorem runWeirClear {s : Mod} {c} (h : s.Canon) : (s.runWeirClear c).Canon := by
  unfold Mod.runWeirClear
  split
  · exact h
  · exact ite h.finish h.landIn.upd

theorem runRunProgram {s : Mod} {c} (h : s.Canon) : (s.runRunProgram c).Canon := by
  unfold Mod.runRunProgram
  split
  · exact h
  · exact ite h.finish (by split; exacts [h.finish, h.landIn.upd])

end Mod.Canon
end Sys2Proof.Machine
end

section
/-! SUPPORT. Steps, resets, faults, power and the start keep device memory canonical. -/

namespace Sys2Proof.Machine

namespace Mod.Canon

/-! ## Steps -/

theorem beginRun {s : Mod} {x waits} (h : s.Canon) : (s.beginRun x waits).Canon := h.setCmd

theorem runStepRun {s : Mod} {c} (h : s.Canon) : (s.runStepRun c).Canon := by
  unfold Mod.runStepRun
  split
  · exact h
  · exact ite h.finish (ite h.finish h.beginRun)

theorem runLoopStart {s : Mod} {c} (h : s.Canon) : (s.runLoopStart c).Canon := by
  unfold Mod.runLoopStart
  split
  · exact h
  · exact ite h.finish (ite h.finish h.beginRun.upd)

theorem runLoopStop {s : Mod} {c} (h : s.Canon) : (s.runLoopStop c).Canon := by
  unfold Mod.runLoopStop
  split
  · exact h
  · exact ite h.finish (by split; exacts [h.landIn, (ite h.beginRun.endLoop h.beginRun.upd)])

theorem putPhys {s : Mod} {a bs} (h : s.Canon) : (s.putPhys a bs).Canon := Mod.wf_putPhys a bs h

theorem putRecord {s : Mod} {o : Option Nat} {bs : List Byte} (h : s.Canon) : (match o with
    | some a => s.putPhys a bs
    | none => s : Mod).Canon := by
  split
  · exact h.putPhys
  · exact h

theorem writeRecord {s : Mod} {p f st} (h : s.Canon) : (s.writeRecord p f st).Canon := h.putRecord.put.upd

theorem runReplayDiag {s : Mod} {c} (h : s.Canon) : (s.runReplayDiag c).Canon := by
  unfold Mod.runReplayDiag
  split
  · exact h
  · exact ite h.finish (by split; exacts [h.failAt, h.beginRun])

theorem nextProg {s : Mod} {p} (h : s.Canon) : (s.nextProg p).Canon := by
  unfold Mod.nextProg
  split
  · exact h.whenNot fun h1 => (by split; exacts [h1.mapStep, (ite h1.mapStep.upd h1.mapStep)])
  · exact h

theorem freshAttempt {s : Mod} {p f num sp} (h : s.Canon) : (s.freshAttempt p f num sp).Canon := h.upd.setBkts.foldl openBkt

theorem openStep {s : Mod} {p} (h : s.Canon) : (s.openStep p).Canon := by
  unfold Mod.openStep
  split
  · dsimp only
    split
    · exact h
    · split
      · apply put; apply endCmds; apply upd; apply freshAttempt; apply setFld; apply upd
        split
        · exact h.foldl loadSlot
        · exact h.putPair
      · apply freshAttempt; apply setFld; apply upd
        split
        · exact h.foldl loadSlot
        · exact h.putPair
  · exact h

theorem noteReplay {s : Mod} {p r} (h : s.Canon) : (s.noteReplay p r).Canon := by
  unfold Mod.noteReplay
  dsimp only
  split
  · exact ((((h.when raiseNow).when raiseNow).when raiseNow).when raiseNow).setFld
  · exact (((h.when raiseNow).when raiseNow).when raiseNow).when raiseNow

theorem castBallot {s : Mod} {p} (h : s.Canon) : (s.castBallot p).Canon := by
  unfold Mod.castBallot
  split
  · exact h.noteReplay.put.mapStep.foldl sendRank
  · exact h

theorem onBallot {s : Mod} {m} (h : s.Canon) : (s.onBallot m).Canon := h.deliver (fun h1 => by split; exacts [(h1.when mapStep), h1])

theorem putMissing {s : Mod} {p l} (h : s.Canon) : (s.putMissing p l).Canon := h.putPair

theorem applyEarly {s : Mod} {p} (h : s.Canon) : (s.applyEarly p).Canon := h.upd.foldl applyBehind

theorem skipWork {s : Mod} {p f} (h : s.Canon) : (s.skipWork p f).Canon := h.dropWork.endCmds.endHeld

theorem keepWork {s : Mod} {p} (h : s.Canon) : (s.keepWork p).Canon := h.dropWork.upd

theorem decideStep {s : Mod} {p f outcome} (h : s.Canon) : (s.decideStep p f outcome).Canon := by
  unfold Mod.decideStep
  split
  · exact ite h.hubEvent.put.put.applyEarly.upd.mapStep ((ite h.hubEvent.keepWork h.hubEvent.skipWork).mapStep.fork mapStep
      fun h1 => h1.mapStep.when fun h2 => h2.mapStep.setFld.countReg)
  · exact h

theorem vote {s : Mod} {p} (h : s.Canon) : (s.vote p).Canon := by
  unfold Mod.vote
  split
  · exact (h.put.putMissing.note.when fun h1 => h1.raiseNow.alertNow).mapStep.whenNot decideStep
  · exact h

theorem settleHost {s : Mod} {p outcome host} (h : s.Canon) : (s.settleHost p outcome host).Canon := by
  unfold Mod.settleHost
  split
  · exact h.put.mapStep.decideStep
  · exact h

theorem onVerdict {s : Mod} {p} (h : s.Canon) : (s.onVerdict p).Canon := by
  unfold Mod.onVerdict
  split
  · exact h.settleHost
  · exact h

theorem goPass {s : Mod} {p} (h : s.Canon) : (s.goPass p).Canon := by
  unfold Mod.goPass
  split
  · exact h.whenNot fun h1 => (by split; exacts [((h1.mapStep.hubEvent.whenNot fun h2 => h2.upd).when fun h2 => h2.raise.alert)])
  · exact h

theorem maintain {s : Mod} {p} (h : s.Canon) : (s.maintain p).Canon := by
  unfold Mod.maintain
  split
  · exact h
  · exact h.mapStep

theorem endPassTwo {s : Mod} {p} (h : s.Canon) : (s.endPassTwo p).Canon := by
  unfold Mod.endPassTwo
  split
  · exact h.mapStep.foldl sendRank
  · exact h

theorem onClose {s : Mod} {m} (h : s.Canon) : (s.onClose m).Canon := h.deliver (fun h1 => by split; exacts [(h1.when mapStep), h1])

theorem emptyStages {s : Mod} {p sp} (h : s.Canon) : (s.emptyStages p sp).Canon := h.foldl fun h1 => by split; exacts [h1.writeNow.upd, h1]

theorem tellRunner {s : Mod} {p f st sp} (h : s.Canon) : (s.tellRunner p f st sp).Canon := by
  unfold Mod.tellRunner
  split
  · exact h.upd.conclude
  · exact (h.writeLate.foldl fun h1 => h1.put.put).conclude
  · split
    · exact h
    · exact ite h.upd.signalHub.endLoop (ite h.upd.signalHub.endLoop (ite h.upd.signalHub.endLoop (h.upd.signalHub.when endLoop)))

theorem closeStep {s : Mod} {p f} (h : s.Canon) : (s.closeStep p f).Canon := by
  unfold Mod.closeStep
  split
  · exact ((((ite h.hubEvent h.hubEvent).upd.when fun h1 => (h1.foldl applyBehind).commitGroups.tearFills).whenNot
      fun h1 => h1.foldl applySelection).writeRecord.emptyStages.when endHeld).fork
        (fun h1 => h1.upd.setBkts.mapStep) fun h1 => (h1.foldl applyBehind).setBkts.upd.tellRunner.when takeCkpts
  · exact h

theorem closeWithout {s : Mod} {p} (h : s.Canon) : (s.closeWithout p).Canon := by
  unfold Mod.closeWithout
  split
  · exact h.raiseNow.putMissing.closeStep
  · exact h

theorem reopen {s : Mod} {p} (h : s.Canon) : (s.reopen p).Canon := by
  unfold Mod.reopen
  split
  · exact h.upd.freshAttempt
  · exact h

/-! ## Seals -/

theorem beginSeal {s : Mod} {x} (h : s.Canon) : (s.beginSeal x).Canon := by
  unfold Mod.beginSeal
  split
  · exact h.whenNot fun h1 => h1.upd
  · exact h

/-! ## Resets, hangs and faults -/

theorem resetReg {s : Mod} {r idx} (h : s.Canon) : (s.resetReg r idx).Canon := h.put

theorem resetRegs {s : Mod} {pick} (h : s.Canon) : (s.resetRegs pick).Canon :=
  h.foldl fun h1 => by split; exacts [(by split; exacts [(h1.when resetReg), h1]), h1]

theorem snapOne {s : Mod} {reason kind index p} (h : s.Canon) : (Mod.snapOne reason kind index s p).Canon := Mod.wf_snapOne reason kind index p h

theorem snapshot {s : Mod} {reason kind index} (h : s.Canon) : (s.snapshot reason kind index).Canon := h.foldl snapOne

theorem snapshots {s : Mod} {reason ds} (h : s.Canon) : (s.snapshots reason ds).Canon := h.foldl fun h1 => by split; exacts [h1.snapOne, h1]

theorem stopProgs {s : Mod} {gone} (h : s.Canon) : (s.stopProgs gone).Canon := h.upd

theorem zeroTile {s : Mod} {t} (h : s.Canon) : (s.zeroTile t).Canon := h.upd

theorem markTile {s : Mod} {t on} (h : s.Canon) : (s.markTile t on).Canon := h.put

theorem countSpares {s : Mod} {d} (h : s.Canon) : (s.countSpares d).Canon := h.setFld

theorem restartPass {s : Mod} {ph} (h : s.Canon) : (s.restartPass ph).Canon := h.setFld.upd

theorem failTile {s : Mod} {ph} (h : s.Canon) : (s.failTile ph).Canon := h.upd.setFld.setFld.setFld.countSpares

theorem takeSpare {s : Mod} {ph t} (h : s.Canon) : (s.takeSpare ph t).Canon := h.upd.setFld.setFld.restartPass.markTile.countSpares

theorem findTile {s : Mod} {t} (h : s.Canon) : (s.findTile t).Canon := h.markTile.when fun h1 => (by split; exacts [h.takeSpare, h1])

theorem firstFail' {s : Mod} {ph mode slice bank line} (h : s.Canon) : (s.firstFail' ph mode slice bank line).Canon := h.whenNot fun h1 => h1.put.put.putPair

theorem startFail {s : Mod} {ph mode} (h : s.Canon) : (s.startFail ph mode).Canon := h.bump.firstFail'

theorem withdraw {s : Mod} {p} (h : s.Canon) : (s.withdraw p).Canon := h.when fun h1 => h1.upd.raiseNow

theorem dropSlots {s : Mod} {fn} (h : s.Canon) : (s.dropSlots fn).Canon := h.upd

theorem failHeld {s : Mod} {d} (h : s.Canon) : (s.failHeld d).Canon := h.upd.foldl fun h1 => by split; exacts [h1.emit, h1.emit, h1.bumpFld]

theorem clockOn {s : Mod} {d} (h : s.Canon) : (s.clockOn d).Canon := h.upd.setFld.setFld

theorem dropStep {s : Mod} {c : Prop} [Decidable c] {o : Option Step} {g : Step → Step} {p f : Nat} (h : s.Canon) : (match o with
    | some st => if c then s else s.writeRecord p f (g st)
    | none => s : Mod).Canon := by
  split
  · exact h.whenNot writeRecord
  · exact h

theorem dropPolder {s : Mod} {again p f} (h : s.Canon) : (Mod.dropPolder again s p f).Canon := by
  unfold Mod.dropPolder
  exact (((dropStep h (g := fun st => { st with abandoned := true, voteAt := none })).stopProgs.upd.whenNot fun h1 => h1.upd).whenNot fun h1 => h1.upd.foldl applyBehind).upd

theorem dropQueues {s : Mod} {p f} (h : s.Canon) : (s.dropQueues p f).Canon := (h.foldl cancelQueue).upd

theorem dropHub {s : Mod} {f} (h : s.Canon) : (s.dropHub f).Canon := (((h.foldl dropPolder).foldl dropCmd).foldl withdraw).upd

theorem dropModule {s : Mod} (h : s.Canon) : s.dropModule.Canon := h.upd

theorem prepReset {s : Mod} {kind index cause f} (h : s.Canon) : (s.prepReset kind index cause f).Canon :=
  (h.whenNot snapshot).endCmds.foldl fun h1 => h1.when abandonStep

theorem resetObs {s : Mod} {kind index} (h : s.Canon) : (s.resetObs kind index).Canon := h.upd

theorem resetNow {s : Mod} {kind index cause f cmds} (h : s.Canon) : (s.resetNow kind index cause f cmds).Canon := by
  unfold Mod.resetNow
  split
  · exact h.upd
  · refine put (upd (when (foldl (upd (resetRegs (resetObs (foldl ?_ zeroTile)))) restartPass) fun h1 => h1.foldl fun h2 => ?_))
    · exact ((((h.stopProgs.when fun h1 => h1.dropPolder.dropQueues.withdraw).when fun h1 => h1.foldl fun h2 => h2.when dropSlots).when
        dropHub).when dropModule).when fun h1 => h1.leaveUp.setLink
    · split
      · exact h2.failTile
      · exact h2

theorem askReset {s : Mod} {kind index cause cmds} (h : s.Canon) : (s.askReset kind index cause cmds).Canon := h.upd

theorem beginReset {s : Mod} {kind index cause f cmds} (h : s.Canon) : (s.beginReset kind index cause f cmds).Canon := (h.whenNot prepReset).resetNow

theorem prepAsked {s : Mod} {f} (h : s.Canon) : (s.prepAsked f).Canon := (h.foldl prepReset).upd

theorem emptyQueues {s : Mod} {f} (h : s.Canon) : (s.emptyQueues f).Canon := h.foldl dropQueues

theorem beginAsked {s : Mod} {f} (h : s.Canon) : (s.beginAsked f).Canon := h.upd.foldl resetNow

theorem leaveConf {s : Mod} {p} (h : s.Canon) : (s.leaveConf p).Canon := h.when fun h1 => h1.setFld.setFld

theorem closeReset {s : Mod} {r} (h : s.Canon) : (s.closeReset r).Canon := h.upd.put.foldl fun h1 => by split; exacts [h1.completeAt, h1]

theorem testTiles {s : Mod} {kind index failed} (h : s.Canon) : (s.testTiles kind index failed).Canon :=
  (h.foldl fun h1 => h1.startFail.failTile).foldl findTile

theorem releaseDomain {s : Mod} {r} (h : s.Canon) : (s.releaseDomain r).Canon :=
  (((h.foldl fun h1 => h1.clockOn.failHeld).fork leaveConf fun h1 => h1.when fun h2 => h2.foldl leaveConf).fork
    (fun h1 => h1.when beginTraining) fun h1 => h1.when fun h2 => h2.foldl fun h3 => h3.when beginTraining).closeReset

theorem startFields {s : Mod} {kind index} (h : s.Canon) : (s.startFields kind index).Canon :=
  (h.when fun h1 => h1.setFld.setFld.put).foldl fun h1 => h1.foldl fun h2 => h2.setFld.setFld

theorem onRelease {s : Mod} {kind index failed} (h : s.Canon) : (s.onRelease kind index failed).Canon := by
  unfold Mod.onRelease
  split
  · exact h
  · split
    · exact h.upd
    · exact h.startFields.testTiles.releaseDomain

theorem endChecks {s : Mod} {kind index failed} (h : s.Canon) : (s.endChecks kind index failed).Canon := ite h.onRelease.sendDue h.upd

theorem releaseStep {s : Mod} (h : s.Canon) : s.releaseStep.Canon := h.upd.foldl onRelease

theorem recordHang {s : Mod} {f k} (h : s.Canon) : (Mod.recordHang f s k).Canon := (h.whenNot fun h1 => h1.put.putPair).foldl fun h1 => h1.note.alertNow

theorem reportHang {s : Mod} {f ks} (h : s.Canon) : (s.reportHang f ks).Canon := (h.foldl recordHang).countReg.snapshots

theorem actOnHang {s : Mod} {f ks targets} (h : s.Canon) : (s.actOnHang f ks targets).Canon :=
  h.whenNot fun h1 => (h1.endCmds.foldl abandonStep).whenNot fun h2 => h2.foldl fun h3 => ite h3.askReset h3.beginReset

theorem onHang {s : Mod} (h : s.Canon) : s.onHang.Canon := h.upd.reportHang.actOnHang

theorem watchdog {s : Mod} {late} (h : s.Canon) : (s.watchdog late).Canon := h.reportHang.actOnHang.sendDue

theorem onTileFault {s : Mod} {t} (h : s.Canon) : (s.onTileFault t).Canon := h.stage.upd

theorem takeFaults {s : Mod} (h : s.Canon) : s.takeFaults.Canon := (h.foldl fun h1 => h1.upd.abandonStep.stopProgs.askReset).upd

theorem uncorrAt {s : Mod} {pol id ofs patrol} (h : s.Canon) : (s.uncorrAt pol id ofs patrol).Canon :=
  (h.countLater.stage.whenNot fun h1 => h1.put.put.putPair).addPoison

theorem patrol {s : Mod} {c addr uncorr} (h : s.Canon) : (s.patrol c addr uncorr).Canon := ite h.countLater h.uncorrAt.alert

theorem onZeroed {s : Mod} {c} (h : s.Canon) : (s.onZeroed c).Canon := by
  unfold Mod.onZeroed
  dsimp only
  split
  · exact h
  · exact h.updMem

theorem runSlice {s : Mod} {t fail} (h : s.Canon) : (s.runSlice t fail).Canon := by
  unfold Mod.runSlice
  split
  · exact h
  · split
    · exact h.stage.event.stage.firstFail'.upd
    · exact ite h.stage.event.setFld.setFld.upd h.stage.event.setFld

theorem idleSlice {s : Mod} {t} (h : s.Canon) : (s.idleSlice t).Canon := h.stage.event

theorem starve {s : Mod} {ph} (h : s.Canon) : (s.starve ph).Canon := h.raise.countLater.upd

theorem startRound {s : Mod} {d} (h : s.Canon) : (s.startRound d).Canon := h.upd

theorem endSpareTest {s : Mod} {ph pass} (h : s.Canon) : (s.endSpareTest ph pass).Canon := by
  unfold Mod.endSpareTest
  dsimp only
  split
  · exact h
  · split
    · exact h.upd.whenNot fun h1 => h1.startFail.failTile
    · exact (ite (h.upd.whenNot fun h1 => h1.startFail.failTile).takeSpare (h.upd.whenNot fun h1 => h1.startFail.failTile).findTile).endChecks

/-! ## Power and heat -/

theorem refreshCoarse {s : Mod} (h : s.Canon) : s.refreshCoarse.Canon := h.upd

theorem takeReadings {s : Mod} {l} (h : s.Canon) : (s.takeReadings l).Canon := h.upd

theorem hotBits {s : Mod} (h : s.Canon) : s.hotBits.Canon := h.setFld.setFld.setFld.setFld

theorem powerStep {s : Mod} (h : s.Canon) : s.powerStep.Canon := ((h.upd.when raiseNow).setFld.setFld.foldl fun h1 => h1.setFld.setFld.setFld.setFld).put

theorem resetAll {s : Mod} {cause} (h : s.Canon) : (s.resetAll cause).Canon := ite h.askReset (h.whenNot beginReset)

theorem powerLost {s : Mod} (_ : s.Canon) : (s.powerLost).Canon := State.reset_mem_wf

theorem loadLedger {s : Mod} (h : s.Canon) : s.loadLedger.Canon := h.upd.foldl put

/-! ## The start -/

theorem writeLedger {s : Mod} {x r} (h : s.Canon) : (s.writeLedger x r).Canon := h.put.put.put.put.put.upd

theorem saveLedger {s : Mod} (h : s.Canon) : s.saveLedger.Canon := h.upd

theorem enableCtls {s : Mod} {hbm packs} (h : s.Canon) : (s.enableCtls hbm packs).Canon := h.updMem

/-- Taking a controller's first free frame leaves the bytes of memory alone. -/
theorem takeFrame_cells {m m' : Mem} {c f : Nat} (h : m.takeFrame c = some (f, m')) : m'.cells = m.cells := by
  unfold Mem.takeFrame at h
  split at h
  · cases h
    rfl
  · cases h

/-- Placing frames leaves the bytes of memory alone. -/
theorem place_cells {cs : List Nat} {j n : Nat} : ∀ {k : Nat} {m m' : Mem} {ids : List Nat}, m.place cs j k n = some (ids, m') → m'.cells = m.cells := by
  induction n with
  | zero =>
    intro k m m' ids h
    cases h
    rfl
  | succ n ih =>
    intro k m m' ids h
    unfold Mem.place at h
    split at h
    · cases h
    · split at h
      · cases h
      · rename_i hf
        split at h
        · cases h
        · rename_i hp
          cases h
          rw [ih hp, takeFrame_cells hf]

theorem placeArea {s : Mod} {cs : List Nat} {j n : Nat} {g : List Nat → Mem → Mem} (h : s.Canon) (hg : ∀ ids m, (g ids m).cells = m.cells) : (match s.mem.place cs j 0 n with
    | some (ids, m) => { s with mem := g ids m }
    | none => s : Mod).Canon := by
  split
  · rename_i hp
    rw [Mod.Canon, hg, place_cells hp]
    exact h
  · exact h

theorem placeAreas {s : Mod} {p} (h : s.Canon) : (s.placeAreas p).Canon := by
  unfold Mod.placeAreas
  refine placeArea (g := fun ids m => { m with recovery := m.recovery ++ ids.zipIdx.map fun (x : Nat × Nat) => (p, x.2, x.1) }) ?_ fun _ _ => rfl
  exact placeArea (g := fun ids m => { m with sysArea := m.sysArea ++ ids.zipIdx.map fun (x : Nat × Nat) => (p, x.2, x.1) }) h fun _ _ => rfl

theorem initMemory {s : Mod} (_ : s.Canon) : (s.initMemory).Canon := by
  refine updMem (foldl ?_ placeAreas)
  exact State.reset_mem_wf

theorem newLayout {s : Mod} {count} (h : s.Canon) : (s.newLayout count).Canon := (h.setFld.resetRegs.foldl setFld).upd

theorem startLayout {s : Mod} {hbm packs} (h : s.Canon) : (s.startLayout hbm packs).Canon := (h.setFld.when newLayout).enableCtls.when initMemory

theorem startTile {s : Mod} {ph logical failed} (h : s.Canon) : (s.startTile ph logical failed).Canon := by
  unfold Mod.startTile
  dsimp only
  split
  · exact h.put.setFld.setFld.setFld.upd
  · exact h.put.setFld.setFld.setFld

theorem startDie {s : Mod} {failed d} (h : s.Canon) : (s.startDie failed d).Canon :=
  ((h.foldl startTile).whenNot fun h1 => h1.foldl startFail).put.put.put.countSpares

theorem startTiles {s : Mod} {tiles} (h : s.Canon) : (s.startTiles tiles).Canon := (h.upd.foldl startDie).upd

end Mod.Canon
end Sys2Proof.Machine
end

section
/-! SUPPORT. Sessions, host accesses, queues and step 5 of the sluice keep device memory canonical. -/

namespace Sys2Proof.Machine

namespace Mod.Canon

/-! ## The test port -/

theorem enterScan {s : Mod} (h : s.Canon) : s.enterScan.Canon := (h.foldl withdraw).dropHub.raiseNow.upd

/-! ## Sessions, keys and confidential mode -/

theorem spdmReply {s : Mod} {fn code msg} (h : s.Canon) : (s.spdmReply fn code msg).Canon := h.emit.bump

theorem connected {s : Mod} {fn code msg} (h : s.Canon) : (s.connected fn code msg).Canon := h.spdmReply

theorem secured {s : Mod} {fn n code msg f} (h : s.Canon) (k5 : ∀ {t0}, t0.Canon → (f t0).Canon) : (s.secured fn n code msg f).Canon :=
  ite (k5 h).spdmReply h.spdmReply

theorem dropSession {s : Mod} {fn n} (h : s.Canon) : (s.dropSession fn n).Canon := h.upd

theorem updateKeys {s : Mod} {fn n} (h : s.Canon) : (s.updateKeys fn n).Canon := h.upd

theorem keyReply {s : Mod} {fn result p} (h : s.Canon) : (s.keyReply fn result p).Canon := h.emit

theorem stageKey {s : Mod} {p k key} (h : s.Canon) : (s.stageKey p k key).Canon := h.upd

theorem applyKeys {s : Mod} (h : s.Canon) : s.applyKeys.Canon := (h.foldl fun h1 => (h1.when raiseNow).upd).upd

theorem enterConf {s : Mod} {p f} (h : s.Canon) : (s.enterConf p f).Canon := ite h.setFld (h.whenNot refreshCoarse).setFld.upd.stopTrace.endCmds

/-! ## Register reads -/

theorem keepCoarse {s : Mod} (h : s.Canon) : s.keepCoarse.Canon := h.upd

theorem readWord {s : Mod} {fn off} (h : s.Canon) : (s.readWord fn off).2.Canon := by
  unfold Mod.readWord
  split
  · exact h
  · split
    · exact h.denied
    · split
      · exact h
      · exact h.bump

theorem read4 {s : Mod} {fn off} (h : s.Canon) : (s.read4 fn off).2.Canon := by
  unfold Mod.read4
  split
  · exact h.readWord.readWord.upd
  · split
    · exact h.upd
    · exact h.readWord
  · exact h.readWord

theorem readReg {s : Mod} {fn off len} (h : s.Canon) : (s.readReg fn off len).2.Canon := by
  unfold Mod.readReg
  split
  · split
    · exact h.readWord.readWord.upd
    · exact h.read4.read4
  · exact h.read4

/-! ## The port -/

theorem setVec {s : Mod} {k v} (h : s.Canon) : (s.setVec k v).Canon := h.upd

theorem flushVec {s : Mod} {k} (h : s.Canon) : (s.flushVec k).Canon := h.when fun h1 => h1.upd.sendVec

theorem flushVecs {s : Mod} {fn} (h : s.Canon) : (s.flushVecs fn).Canon := h.foldl flushVec

theorem setBar4 {s : Mod} {fn off w} (h : s.Canon) : (s.setBar4 fn off w).Canon :=
  h.when fun h1 => (by split; exacts [h1.setVec, h1.setVec, h1.setVec, h1.setVec.flushVec])

theorem bar4Write {s : Mod} {fn off len v} (h : s.Canon) : (s.bar4Write fn off len v).Canon := h.whenNot fun h1 => h1.setBar4.when setBar4

theorem bar4Read {s : Mod} {fn off len} (h : s.Canon) : (s.bar4Read fn off len).Canon := ite h.emit h.emit

theorem cfgWrite {s : Mod} {fn r v} (h : s.Canon) : (s.cfgWrite fn r v).Canon := by
  unfold Mod.cfgWrite
  split
  · exact h.upd
  · exact h.upd.flushVecs
  · exact h.upd
  · exact h
  · exact h
  · exact h
  · exact h
  · exact h
  · exact h
  · exact h
  · exact h
  · exact h
  · exact h
  · exact h
  · exact h
  · exact h
  · exact h
  · exact h
  · exact h
  · exact h

/-! ## Host accesses -/

theorem setSlot {s : Mod} {fn k c} (h : s.Canon) : (s.setSlot fn k c).Canon := h.upd

theorem txWrite {s : Mod} {fn r idx v refused} (h : s.Canon) : (s.txWrite fn r idx v refused).Canon := ite h.raise (ite h.setSlot h.setSlot)

theorem ctCmd {s : Mod} {fn op k} (h : s.Canon) : (s.ctCmd fn op k).Canon := by
  unfold Mod.ctCmd
  dsimp only
  split
  · exact h.setSlot
  · exact h.setSlot.upd
  · exact h.upd
  · exact h.upd
  · exact h

theorem plainWrite {s : Mod} {fn r idx v} (h : s.Canon) : (s.plainWrite fn r idx v).Canon := by
  unfold Mod.plainWrite
  split
  · exact h.put
  · exact h.ctCmd
  · exact h.whenNot fun h1 => h1.upd
  · exact (h.when fun h1 => h1.upd).upd
  · exact (h.when setBank).upd
  · exact h.upd
  · exact h.upd
  · exact h.whenNot fun h1 => h1.upd

theorem writeReg {s : Mod} {fn r idx v} (h : s.Canon) : (s.writeReg fn r idx v).Canon :=
  h.whenNot fun h1 => ite (h1.denied.whenNot fun h2 => ite h1.txWrite h2.raise) (h1.whenNot fun h2 => (h2.when txWrite).plainWrite)

theorem writeWord {s : Mod} {fn off v} (h : s.Canon) : (s.writeWord fn off v).Canon := by
  unfold Mod.writeWord
  split
  · exact h.writeReg
  · exact ite h.denied (h.whenNot fun h1 => h1.upd)
  · exact h

theorem dropPair {s : Mod} {fn x2} (h : s.Canon) : (s.dropPair fn x2).Canon := h.upd

theorem store4 {s : Mod} {fn off v} (h : s.Canon) : (s.store4 fn off v).Canon := by
  unfold Mod.store4
  split
  · split
    · exact h.dropPair.writeWord.writeWord
    · exact h.dropPair.writeWord
  · exact h.dropPair.upd
  · exact h.writeWord

theorem storeAt {s : Mod} {fn off len v} (h : s.Canon) : (s.storeAt fn off len v).Canon :=
  h.store4.when fun h1 => (by split; exacts [h.dropPair.writeWord.writeWord, h1.store4])

theorem portMoved {s : Mod} (h : s.Canon) : s.portMoved.Canon := h.upd

theorem dropWrite {s : Mod} (h : s.Canon) : s.dropWrite.Canon := ite h.countFldLater h.bumpFld

theorem holdFor {s : Mod} {d a} (h : s.Canon) : (s.holdFor d a).Canon := ite h.dropWrite h.upd

theorem bar2Done {s : Mod} {p} (h : s.Canon) : (s.bar2Done p).Canon := h.hubEvent.portMoved

theorem bar2Write {s : Mod} {fn off data} (h : s.Canon) : (s.bar2Write fn off data).Canon :=
  ite h.bar2Done.raise (ite h.bar2Done.raise (ite h.bar2Done.raise (ite h.bar2Done.raise (h.bar2Done.when raise).stage)))

theorem bar2Read {s : Mod} {fn off len} (h : s.Canon) : (s.bar2Read fn off len).Canon :=
  ite h.bar2Done.raise.emit (ite h.bar2Done.raise.emit (h.bar2Done.when raise).emit)

theorem perform {s : Mod} {x1} (h : s.Canon) : (s.perform x1).Canon := by
  unfold Mod.perform
  split
  · exact h.storeAt.portMoved
  · exact h.readReg.emit.portMoved
  · exact h.bar2Write
  · exact h.bar2Read

theorem access {s : Mod} {a} (h : s.Canon) : (s.access a).Canon := ite (h.when emit) (by split; exacts [h.perform, (ite h.emit h.dropWrite), h.holdFor])

theorem hostAcc {s : Mod} {win a} (h : s.Canon) : (s.hostAcc win a).Canon := ite h.upd h.access

theorem releaseHeld {s : Mod} (h : s.Canon) : s.releaseHeld.Canon := h.upd.foldl access

theorem releaseStuck {s : Mod} (h : s.Canon) : s.releaseStuck.Canon := h.upd.foldl access

/-! ## Step 5 of the sluice -/

theorem armRejoin {s : Mod} {f link} (h : s.Canon) : (s.armRejoin f link).Canon := ite h.failRejoin h.upd

theorem stopDie {s : Mod} {d} (h : s.Canon) : (s.stopDie d).Canon := h.setFld.upd

theorem restartDie {s : Mod} {d f} (h : s.Canon) : (s.restartDie d f).Canon := h.upd

theorem restartsDue {s : Mod} {f} (h : s.Canon) : (s.restartsDue f).Canon := h.foldl clockOn

theorem remap {s : Mod} {v} (h : s.Canon) : (s.remap v).Canon := by
  unfold Mod.remap
  dsimp only
  split
  · exact h.zeroTile.resetRegs.takeSpare
  · exact h

theorem committed {s : Mod} {f w} (h : s.Canon) : (Mod.committed f s w).Canon := by
  unfold Mod.committed
  split
  · exact h.upd
  · exact ite (h.whenNot leaveUp) (h.when beginTraining)
  · exact ite h.armRejoin h.upd
  · exact h.upd
  · exact h.upd
  · exact h.when remap
  · exact h.when beginRestore
  · exact h.foldl fun h1 => ite h1.stopDie (h1.when restartDie)
  · exact h

theorem regrid {s : Mod} {i} (h : s.Canon) : (s.regrid i).Canon := by
  unfold Mod.regrid
  dsimp only
  split
  · exact h.put
  · exact h

theorem retrainAll {s : Mod} (h : s.Canon) : s.retrainAll.Canon := h.foldl fun h1 => h1.whenNot leaveUp

theorem applyTx {s : Mod} {f ws} (h : s.Canon) : (s.applyTx f ws).Canon := ((((h.foldl put).foldl regrid).foldl committed).foldl dropSlots).whenNot retrainAll

theorem resolveTx {acc : Mod × _} {f x} (h : acc.1.Canon) : (Mod.resolveTx f acc x).1.Canon := by
  unfold Mod.resolveTx
  dsimp only
  split
  · exact h
  · split
    · exact (h.foldl countReg).setSlot.applyTx
    · exact (h.foldl countReg).setSlot.when setFld

theorem commitTxs {s : Mod} {f} (h : s.Canon) : (s.commitTxs f).Canon := foldlFst h resolveTx

theorem abandonSlots {s : Mod} (h : s.Canon) : s.abandonSlots.Canon := ((h.foldl setSlot).foldl dropSlots).upd

theorem clearCounts {s : Mod} (h : s.Canon) : s.clearCounts.Canon := h.foldl fun h1 => h1.foldl put

theorem setTail {s : Mod} {q v} (h : s.Canon) : (s.setTail q v).Canon := h.setQueue

theorem setCplHead {s : Mod} {q v} (h : s.Canon) : (s.setCplHead q v).Canon := h.whenNot fun h1 => ite h1.setQueue h1.setQueue

theorem queueOp {s : Mod} {q op} (h : s.Canon) : (s.queueOp q op).Canon :=
  h.whenNot fun h1 => (by split; exacts [h1.setQueue, h1.setQueue, h1.setQueue, h1.setQueue, h1.setQueue, h1.setQueue, h1.setQueue, h1])

theorem clearLedger {s : Mod} (h : s.Canon) : s.clearLedger.Canon := h.foldl put

theorem applyWr {s : Mod} {w} (h : s.Canon) : (s.applyWr w).Canon := by
  unfold Mod.applyWr
  split
  · exact h.setTail
  · exact h.setCplHead
  · exact h.queueOp
  · exact h.when setQueue
  · exact h.upd
  · exact h.when clearLedger
  · exact h.when leaveUp
  · exact h.put

theorem applyWrites {s : Mod} (h : s.Canon) : s.applyWrites.Canon := h.upd.foldl applyWr

theorem applyFlags {s : Mod} (h : s.Canon) : s.applyFlags.Canon := h.upd.foldl fun h1 => h1.put.when fun h2 => h2.when due

/-! ## Command queues -/

theorem acceptOne {s : Mod} {f q} (h : s.Canon) : (Mod.acceptOne f s q).Canon := by
  unfold Mod.acceptOne
  split
  · exact h
  · exact h.setQueue.upd.hubEvent.hubEvent.note.foldl note

theorem acceptUpTo {f n k : Nat} : ∀ {s : Mod}, s.Canon → (Mod.acceptUpTo f n k s).Canon := by
  induction k with
  | zero => exact fun h => h
  | succ k ih =>
    intro s h
    unfold Mod.acceptUpTo
    split
    · exact ih h.acceptOne
    · exact h

theorem acceptAll {s : Mod} {f} (h : s.Canon) : (s.acceptAll f).Canon := (h.upd.foldl fun h1 => h1.whenNot acceptUpTo).upd.foldl releaseWeir

theorem checkOne {s : Mod} {c} (h : s.Canon) : (s.checkOne c).Canon := by
  unfold Mod.checkOne
  split
  · exact h.setCmd
  · exact ite h.setCmd (ite h.setCmd (h.setCmd.when beginSeal))

theorem checkAll {s : Mod} {f} (h : s.Canon) : (s.checkAll f).Canon := h.foldl checkOne

theorem resetQueue {s : Mod} {q} (h : s.Canon) : (s.resetQueue q).Canon := h.when setQueue

theorem resetQueues {s : Mod} (h : s.Canon) : s.resetQueues.Canon := h.foldl resetQueue

theorem strays {s : Mod} {f} (h : s.Canon) : (s.strays f).Canon := (h.upd.foldl fun h1 => h1.whenNot endLoop).upd

theorem unmask {s : Mod} {fn v} (h : s.Canon) : (s.unmask fn v).Canon := h.setVec.flushVec

theorem flrQueues {s : Mod} {f fn} (h : s.Canon) : (Mod.flrQueues f s fn).Canon := (h.upd.foldl dropCmd).when abandonStep

theorem functionReset {s : Mod} {fn} (h : s.Canon) : (s.functionReset fn).Canon := h.upd.upd.when fun h1 => h1.upd

/-! ## Management queues -/

theorem acceptMgmtOne {s : Mod} {f fn} (h : s.Canon) : (Mod.acceptMgmtOne f fn s).Canon := h.whenNot fun h1 => h1.upd.hubEvent.hubEvent.note.foldl note

theorem acceptMgmt {s : Mod} {f} (h : s.Canon) : (s.acceptMgmt f).Canon := (h.foldl fun h1 => h1.foldl acceptMgmtOne).foldl releaseWeir

theorem mgmtEnd {s : Mod} {c status detail result} (h : s.Canon) : (s.mgmtEnd c status detail result).Canon := h.setCmd

theorem mgmtRun {s : Mod} {c act} (h : s.Canon) (k2 : ∀ {t0 t1}, t0.Canon → (act t0 t1).Canon) : (s.mgmtRun c act).Canon := by
  unfold Mod.mgmtRun
  split
  · exact h.mgmtEnd
  · exact k2 h

theorem actDone {s : Mod} {c} (h : s.Canon) : (s.actDone c).Canon := h.mgmtEnd

theorem actResetDomain {s : Mod} {c} (h : s.Canon) : (s.actResetDomain c).Canon := h.setCmd.askReset

theorem actQuotaSet {s : Mod} {c} (h : s.Canon) : (s.actQuotaSet c).Canon := h.stage.stage.actDone

theorem actPowerCap {s : Mod} {c} (h : s.Canon) : (s.actPowerCap c).Canon := h.upd.actDone

theorem actTelemetry {s : Mod} {c} (h : s.Canon) : (s.actTelemetry c).Canon := h.mgmtEnd

theorem testFor {s : Mod} {c result} (h : s.Canon) : (s.testFor c result).Canon := h.setCmd

theorem actOffline {s : Mod} {fail c} (h : s.Canon) : (Mod.actOffline fail s c).Canon := by
  unfold Mod.actOffline
  dsimp only
  split
  · exact h.zeroTile.firstFail'.askReset.testFor
  · exact h.zeroTile.testFor

theorem actSpares {s : Mod} {failed c} (h : s.Canon) : (Mod.actSpares failed s c).Canon := (h.foldl fun h1 => h1.startFail.failTile).testFor

theorem actRestart {s : Mod} {c} (h : s.Canon) : (s.actRestart c).Canon := (h.foldl restartPass).actDone

theorem actPolderSet {s : Mod} {c} (h : s.Canon) : (s.actPolderSet c).Canon := h.setFld.actDone

theorem actConfSet {s : Mod} {c} (h : s.Canon) : (s.actConfSet c).Canon := h.upd.actDone

theorem autoMgmt {s : Mod} {c} (h : s.Canon) : (s.autoMgmt c).Canon := by
  unfold Mod.autoMgmt
  split
  · exact h.mgmtRun actResetDomain
  · exact h.mgmtRun actQuotaSet
  · exact h.mgmtRun actPowerCap
  · exact h.mgmtRun actTelemetry
  · split
    · exact h.mgmtRun actRestart
    · exact h
    · exact h.mgmtEnd
  · exact h.mgmtRun actPolderSet
  · exact h.mgmtRun actConfSet
  · exact h.mgmtRun actDone

theorem settleMgmt {s : Mod} (h : s.Canon) : s.settleMgmt.Canon := h.foldl fun h1 => by split; exacts [(h1.when autoMgmt), h1]

theorem aborts {s : Mod} {f} (h : s.Canon) : (s.aborts f).Canon := h.foldl fun h1 => h1.endCmds.foldl abandonStep

end Mod.Canon
end Sys2Proof.Machine
end

section
/-! SUPPORT. The sluice keeps device memory canonical. -/

namespace Sys2Proof.Machine

namespace Mod.Canon

/-! ## What a frame owes -/

theorem takeLen {s : Mod} (h : s.Canon) : s.takeLen.Canon := h.upd

theorem turnRoutes {s : Mod} {old} (h : s.Canon) : (s.turnRoutes old).Canon := (h.foldl fun h1 => h1.when setFld).foldl fun h1 => h1.foldl leaveUp

theorem substitute {s : Mod} (h : s.Canon) : s.substitute.Canon := ite h.upd.setFld (ite h.upd.setFld h.upd.turnRoutes).raiseNow

theorem bucketA {s : Mod} {p n} (h : s.Canon) : (Mod.bucketA p s n).Canon := (h.when onBucketLate).when onPassOne

theorem stepA {s : Mod} {p} (h : s.Canon) : (s.stepA p).Canon := by
  unfold Mod.stepA
  exact ((((((((h.foldl bucketA).when castBallot).when vote).when onVerdict).when settleHost).when maintain).when endPassTwo).when closeStep).when closeWithout

theorem settleA {s : Mod} (h : s.Canon) : s.settleA.Canon := ((h.when takeLen).when substitute).foldl stepA

theorem stepB {s : Mod} {p} (h : s.Canon) : (s.stepB p).Canon :=
  ((((h.foldl fun h1 => h1.when onBucketClose).when reopen).when openStep).when completeCkpt).when endRestore

theorem settleWaits {s : Mod} (h : s.Canon) : s.settleWaits.Canon := h.whenNot endCmds

theorem settleB {s : Mod} (h : s.Canon) : s.settleB.Canon :=
  ((((((h.settleWaits.foldl brkHit).foldl stepB).foldl fun h1 => h1.when onZeroed).foldl starve).foldl fun h1 => h1.when startRound).when failRejoin).whenNot onHang

theorem runDue {s : Mod} {fu x} (h : s.Canon) : (Mod.runDue fu s x).Canon := by
  unfold Mod.runDue
  split
  · exact h.runCmd
  · exact h.runDelay
  · exact h.runSignal
  · exact h.runWeirClear
  · exact h.runCmd
  · exact h.runRunProgram
  · exact h.runWork
  · exact h.runWork
  · exact h.runCmd
  · exact h.runCmd
  · exact h.runWork
  · exact h.runRow
  · exact h.runWork
  · exact h.runWork
  · exact h.runWork
  · exact h.runCmd
  · exact h.runSlotClear
  · exact h.runCmd
  · exact h.runCmd
  · exact h.runCmd
  · exact h.runXf
  · exact h.runCmd
  · exact h.runCmd
  · exact h.runWork
  · exact h.runWork
  · exact h.when runCmd
  · exact h.runImport
  · exact h.runReduce
  · exact h.runCmd
  · exact h.runCmd
  · exact h.runStepRun
  · exact h.runLoopStart
  · exact h.runLoopStop
  · exact h.runCkptTake
  · exact h.when runCmd
  · exact h.runReplayDiag
  · exact h.runCmd
  · exact h.runCmd
  · exact h.runWork
  · exact h.runWork
  · exact h.runCmd
  · exact h.runCmd
  · exact h.runTrace
  · exact h.runCmd
  · exact h.runCmd
  · exact h

theorem settleCmds {s : Mod} {fu} (h : s.Canon) : (s.settleCmds fu).Canon := h.foldl runDue

theorem settleBuckets {s : Mod} (h : s.Canon) : s.settleBuckets.Canon := h.foldl fun h1 => h1.foldl fun h2 => (h2.when onStageOne).when onOwnSum

theorem settleFlushes {s : Mod} (h : s.Canon) : s.settleFlushes.Canon := h.foldl fun h1 => h1.when flushRgn

theorem onMessage {s : Mod} {l m} (h : s.Canon) : (Mod.onMessage l s m).Canon := by
  unfold Mod.onMessage
  split
  · exact h.onShard
  · exact h.onResult
  · exact h.onBallot
  · exact h.onClose
  · exact h.onRowadd
  · exact h.onXfer
  · exact h.onIdle
  · exact h

theorem settleLink {s : Mod} {l} (h : s.Canon) : (s.settleLink l).Canon := h.whenNot fun h1 => h1.setLink.foldl onMessage

theorem settle {s : Mod} {fu} (h : s.Canon) : (s.settle fu).Canon := by
  unfold Mod.settle
  exact (h.settleCmds.settleFlushes.settleBuckets.foldl settleLink).settleMgmt

/-! ## The sluice -/

theorem dropWaits {s : Mod} {e : Engine} (h : s.Canon) : (match e with
    | .link l => let k := s.link l; if [0, 1, 2, 3].all fun v => (k.tx.waits.getD v []).isEmpty then s else s.setLink l { k with tx := { k.tx with waits := [[], [], [], []] } }
    | _ => s : Mod).Canon := by
  split
  · exact h.whenNot setLink
  · exact h

theorem dropEngine {s : Mod} {e} (h : s.Canon) : (s.dropEngine e).Canon := (dropWaits (e := e) h).upd

theorem overrun {s : Mod} {f e} (h : s.Canon) : (Mod.overrun f s e).Canon := by
  unfold Mod.overrun
  split
  · split
    · exact ((h.upd.dropEngine.foldl abandonStep).foldl note).event
    · exact (h.upd.dropEngine.foldl abandonStep).foldl note

theorem overruns {s : Mod} {f late} (h : s.Canon) : (s.overruns f late).Canon := by
  unfold Mod.overruns
  dsimp only
  split
  · exact h
  · exact (h.countReg.when fun h1 => h1.put.putPair.raise).foldl overrun

theorem noteStart {s : Mod} {f : Nat} {c : Cmd} (h : s.Canon) : (if c.mgmt || c.first != f || c.phase != .running || c.status == 0x01 then s else
    match s.ob.traces.get c.pol with
    | none => s
    | some _ => match s.fresh Config.freeNat with
      | (n, s) =>
        let s := s.note c.pol f { Rec.of 6 c.src c.qn c.seq (f % 2 ^ 32) 0 with cycle := n % s.budget }
        if c.opcode = 4 then s.note c.pol f (.of 14 c.src (c.result.toNat % 2 ^ 32) (c.w 2) 0 0) else s : Mod).Canon := by
  split
  · exact h
  · split
    · exact h
    · dsimp only
      exact (h.fresh.note).when note

theorem noteStarts {s : Mod} {f} (h : s.Canon) : (s.noteStarts f).Canon := h.foldl noteStart

theorem gather {s : Mod} {f} (h : s.Canon) : (s.gather f).Canon := h.upd.foldl begin

theorem takePoison {s : Mod} (h : s.Canon) : s.takePoison.Canon := h.foldl abandonStep

theorem bytesOf {s : Mod} {f e} (h : s.Canon) : (Mod.bytesOf f s e).Canon := by
  unfold Mod.bytesOf
  dsimp only
  split
  · exact h.when hubEvent
  · exact h.when hubEvent
  · exact h.event
  · exact h.event
  · exact h.event
  · exact h.event
  · split
    · exact h.event.event
    · exact h.event
  · exact h.foldl event
  · exact h

theorem readErrors {s : Mod} (h : s.Canon) : s.readErrors.Canon := by
  unfold Mod.readErrors
  split
  · exact h
  · exact (h.bump.foldl fun h1 => h1.foldl countReg).countReg.countReg.foldl countReg

theorem upkeep {s : Mod} (h : s.Canon) : s.upkeep.Canon := h.updMem

theorem dataEvents {s : Mod} {f} (h : s.Canon) : (s.dataEvents f).Canon := by
  unfold Mod.dataEvents
  dsimp only
  refine (foldl (foldl (foldl (h.foldl bytesOf) fun h1 => ?_) fun h1 => h1.event.event.event) fun h1 => h1.foldl fun h2 => h2.fresh.event).foldl fun h1 => h1.when hubEvent
  split
  · exact h1.event
  · exact h1

theorem unitStep {s : Mod} {f moved} (h : s.Canon) : (s.unitStep f moved).Canon := h.upd.when fun h1 => h1.upd

theorem stepFive {s : Mod} {f} (h : s.Canon) : (s.stepFive f).Canon := h.commitTxs.applyWrites.applyKeys.upd.applyRest.upd.applyFlags.powerStep.restartsDue

theorem confStep {s : Mod} {f} (h : s.Canon) : (s.confStep f).Canon := h.upd.foldl fun h1 => ite h1.enterConf h1.setFld

theorem endProgs {s : Mod} {f} (h : s.Canon) : (s.endProgs f).Canon := h.upd

theorem observe {s : Mod} {f ops} (h : s.Canon) : (s.observe f ops).Canon := ((h.foldl brkStatus).flushTraces.foldl traceOp).banksStep.when keepCoarse

theorem syncStep {s : Mod} {was edge lost} (h : s.Canon) : (s.syncStep was edge lost).Canon := (h.setFld.when fun h1 => h1.raiseNow.alertAll).upd

theorem renumber {s : Mod} {a b} (h : s.Canon) : (s.renumber a b).Canon := h.updMem

theorem rejoined {s : Mod} {f edge} (h : s.Canon) : (s.rejoined f edge).Canon := by
  unfold Mod.rejoined
  split
  · exact h.upd.setFld.setFld.raiseNow.renumber
  · exact h

theorem openWindow {s : Mod} {late edge lost} (h : s.Canon) : (s.openWindow late edge lost).Canon := by
  unfold Mod.openWindow
  dsimp only
  apply releaseStep; apply upd; apply sweepMigs; apply stepFive; apply applyData; apply upkeep; apply readErrors; apply dataEvents; apply takeFaults
  refine foldl ?_ goPass
  exact h.noteStarts.haltFrame.checkAll.clearCounts.gather.overruns.abandonSlots.takePoison

theorem part {s : Mod} {p} (h : s.Canon) : (s.part p).Canon := h.upd

theorem evalWeirs {s : Mod} {w} (h : s.Canon) : (s.evalWeirs w).Canon := by
  unfold Mod.evalWeirs
  exact (h.takeIdle.weirStep.part.aborts.upd.foldl flrQueues).confStep.endProgs.unitStep

theorem postAll {s : Mod} (h : s.Canon) : s.postAll.Canon := h.strays.prepAsked.replyStep.resetQueues.emptyQueues.acceptAll.acceptMgmt.part

theorem nextFrame {s : Mod} {f edge} (h : s.Canon) : (s.nextFrame f edge).Canon := by
  unfold Mod.nextFrame
  exact (h.upd.rejoined.foldl nextProg).grants.raiseLinks.startLinks.sendDue.beginAsked.releaseHeld.releaseStuck

theorem endWindow {s : Mod} {w} (h : s.Canon) : (s.endWindow w).Canon := by
  unfold Mod.endWindow
  exact h.replyStep.observe.syncStep.applyFlags.nextFrame

theorem resumeC {s : Mod} {w} (h : s.Canon) : (s.resumeC w).Canon := h.whenNot endWindow

theorem resumeB {s : Mod} {w} (h : s.Canon) : (s.resumeB w).Canon := h.whenNot fun h1 => h1.postAll.resumeC

theorem resume {s : Mod} (h : s.Canon) : s.resume.Canon := by
  unfold Mod.resume
  split
  · exact h
  · split
    · exact h.whenNot fun h1 => h1.evalWeirs.resumeB
    · exact h.resumeB
    · exact h.resumeC

theorem finishB {s : Mod} {w} (h : s.Canon) : (s.finishB w).Canon := h.settleB.postAll.settleWaits.endWindow

theorem closeWindow {s : Mod} (h : s.Canon) : s.closeWindow.Canon := by
  unfold Mod.closeWindow
  split
  · exact h
  · split
    · exact h.settleA.evalWeirs.finishB
    · exact h.finishB
    · exact h.settleWaits.endWindow

theorem takeSluice {s : Mod} {fu late edge lost} (h : s.Canon) : (s.takeSluice fu late edge lost).Canon := h.settle.openWindow.resume

theorem mgmtFrame {s : Mod} (h : s.Canon) : s.mgmtFrame.Canon := h.settleMgmt.applyWrites.applyFlags.postReplies.acceptMgmt.upd.prepAsked.beginAsked.sendDue

end Mod.Canon
end Sys2Proof.Machine
end

section
/-! SUPPORT. Every row, and so every step, keeps device memory canonical (R8, R45). -/

namespace Sys2Proof.Machine

/-- The state that an answer goes on to, if any, has its memory canonical. -/
def CanonNext (o : Host.Outcome State Fault Refusal) : Prop := ∀ t, o = .next t → t.m.Canon

namespace CanonNext

theorem next {s : State} (h : s.m.Canon) : CanonNext (.next s) := fun _ e => Host.Outcome.next.inj e ▸ h

theorem notEnabled : CanonNext (.refused .notEnabled) := by
  intro t e
  cases e

theorem ite {c : Prop} [Decidable c] {o o' : Host.Outcome State Fault Refusal} (h : CanonNext o) (k : CanonNext o') : CanonNext (if c then o else o') := by
  split
  · exact h
  · exact k

/-! ## The shared answers of rows -/

theorem when {s : State} {b : Bool} {m : Mod} (h : m.Canon) : CanonNext (s.when b m) := ite (next h) notEnabled

theorem mgmt {s : State} {f k op act} (h : s.m.Canon) (ha : ∀ {t : Mod} {c}, t.Canon → (act t c).Canon) : CanonNext (s.mgmt f k op act) := by
  refine when ?_
  split
  · exact h.mgmtRun ha
  · exact h

theorem onMsg {s : State} {l k f} (h : s.m.Canon) (hf : ∀ {t : Mod} {x}, t.Canon → (f t x).Canon) : CanonNext (s.onMsg l k f) := by
  unfold State.onMsg Mod.popMsg
  dsimp only
  split
  · next e =>
    split at e
    · cases e
      exact next (hf h.setLink)
    · cases e
  · exact notEnabled

theorem onHeld {s : State} {l k f} (h : s.m.Canon) (hf : ∀ {t : Mod} {x}, t.Canon → (f t x).Canon) : CanonNext (s.onHeld l k f) := by
  unfold State.onHeld Mod.popHeld
  dsimp only
  split
  · next e =>
    split at e
    · cases e
      exact next (hf h.setLink)
    · cases e
  · exact notEnabled

theorem respond {s : State} {d} (h : s.m.Canon) : (s.respond d).m.Canon := h.emit

/-- A bus command whose effect keeps memory canonical. -/
theorem i3cCmd {s : State} {args n} {f : Nat → State × Byte × List Byte} (h : s.m.Canon) (hf : ∀ k, (f k).1.m.Canon) : CanonNext (s.i3cCmd args n f) :=
  ite (next h) (ite (next (respond h)) (next (respond (hf _))))

theorem stateIte {c : Prop} [Decidable c] {s t : State} (h : s.m.Canon) (k : t.m.Canon) : (if c then s else t).m.Canon := by
  split
  · exact h
  · exact k

theorem ccc {s u : State} {b} (h : s.m.Canon) (k : u.m.Canon) : CanonNext (s.ccc b u) := next (stateIte k h)

theorem cccRead {s : State} {a d} (h : s.m.Canon) : CanonNext (s.cccRead a d) := ccc h h.emit

theorem loadIr {s : State} {c} (h : s.m.Canon) : CanonNext (s.loadIr c) := next (stateIte h.emit h)

theorem loadPinIr {s : State} {c} (h : s.m.Canon) : CanonNext (s.loadPinIr c) := loadIr h

theorem instrument {s : State} {d other n f} (h : s.m.Canon) (hf : ∀ {m : Mod}, m.Canon → (f m).1.Canon) : CanonNext (s.instrument d other n f) := by
  have opened : (if other then s.m.raiseNow .SP_DEBUG_JTAG_OPEN 0 else s.m).Canon := h.when Mod.Canon.raiseNow
  exact ite (next h) (ite (next h.emit) (ite (next opened.emit) (next (hf opened).emit)))

/-! ## The alert byte, the supplies and the start -/

theorem latch {s : State} {bits} (h : s.m.Canon) : (s.latch bits).m.Canon := stateIte h.emit h

theorem powerOn {s : State} (h : s.m.Canon) : s.powerOn.m.Canon := stateIte h h

theorem powerOff {s : State} (h : s.m.Canon) : s.powerOff.m.Canon := stateIte h.powerLost h

theorem beginShutdown {s : State} {high} (h : s.m.Canon) : (s.beginShutdown high).m.Canon :=
  have latched := latch h
  stateIte latched latched.resetAll.raiseNow

theorem ready {s : State} {x r} (h : s.m.Canon) : (s.ready x r).m.Canon :=
  latch (((h.upd.startLayout.startTiles.foldl Mod.Canon.leaveConf).setFld.upd.foldl fun h1 => h1.when Mod.Canon.beginTraining).closeReset)

theorem start {s : State} {r} (h : s.m.Canon) : (s.start r).m.Canon := by
  have tried := (h.writeLedger (x := s.startRun r) (r := r)).whenNot (c := (s.startRun r).cut = true) Mod.Canon.saveLedger
  refine stateIte (Mod.Canon.upd ?_) (stateIte (latch (Mod.Canon.upd ?_)) (ready ?_))
  all_goals exact tried.when fun h1 => h1.setFld.setFld.upd

/-! ## The rows of the supplies and of the port that look at the pins -/

theorem auxPowerUp {x : BitVec 4} {s : State} (h : s.m.Canon) : CanonNext (execAuxPowerUp x s) := ite notEnabled (next (powerOn h))

theorem auxUndervoltage {s : State} (h : s.m.Canon) : CanonNext (execAuxUndervoltage s) := by
  unfold execAuxUndervoltage
  split
  · refine next ?_
    dsimp only
    exact Mod.Canon.loadLedger h.powerLost
  · exact notEnabled

theorem p48vBelow36V {s : State} (h : s.m.Canon) : CanonNext (execP48vBelow36V s) := ite (next (latch (powerOff h))) (next h)

theorem railFault {rail : Fin 9} {s : State} (h : s.m.Canon) : CanonNext (execRailFault rail s) := ite (next (latch (powerOff h))) notEnabled

theorem inputVoltageFault {high : Bool} {s : State} (h : s.m.Canon) : CanonNext (execInputVoltageFault high s) := ite (next (beginShutdown (stateIte h h))) notEnabled

theorem perstAssert {s : State} (h : s.m.Canon) : CanonNext (execPerstAssert s) := ite (next h.upd.resetAll) (next h.upd)

theorem fastPowerLimit {s : State} (h : s.m.Canon) : CanonNext (execFastPowerLimit s) := ite (next (latch h.upd)) notEnabled

theorem thermalReading {r : List (BitVec 16 × Int)} {s : State} (h : s.m.Canon) : CanonNext (execThermalReading r s) := by
  refine ite notEnabled (next (stateIte (beginShutdown (stateIte (latch ?_) ?_)) (stateIte (latch ?_) ?_)))
  all_goals exact h.takeReadings.hotBits.upd.when fun h1 => h1.alertAll.raise

theorem moduleStart {r : StartResult} {s : State} (h : s.m.Canon) : CanonNext (execModuleStart r s) := ite (next (start h)) notEnabled

theorem frameSyncRise {s : State} (h : s.m.Canon) : CanonNext (execFrameSyncRise s) := by
  unfold execFrameSyncRise
  split
  · exact when h.takeSluice
  · exact next h

theorem samplePreload {load : BitVec 39} {s : State} (h : s.m.Canon) : CanonNext (execSamplePreload load s) := ite (next h.emit.emit.bump) (next h)

theorem readLedger {args : List Byte} {s : State} (h : s.m.Canon) : CanonNext (execReadLedger args s) := by
  refine i3cCmd h fun k => ?_
  split
  · exact h
  · exact h

theorem scanEn {s : State} (h : s.m.Canon) : CanonNext (execScanEn s) := by
  refine instrument h fun hm => ?_
  split
  · exact hm
  · exact hm.enterScan

theorem registerWrite {p : Port} {off len v} {s : State} (h : s.m.Canon) : CanonNext (execRegisterWrite p off len v s) := by
  unfold execRegisterWrite
  split
  · exact when h.hostAcc
  · exact when h.bar4Write
  · exact when h.cfgWrite

theorem registerRead {p : Port} {off len} {s : State} (h : s.m.Canon) : CanonNext (execRegisterRead p off len s) := by
  unfold execRegisterRead
  split
  · exact when h.hostAcc
  · exact when h.bar4Read
  · exact when h.emit

theorem getMeasurements {f session index nonce} {s : State} (h : s.m.Canon) : CanonNext (execGetMeasurements f session index nonce s) := by
  unfold execGetMeasurements
  dsimp only
  split
  · exact when h.upd.emit.bump
  · exact when h.spdmReply

theorem keyExchange {f msg} {s : State} (h : s.m.Canon) : CanonNext (execKeyExchange f msg s) := by
  refine when ?_
  split
  · exact h.upd.spdmReply
  · exact h.spdmReply

theorem finish {f session msg} {s : State} (h : s.m.Canon) : CanonNext (execFinish f session msg s) := by
  refine when ?_
  split
  · exact .ite h.spdmReply (.ite h.upd.spdmReply h.dropSession.spdmReply)
  · exact h.spdmReply

/-- A vendor-defined request whose answer keeps memory canonical. -/
theorem vendor {s : State} {fn n op body f} (h : s.m.Canon) (hf : ∀ p k id key digest, (f p k id key digest : Mod).Canon) : CanonNext (s.vendor fn n op body f) := by
  refine when (.ite h.spdmReply ?_)
  split
  · exact h.keyReply
  · exact hf _ _ _ _ _

theorem ideKm {s : State} {f n code stream on} (h : s.m.Canon) : CanonNext (s.ideKm f n code stream on) := when (.ite (h.secured fun h1 => h1.upd) h.spdmReply)

theorem memUncorr {p : Fin 4} {addr : BitVec 48} {s : State} (h : s.m.Canon) : CanonNext (execMemUncorr p addr s) := by
  refine when ?_
  split
  · exact h.uncorrAt
  · exact h

/-- A self-test, whatever its sub-command does. -/
theorem selftest {s : State} {b : Bool} {o : Option Cmd} {act : Mod → Cmd → Mod} (h : s.m.Canon) (ha : ∀ {t : Mod} {c}, t.Canon → (act t c).Canon) :
    CanonNext (s.when b (match o with
      | some c => s.m.mgmtRun c act
      | none => s.m)) := by
  refine when ?_
  split
  · exact h.mgmtRun ha
  · exact h

end CanonNext

open CanonNext

/-- Every row keeps device memory canonical. -/
theorem exec_canon (i : Instr) {s : State} (h : s.m.Canon) : CanonNext (exec i s) := by
  cases i
  case sluice => exact when (Mod.Canon.ite h.closeWindow (.ite h.settle.upd h.takeSluice))
  case frameSyncRise => exact CanonNext.frameSyncRise h
  case syncLost => exact when h.takeSluice
  case sluiceWatchdog => exact when h.watchdog
  case frameLenChange => exact when h.takeLen.resume
  case weirTimeout => exact when h.weirTimeout.resume
  case registerWrite => exact CanonNext.registerWrite h
  case fcCtOpen | fcCtClose | fcCtAbandon | weirSignal | weirCtrlClear | doorbell | cqCplHead | enable | pause | resume | reset | mqTail | zlCtrlRetrain
      | zlCtrlClr | meCkptRestoreGo | mcTileRemapGo | stStatusClrCounts | tdIdxCtrlClr | mtEccCtrlClr | bcCtrlClr | obBankCtrlClr | obBankCtrlSample
      | mcLedgerCtrlClear | clrHang | mcDieCtrl | hostBar2Write | hostBar2Read => exact when h.hostAcc
  case nop | frameMark | collectOpen | collectClose | histRead | descCreate | descDestroy | descRead | objAlloc | objRelease | hostIn | hostOut
      | groupInit | stepLoad | ckptDrain | recordRead | embStageBind | dbgRead | breakSet | breakResume => exact when h.runCmd
  case delay => exact when h.runDelay
  case signal => exact when h.runSignal
  case weirClear => exact when h.runWeirClear
  case runProgram => exact when h.runRunProgram
  case fwdProduct | pcsLoad | revProduct | expandW | quantize | amax | migrate | windowFill | embLookup | embScatterAdd => exact when h.runWork
  case regionFlush => exact when h.flushRgn
  case lnFwd | lnBwd | rmsFwd | rmsBwd | smFwd | smBwd => exact when h.runRow
  case slotClear => exact when h.runSlotClear
  case copy | transpose | convert | gather | scatterWrite | scatterAdd => exact when h.runXf
  case reduce => exact when h.runReduce
  case stepRun => exact when h.runStepRun
  case loopStart => exact when h.runLoopStart
  case loopStop => exact when h.runLoopStop
  case ckptTake => exact when h.runCkptTake
  case replayDiag => exact when h.runReplayDiag
  case abort | queueAssign => exact mgmt h Mod.Canon.actDone
  case resetDomain => exact mgmt h Mod.Canon.actResetDomain
  case quotaSet => exact mgmt h Mod.Canon.actQuotaSet
  case powerCap => exact mgmt h Mod.Canon.actPowerCap
  case telemetry => exact mgmt h Mod.Canon.actTelemetry
  case offline => exact selftest h Mod.Canon.actOffline
  case spares => exact selftest h Mod.Canon.actSpares
  case restart => exact selftest h Mod.Canon.actRestart
  case polderSet => exact mgmt h Mod.Canon.actPolderSet
  case confSet => exact mgmt h Mod.Canon.actConfSet
  case configure | start | stop | trigger => exact when h.runTrace
  case breakpointHit => exact when h.brkHit.resume
  case stepOpen => exact when h.openStep.resume
  case bucketClose => exact when h.onBucketClose.resume
  case stage1Complete => exact when h.onStageOne
  case shard => exact onHeld h Mod.Canon.onShard
  case result => exact onHeld h Mod.Canon.onResult
  case bucketLate => exact when h.onBucketLate.resume
  case passOne => exact when h.onPassOne.resume
  case ballotSluice => exact when h.castBallot.resume
  case ballot => exact onHeld h Mod.Canon.onBallot
  case voteSluice => exact when h.vote.resume
  case hostVerdict => exact when h.onVerdict.resume
  case hostTimeout => exact when h.settleHost.resume
  case maintenancePass => exact when h.maintain.resume
  case replayOpen => exact when h.reopen.resume
  case passTwo => exact when h.endPassTwo.resume
  case close => exact onHeld h Mod.Canon.onClose
  case closingSluice => exact when h.closeStep.resume
  case closeTimeout => exact when h.closeWithout.resume
  case linkTraining => exact when h.trainLink
  case trainTimeout => exact when h.setLink
  case retrainInterval => exact when h.beginTraining
  case laneLockLoss | ackTimeout => exact when h.leaveUp
  case flitReceive => exact when h.takeFlit
  case idle => exact onMsg h Mod.Canon.onIdle
  case mgmt => exact onMsg h id
  case rowadd => exact onMsg h Mod.Canon.onRowadd
  case xfer => exact onMsg h Mod.Canon.onXfer
  case substitution => exact when h.substitute.resume
  case rejoinNoPeer => exact when h.failRejoin.resume
  case hangDetect => exact when h.onHang.resume
  case domainRelease => exact when h.endChecks
  case tileFault => exact when h.onTileFault
  case memUncorr => exact CanonNext.memUncorr h
  case patrolScrub => exact when h.patrol
  case pageZeroed => exact when h.onZeroed.resume
  case checkpointComplete => exact when h.completeCkpt.resume
  case restoreComplete => exact when h.endRestore.resume
  case inServiceSlice => exact when (Mod.Canon.ite h.runSlice h.idleSlice)
  case passStarved => exact when h.starve.resume
  case spareTestRound => exact when h.startRound.resume
  case vectorUnmask => exact when h.unmask
  case functionLevelReset => exact when h.functionReset
  case auxPowerUp => exact CanonNext.auxPowerUp h
  case pwrEnAssert | p48vReaching40V => exact next (powerOn h)
  case pwrEnDeassert => exact next (powerOff h)
  case perstAssert => exact CanonNext.perstAssert h
  case moduleStart => exact CanonNext.moduleStart h
  case railFault => exact CanonNext.railFault h
  case inputVoltageFault => exact CanonNext.inputVoltageFault h
  case auxUndervoltage => exact CanonNext.auxUndervoltage h
  case powerWindow => exact when h.takeReadings.upd
  case fastPowerLimit => exact CanonNext.fastPowerLimit h
  case thermalReading => exact CanonNext.thermalReading h
  case readSensor | readStatus | readCap | readId | alertRead | alertClear | alertMask =>
    unfold exec
    exact i3cCmd h fun _ => h
  case setCap =>
    unfold exec
    exact i3cCmd h fun _ => h.upd
  case readLedger => exact CanonNext.readLedger h
  case entdaa => exact ccc h h.emit
  case setdasa | rstdaa | setnewda | enec | disec | setmrl | setmwl | rstact => exact ccc h h
  case getpid | getbcr | getdcr | getstatus | getmrl | getmwl | getmxds => exact cccRead h
  case extest | clamp | highz => exact loadPinIr h
  case samplePreload => exact CanonNext.samplePreload h
  case idcode => exact next (stateIte h.emit.emit h)
  case ijtag | bypass => exact loadIr h
  case tapReset => exact next (stateIte h h)
  case scanEn => exact CanonNext.scanEn h
  case bcResult =>
    unfold exec
    exact instrument h id
  case pprStatus | misrRead =>
    unfold exec
    exact instrument h Mod.Canon.bump
  case getVersion | negotiateAlgorithms => exact when h.upd.spdmReply
  case getCapabilities => exact when h.spdmReply
  case getDigests | getCertificate | challenge => exact when h.connected
  case getMeasurements => exact CanonNext.getMeasurements h
  case keyExchange => exact CanonNext.keyExchange h
  case finish => exact CanonNext.finish h
  case endSession => exact when (h.secured Mod.Canon.dropSession)
  case heartbeat => exact when (h.secured id)
  case keyUpdate => exact when (h.secured Mod.Canon.updateKeys)
  case release | revoke => exact vendor h fun _ _ _ _ _ => .ite h.stageKey.keyReply h.keyReply
  case query => exact vendor h fun _ _ _ _ _ => h.keyReply
  case kSetGo | kSetStop => exact ideKm h
  case registerRead => exact CanonNext.registerRead h
  case p48vBelow36V => exact CanonNext.p48vBelow36V h
  case managementFrame => exact when h.mgmtFrame
  case shardOwnerSum => exact when h.onOwnSum
  case spareTestEnd => exact when h.endSpareTest
  case coarsePowerRefresh => exact when h.refreshCoarse
  -- IMPORT and SEAL, whose names are words of Lean's own
  · exact when h.runImport
  · exact when h.runCmd

/-- Settles O4: an idle step changes nothing, and every row keeps memory canonical. -/
theorem stepKeepsMemoryCanonical : Obligations.StepKeepsMemoryCanonical := by
  unfold Obligations.StepKeepsMemoryCanonical
  intro s t canon h
  rcases step_cases h with rfl | ⟨c, rest, _, run⟩
  · exact canon
  · exact exec_canon c (s := { s with pending := rest }) canon t run

end Sys2Proof.Machine
end
